-- ==== Sys2Proof/Word.lean ====
section
/-! DEFINITION. The word types of the block, the identifiers that the spec's numbering gives (R44, R45) and the
canonical sparse map in which State keeps everything of which there are many. -/

namespace Sys2Proof

/-- A 64-bit word (R9). -/
abbrev Word := BitVec 64
/-- A byte (R9). -/
abbrev Byte := BitVec 8
/-- One lane of the vector unit (R139). -/
abbrev Lane := BitVec 32

/-- Logical tile id T, 0 to 4,095 (R44). -/
abbrev TileId := Fin 4096
/-- Logical slice id S, 0 to 511 (R44). -/
abbrev SliceId := Fin 512
/-- Cluster c, 0 to 7 (R41). -/
abbrev ClusterId := Fin 8
/-- Partition p, 0 to 7 (R356). -/
abbrev PartId := Fin 8
/-- Virtual instance v, 0 to 63 (R363). -/
abbrev ViId := Fin 64
/-- Command ring r of a VI, 0 to 3 (R386). -/
abbrev RingId := Fin 4
/-- Lacing channel, 0 to 3 (R183). -/
abbrev Chan := Fin 4
/-- Copy engine CEe, 0 to 15 (R43). -/
abbrev CeId := Fin 16
/-- HBM port 4s + q, 0 to 31 (R45). -/
abbrev HbmPort := Fin 32
/-- HBM stack s, 0 to 7 (R43). -/
abbrev StackId := Fin 8
/-- Newen port n, 0 to 7 (R43). -/
abbrev NewenId := Fin 8
/-- Network node id, 14 bits (R45). -/
abbrev NodeId := BitVec 14

/-- A map from numbers to values, kept as a list with rising keys that omits every entry equal to the default. Equal
maps are then equal lists. The default is given by each reader and writer. -/
abbrev Sparse (α : Type) := List (Nat × α)

end Sys2Proof
end

