-- ==== Sys2Proof/Syntax.lean ====
section
/-! DEFINITION. The commands of the block: one constructor per row of the command table, with the operands it carries.
Tile instructions carry every field of their R154 format, the reserved ones too, so that a word with a reserved field
set can be named and faults as R156 says. Commands that stand for an arrival carry what arrives. -/

namespace Sys2Proof

/-- Format R (R154). -/
structure FmtR where
  d : BitVec 4
  a : BitVec 4
  b : BitVec 4
  c : BitVec 4
  i : Bool
  msk : BitVec 3
  s : Bool
  sub : BitVec 3
  imm : BitVec 32
deriving DecidableEq, Repr

/-- Format I (R154); `r` is the reserved field [51:48]. -/
structure FmtI where
  d : BitVec 4
  r : BitVec 4
  imm : BitVec 48
deriving DecidableEq, Repr

/-- Format J (R154). -/
structure FmtJ where
  a : BitVec 4
  b : BitVec 4
  cond : BitVec 3
  i : Bool
  len : BitVec 12
  imm : BitVec 32
deriving DecidableEq, Repr

/-- Format W (R154); `r` is the reserved field [47:0]. -/
structure FmtW where
  noc : Bool
  mma : Bool
  drn : Bool
  lac : Bool
  n : BitVec 4
  r : BitVec 48
deriving DecidableEq, Repr

/-- Format Y (R154); `r` is the reserved field [42:32]. -/
structure FmtY where
  num : BitVec 8
  i : Bool
  a : BitVec 4
  r : BitVec 11
  imm : BitVec 32
deriving DecidableEq, Repr

/-- Format M (R154); `r1` is the reserved field [47:39], `r2` the reserved bit [32]. -/
structure FmtM where
  d : BitVec 4
  a : BitVec 4
  r1 : BitVec 9
  msk : BitVec 3
  size : BitVec 2
  sx : Bool
  r2 : Bool
  off : BitVec 32
deriving DecidableEq, Repr

/-- Format T (R154); `r` is the reserved field [35:0]. -/
structure FmtT where
  a : BitVec 4
  b : BitVec 4
  c : BitVec 4
  conv : BitVec 8
  r : BitVec 36
deriving DecidableEq, Repr

/-- Format X (R154). -/
structure FmtX where
  acc : Bool
  accum : Bool
  mode : Bool
  expk : Bool
  early : Bool
  strict : Bool
  passes : BitVec 2
  afmt : BitVec 4
  bfmt : BitVec 4
  sel : BitVec 4
  ga : BitVec 4
  gb : BitVec 4
  gk : BitVec 4
  astr : BitVec 12
  bstr : BitVec 12
deriving DecidableEq, Repr

/-- Format D (R154); `r1` is the reserved field [54:52], `r2` the reserved field [47:0]. -/
structure FmtD where
  acc : Bool
  r1 : BitVec 3
  a : BitVec 4
  r2 : BitVec 48
deriving DecidableEq, Repr

/-- Format L (R154); `r` is the reserved field [35:0]. -/
structure FmtL where
  d : BitVec 4
  a : BitVec 4
  op : BitVec 4
  ch : BitVec 2
  k : BitVec 5
  root : Bool
  r : BitVec 36
deriving DecidableEq, Repr

/-- Format G (R154); `r` is the reserved field [41:0]. -/
structure FmtG where
  a : BitVec 4
  b : BitVec 4
  fmt : BitVec 4
  sta : Bool
  dig : Bool
  r : BitVec 42
deriving DecidableEq, Repr

/-- The shared status codes of R17. -/
inductive Status where
  | ok | cancelled | timeout | targetIsolated | eccUncorrected | badDescriptor | outOfRange | accessLevel
  | busyStopClass | noSpace | fitExceeded | illegalEncoding | viReset | partialApplied | hung | linkDown
  | epochWaitTimeout | notFound | aborted | badValue | laceTimeout
deriving DecidableEq, Repr

/-- The extension flit of a remote packet (R274): its fields, and its reserved bits [7:6], [31:22] and [511:38]. -/
structure PacketExt where
  device : BitVec 6
  node : NodeId
  responder : BitVec 6
  rsv7 : BitVec 2 := 0
  rsv31 : BitVec 10 := 0
  rsv511 : BitVec 474 := 0
deriving DecidableEq, Repr

/-- A packet of the network: every field of the header of R251 (FLAGS.EXT tells whether `ext` is there), the extension
flit, and the payload as a little-endian number with one poison bit per payload byte (R250, R286). Machine/Wire.lean gives
its flits. -/
structure Packet where
  crc : BitVec 16
  route : BitVec 48
  address : BitVec 48
  dest : NodeId
  src : NodeId
  tag : BitVec 12
  cmd : BitVec 6
  length : BitVec 6
  bytes : BitVec 12
  conv : BitVec 8
  bulk : Bool
  poison : Bool
  flagsRsv : BitVec 5
  status : BitVec 8
  vi : BitVec 6
  part : BitVec 3
  priority : BitVec 2
  vc : BitVec 2
  entry : BitVec 5
  rsv : BitVec 38
  ext : Option PacketExt
  payload : Nat
  poisoned : Nat
deriving DecidableEq, Repr

/-- What a router or switch finds on the link by which a packet has come (R284, R285, R287): words corrected, whether a
header word was uncorrectable, and the payload words newly uncorrectable. -/
structure LinkErrors where
  corrected : Nat
  header : Bool
  words : List Nat
deriving DecidableEq, Repr

/-- A flit of a packet or a slot of a link frame (R250, R414): its 512 bits, and which of its 64-bit words are poisoned. -/
structure Flit where
  bits : BitVec 512
  marks : BitVec 8 := 0
deriving DecidableEq, Repr

/-- A requester of the dictionary (R439). -/
inductive Requester where
  | can (node : BitVec 8)
  | udp (address : BitVec 128) (port : BitVec 16)
  | mailbox (vi : ViId)
  | pf1
deriving DecidableEq, Repr

/-- An OAP message (R450): its header, and the `n` data bytes that follow as a little-endian number. -/
structure OapMsg where
  version : BitVec 2 := 1
  rsp : Bool := false
  cont : Bool := false
  type : BitVec 4
  tid : BitVec 8
  index : BitVec 16
  sub : BitVec 8
  status : BitVec 8 := 0
  length : BitVec 16
  n : Nat
  data : Nat
deriving DecidableEq, Repr

/-- A CAN frame as received (R455 to R457): extended or not, its identifier, FD or classical, its data bytes. -/
structure CanFrame where
  extended : Bool
  id : BitVec 29
  fd : Bool
  n : Nat
  data : Nat
deriving DecidableEq, Repr

/-- An Ethernet frame that is no OAP datagram, as far as the spec distinguishes them (R466). IPv4 addresses are written
as ::ffff:a.b.c.d. -/
inductive EthFrame where
  /-- an ARP or NDP request for an address -/
  | resolve (address : BitVec 128)
  /-- an ICMP or ICMPv6 echo request to an address -/
  | echo (address : BitVec 128) (n data : Nat)
  /-- a DHCPv4 offer of an address -/
  | offer (address : BitVec 32)
  /-- a DHCPv4 acknowledgement: address, prefix length, gateway -/
  | lease (address : BitVec 32) (pfx : Nat) (gateway : BitVec 32)
  /-- a fragmented datagram, a TCP segment, a datagram to another port, or anything else -/
  | other
deriving DecidableEq, Repr

/-- A Lacing message (R216, R217): an error status, or the lanes of the operation and the number of ROOT
members they come from (R232); integers of the second sweep are kept
modulo 2^96. -/
structure LaceMsg where
  err : Option Status := none
  op : Nat
  k : Nat
  roots : Nat := 0
  data : List Nat := []
deriving DecidableEq, Repr

/-- A lace beat (R215 to R217): its 16-bit tag and its 256 data bits. `roots` and `idle` are no bits of the beat: what the
spec gives no place for, the ROOT members behind a BCAST and the identity of a device without members (log entry 93). -/
structure LaceBeat where
  tag : BitVec 16
  data : BitVec 256
  roots : Nat := 0
  idle : Bool := false
deriving DecidableEq, Repr

/-- A link frame (R414 to R416): its 256 bytes as a little-endian number, and what its lace beat carries beside its bits
(log entry 93). Machine/Wire.lean reads and forms its fields. -/
structure Frame where
  bits : BitVec 2048
  roots : Nat := 0
  idle : Bool := false
deriving DecidableEq, Repr

/-- What the host answers to a request of the device (R397). -/
inductive HostEnd where
  | ok | unsupported | abort | poisoned | timeout
deriving DecidableEq, Repr

/-- Data that the host supplies to a step that reads host memory: its bytes as a little-endian number, and how the read
ends (R397). -/
structure HostData where
  data : Nat
  outcome : HostEnd
deriving DecidableEq, Repr

/-- How the PCIe link was lost (R402): a hot reset, a link disable, or loss of the data link. -/
inductive LinkLoss where
  | hotReset | disable | dataLink
deriving DecidableEq, Repr

/-- The scope of a reset sequence (R546); `failing`: isolated nodes of the cluster that fail the reset's test (R291). -/
inductive ResetScope where
  | device
  | partition (p : PartId)
  | cluster (c : ClusterId) (failing : List NodeId)
deriving DecidableEq, Repr

/-- A key or result that comes down to a tile: the channel, and what the last link did to it (R215): 1 a corrected error, 2 an
uncorrectable one. -/
structure LaceDown where
  ch : Chan
  upset : Nat := 0
deriving DecidableEq, Repr

/-- A partition whose forming or reset is complete, and its isolated nodes that fail the reset's test (R291). -/
structure PartUp where
  part : PartId
  failing : List NodeId := []
deriving DecidableEq, Repr

/-- What a boot stage finds at its end (R548, R551, R571): whether a copy of the persistent store passes its CRC, the two
flash images as little-endian numbers, failing Welt lanes (direction 0 west to east, 1 east to west, and physical lane),
tiles that fail their self-test, slices that fail theirs, eyelets that fail, links that fail as
receiving router (cluster, row, column) with the sender's port code, routers that fail (cluster, row, column), and stacks
that fail training. -/
structure BootFound where
  storeOk : Bool := true
  storeOldOk : Bool := true
  imageA : Nat := 0
  imageB : Nat := 0
  lanes : List (Nat × Nat) := []
  tiles : List Nat := []
  slices : List Nat := []
  eyelets : List Nat := []
  links : List (Nat × Nat × Nat × Nat) := []
  routers : List (Nat × Nat × Nat) := []
  failedStacks : List Nat := []
deriving DecidableEq, Repr

/-- What a loopback test finds (R562, R570): bits or words compared, errors, the Calends of the first difference, whether an
MBIST pass was completed, Welt lanes of the direction under test with an error, eyelets with their errors, links with an
error as receiving router and port code. -/
structure TestFound where
  compared : Nat := 0
  errors : Nat := 0
  first : Nat := 0
  complete : Bool := true
  lanes : List Nat := []
  eyelets : List (Nat × Nat) := []
  links : List (Nat × Nat × Nat × Nat) := []
deriving DecidableEq, Repr

/-- A pin in the boundary register (R573, R576): every digital signal pin, the AC-coupled lanes and SYSREF. -/
inductive ScanPin where
  | porN | resetN | perstN | thermtripN
  | bootSel (i : Fin 2)
  | nodeSel (i : Fin 3)
  | canTxd | canRxd | canStby | mdc | mdio | ethPhyRstN | spiClk | spiCsN
  | spiIo (i : Fin 4)
  | pcieTx (l : Fin 16)
  | pcieRx (l : Fin 16)
  | newenTx (n l : Fin 8)
  | newenRx (n l : Fin 8)
  | almTx (l : Fin 4)
  | sysref
deriving DecidableEq, Repr

/-- A scan of the boundary register (R572, R573): pins on which the board holds a 1, or whose test receiver has seen an edge,
and the cells that take a 1 from TDI. -/
structure Scan where
  seen : List ScanPin := []
  shifted : List ScanPin := []
deriving DecidableEq, Repr

/-- A configuration request of the host (R364, R381, R398): a write of NumVFs and VF Enable of the physical function of a
link, of a function's Bus Master Enable, MSI-X Enable and Function Mask, Max_Payload_Size and Max_Read_Request_Size in bytes,
ATS Enable, of the power state D3hot of the physical function, of the HDM decoder's commit; or any other request. -/
inductive ConfigRequest where
  | sriov (link : Fin 2) (numVfs : Nat) (enable : Bool)
  | busMaster (v : ViId) (on : Bool)
  | msix (v : ViId) (enable mask : Bool)
  | deviceControl (v : ViId) (maxPayload maxRead : Nat)
  | ats (v : ViId) (on : Bool)
  | d3hot
  | hdmCommit (on : Bool)
  | bar4Size (gib : Nat)
  | other
deriving DecidableEq, Repr

/-- The commands of the block: one constructor per row of the command table. -/
inductive Instr where
  /-- NOP: Tile instruction that does nothing (R157). -/
  | nop (t : TileId) (f : FmtR)
  /-- END: Tile instruction that ends the program; the task ends once outstanding work completes (R153). -/
  | endTask (t : TileId) (f : FmtR)
  /-- JMP: Unconditional relative branch, or end of program at target N, or OUT_OF_RANGE fault (R158). -/
  | jmp (t : TileId) (f : FmtJ)
  /-- BR: Conditional relative branch comparing Ga with Gb under COND (R159). -/
  | br (t : TileId) (f : FmtJ)
  /-- LOOP: Starts a hardware loop over LEN body instructions for a count read once at issue (R160). -/
  | loop (t : TileId) (f : FmtJ)
  /-- WAIT: Holds issue until the selected asynchronous units reach the selected condition (R161). -/
  | wait (t : TileId) (f : FmtW)
  /-- TINC: Queues an addition to a sequencer tally that takes effect after earlier writes are acknowledged (R162). -/
  | tinc (t : TileId) (f : FmtY)
  /-- TWAIT: Holds issue until a sequencer tally reaches the operand (R162). -/
  | twait (t : TileId) (f : FmtY)
  /-- MOVI: Loads a sign-extended 48-bit immediate into a G register (R157). -/
  | movi (t : TileId) (f : FmtI)
  /-- MOVHI: Writes the top 16 bits of a G register from the immediate (R157). -/
  | movhi (t : TileId) (f : FmtI)
  /-- ADD: 64-bit scalar addition (R163). -/
  | add (t : TileId) (f : FmtR)
  /-- SUB: 64-bit scalar subtraction (R163). -/
  | sub (t : TileId) (f : FmtR)
  /-- MUL: 64-bit scalar multiplication keeping the low 64 bits (R163). -/
  | mul (t : TileId) (f : FmtR)
  /-- AND: 64-bit scalar bitwise AND (R163). -/
  | and (t : TileId) (f : FmtR)
  /-- OR: 64-bit scalar bitwise OR (R163). -/
  | or (t : TileId) (f : FmtR)
  /-- XOR: 64-bit scalar bitwise XOR (R163). -/
  | xor (t : TileId) (f : FmtR)
  /-- SHL: 64-bit scalar left shift (R163). -/
  | shl (t : TileId) (f : FmtR)
  /-- SHR: 64-bit scalar logical right shift (R163). -/
  | shr (t : TileId) (f : FmtR)
  /-- SRA: 64-bit scalar arithmetic right shift (R163). -/
  | sra (t : TileId) (f : FmtR)
  /-- MIN: Signed 64-bit minimum (R163). -/
  | min (t : TileId) (f : FmtR)
  /-- MAX: Signed 64-bit maximum (R163). -/
  | max (t : TileId) (f : FmtR)
  /-- MINU: Unsigned 64-bit minimum (R163). -/
  | minu (t : TileId) (f : FmtR)
  /-- MAXU: Unsigned 64-bit maximum (R163). -/
  | maxu (t : TileId) (f : FmtR)
  /-- LD: Local load of 1 to 8 bytes into a G register (R164). -/
  | ld (t : TileId) (f : FmtM)
  /-- ST: Local store of 1 to 8 bytes from a G register (R164). -/
  | st (t : TileId) (f : FmtM)
  /-- VLD: Local load of 128 bytes into a VQ register (R164). -/
  | vld (t : TileId) (f : FmtM)
  /-- VST: Local store of the active lanes of a VQ register (R164). -/
  | vst (t : TileId) (f : FmtM)
  /-- GET: Starts a converting transfer from a device address into the tile's local space (R166). -/
  | get (t : TileId) (f : FmtT)
  /-- PUT: Starts a converting transfer from the tile store to a device address (R166). -/
  | put (t : TileId) (f : FmtT)
  /-- XFER: Starts a two-dimensional transfer described by a 32-byte descriptor (R168). -/
  | xfer (t : TileId) (f : FmtT)
  /-- MMA: Checks a fold of K steps into an accumulator and places it in the array queue (R171). -/
  | mma (t : TileId) (f : FmtX)
  /-- DRAIN: Checks a finishing descriptor and places a drain in the finishing-stage queue (R173). -/
  | drain (t : TileId) (f : FmtD)
  /-- VADD: FP32 lane addition (R174). -/
  | vadd (t : TileId) (f : FmtR)
  /-- VSUB: FP32 lane subtraction (R174). -/
  | vsub (t : TileId) (f : FmtR)
  /-- VMUL: FP32 lane multiplication (R174). -/
  | vmul (t : TileId) (f : FmtR)
  /-- VFMA: FP32 lane fused multiply-add (R174). -/
  | vfma (t : TileId) (f : FmtR)
  /-- VMAX: FP32 lane maximum (R174). -/
  | vmax (t : TileId) (f : FmtR)
  /-- VMIN: FP32 lane minimum (R174). -/
  | vmin (t : TileId) (f : FmtR)
  /-- VEXP2: Correctly rounded 2^a per lane (R175). -/
  | vexp2 (t : TileId) (f : FmtR)
  /-- VRCP: Correctly rounded reciprocal per lane (R175). -/
  | vrcp (t : TileId) (f : FmtR)
  /-- VRSQRT: Correctly rounded reciprocal square root per lane (R175). -/
  | vrsqrt (t : TileId) (f : FmtR)
  /-- VIADD: 32-bit integer lane addition (R176). -/
  | viadd (t : TileId) (f : FmtR)
  /-- VISUB: 32-bit integer lane subtraction (R176). -/
  | visub (t : TileId) (f : FmtR)
  /-- VIMUL: 32-bit integer lane multiplication (R176). -/
  | vimul (t : TileId) (f : FmtR)
  /-- VAND: Lane bitwise AND (R176). -/
  | vand (t : TileId) (f : FmtR)
  /-- VOR: Lane bitwise OR (R176). -/
  | vor (t : TileId) (f : FmtR)
  /-- VXOR: Lane bitwise XOR (R176). -/
  | vxor (t : TileId) (f : FmtR)
  /-- VSHL: Lane left shift (R176). -/
  | vshl (t : TileId) (f : FmtR)
  /-- VSHR: Lane logical right shift (R176). -/
  | vshr (t : TileId) (f : FmtR)
  /-- VSRA: Lane arithmetic right shift (R176). -/
  | vsra (t : TileId) (f : FmtR)
  /-- VCMP: Compares lanes into a mask register (R177). -/
  | vcmp (t : TileId) (f : FmtR)
  /-- VSEL: Selects lanes of two registers by mask (R177). -/
  | vsel (t : TileId) (f : FmtR)
  /-- VBCG: Broadcasts Ga[31:0] to the active lanes of a VQ register (R157). -/
  | vbcg (t : TileId) (f : FmtR)
  /-- VGET: Moves one lane of a VQ register into a G register (R177). -/
  | vget (t : TileId) (f : FmtR)
  /-- VPERM: Permutes lanes by an index register (R177). -/
  | vperm (t : TileId) (f : FmtR)
  /-- VRED: Reduces the active lanes to lane 0 (R178). -/
  | vred (t : TileId) (f : FmtR)
  /-- VCVT: Converts 32 packed elements between formats (R179). -/
  | vcvt (t : TileId) (f : FmtR)
  /-- MOP: Mask operation selected by SUB (R180). -/
  | mop (t : TileId) (f : FmtR)
  /-- VTKF: Forms a ranked top-k list from the active lanes (R140). -/
  | vtkf (t : TileId) (f : FmtR)
  /-- VTKM: Merges two top-k lists (R140). -/
  | vtkm (t : TileId) (f : FmtR)
  /-- SRKEY: Merges lanes into a SUM.R key (R181). -/
  | srkey (t : TileId) (f : FmtR)
  /-- SRQ: Forms the SUM.R leaf integer of each lane under a key (R181). -/
  | srq (t : TileId) (f : FmtR)
  /-- SRADD: Adds 96-bit integer lane triples (R181). -/
  | sradd (t : TileId) (f : FmtR)
  /-- SRDQ: Forms the SUM.R result from a triple and a key (R181). -/
  | srdq (t : TileId) (f : FmtR)
  /-- LACE: Issues one Lacing operation on a channel of the partition's context (R183). -/
  | lace (t : TileId) (f : FmtL)
  /-- DGST: Feeds tile-store bytes to the statistics and digest units (R185). -/
  | dgst (t : TileId) (f : FmtG)
  /-- EVT: Writes a program event to the tile's event ring (R186). -/
  | evt (t : TileId) (f : FmtY)
  /-- MMA_START: A queued MMA starts once the running one ends and no drain holds its accumulator (R172). -/
  | mmaStart (t : TileId)
  /-- MMA_END: An MMA completes its last fold step and leaves the array (R172). -/
  | mmaEnd (t : TileId)
  /-- DRAIN_START: A queued drain starts once the stage is free and earlier MMAs on its accumulator have ended (R173). -/
  | drainStart (t : TileId)
  /-- DRAIN_ROW_WRITE: The finishing stage computes, taps and writes one output row, or issues it as a NoC store (R145). -/
  | drainRowWrite (t : TileId)
  /-- DRAIN_COMPLETE: A drain ends when every row is written and, for DEST 1, acknowledged (R145). -/
  | drainComplete (t : TileId)
  /-- TRANSFER_PIECE_ISSUE: The network interface issues the next piece of a queued transfer when its slot and reply room are free (R167). -/
  | transferPieceIssue (t : TileId)
  /-- TRANSFER_FAULT_REPORT: An error response of a transfer or LACE is reported as a fault at the next instruction boundary (R169). -/
  | transferFaultReport (t : TileId)
  /-- INSN_FAULT: After a fault and the completion of issued work, the tile writes INSN_FAULT and reports to its sequencer (R189). -/
  | insnFault (t : TileId)
  /-- PROGRAM_BEAT: A tile writes one broadcast program beat and sets PROG_LEN on the last (R187). -/
  | programBeat (t : TileId) (bad : Bool)
  /-- LACE_KEY_ARRIVAL: The SUM.R key reaches a tile, which quantises its values in one vector cycle (R227). -/
  | laceKeyArrival (t : TileId) (x : LaceDown)
  /-- LACE_RESULT: A Lacing result or error is delivered into a member's destination register (R234). -/
  | laceResult (t : TileId) (x : LaceDown)
  /-- TASK_FETCH: The sequencer fetches and validates a task descriptor into a free queue slot (R194). -/
  | taskFetch (c : ClusterId) (q : Fin 16) (host : HostData)
  /-- TASK_READY: A PENDING task becomes READY when every wait tally reaches its target (R199). -/
  | taskReady (c : ClusterId) (q : Fin 16) (slot : Fin 64)
  /-- TASK_DISPATCH: A READY task meeting every dispatch condition is dispatched to its tile set (R201). -/
  | taskDispatch (c : ClusterId) (host : HostData)
  /-- TASK_DONE: A task ends DONE on all its tiles and its increments are applied (R200). -/
  | taskDone (c : ClusterId) (q : Fin 16) (slot : Fin 64)
  /-- EPOCH_WAIT_TIMEOUT: A READY task whose minimum epoch is not reached within EPOCH_WAIT fails (R202). -/
  | epochWaitTimeout (c : ClusterId) (q : Fin 16) (slot : Fin 64)
  /-- DUTY_SLOT: A 1 µs duty slot begins and each cluster enters an on-slot or off-slot (R207). -/
  | dutySlot
  /-- COMMIT_APPLY: At a cluster boundary the sequencer applies pending commits and advances the epoch (R204). -/
  | commitApply (c : ClusterId)
  /-- TALLY_SLOT_WRITE: A NoC write to a tally in the sequencer's control slot adds to it (R198). -/
  | tallySlotWrite (pkt : Packet)
  /-- LATCH_START: Counters are latched for a command 128 cycles after acceptance (R209). -/
  | latchStart (v : ViId) (r : RingId) (seq : Nat)
  /-- LATCH_END: Counters are latched 128 cycles after a command's work ends, and its record is written (R209). -/
  | latchEnd (v : ViId) (r : RingId) (seq : Nat)
  /-- COMPLETION_WRITE: The device writes a command's completion entry, advances CQ_TAIL and raises its vector (R395). -/
  | completionWrite (v : ViId) (r : RingId) (seq : Nat)
  /-- EYELET_COMBINE: An eyelet combines its children's messages for one operation and passes the result up or turns it down (R225). -/
  | eyeletCombine (p : PartId) (ch : Chan) (eyelet : Nat) (upset : Nat)
  /-- LACE_OP_END: A Lacing operation ends at every member, and any held LACE starts the next operation (R221). -/
  | laceOpEnd (p : PartId) (ch : Chan)
  /-- LACE_TIMEOUT: An operation not ended within LACE_TIMEOUT ends with LACE_TIMEOUT for its whole context (R240). -/
  | laceTimeout (p : PartId) (ch : Chan)
  /-- DOMAIN_END_MESSAGE: A domain end message ends an operation at every device of the domain (R240). -/
  | domainEndMessage (p : PartId) (ch : Chan) (n : NewenId)
  /-- ROUTER_HOP: A router or switch consumes a route code and forwards a packet, or discards it as a misroute (R253). -/
  | routerHop (router : Nat) (errs : LinkErrors) (alt : Nat)
  /-- REQUEST_ISSUE: An initiator sends a request once its standing slot and reply room are available (R262). -/
  | requestIssue (n : NodeId)
  /-- NOC_READ: A READ request arrives at its target and enters an intake entry (R255). -/
  | nocRead (pkt : Packet)
  /-- NOC_WRITE: A WRITE of up to 32 bytes arrives at its target (R265). -/
  | nocWrite (pkt : Packet)
  /-- WRITE_PULL: A pulled write is announced to its target (R265). -/
  | writePull (pkt : Packet)
  /-- PULL: A target asks the initiator for the data of a pulled write; the initiator sends PULL_DATA (R265). -/
  | pull (pkt : Packet)
  /-- PULL_DATA: The data of a pulled write arrives at its target (R265). -/
  | pullData (pkt : Packet)
  /-- READ_RESP: Read data and status arrive at the initiator (R255). -/
  | readResp (pkt : Packet)
  /-- WRITE_ACK: Write completion and status arrive at the initiator (R265). -/
  | writeAck (pkt : Packet)
  /-- SLOT_ASK: An initiator asks a tile for an intake entry (R264). -/
  | slotAsk (pkt : Packet)
  /-- SLOT_GRANT: A tile's grant of an intake entry arrives at the initiator (R264). -/
  | slotGrant (pkt : Packet)
  /-- SLOT_GRANT_SEND: A tile grants an entry round robin to a recorded ask once an entry is free (R264). -/
  | slotGrantSend (t : TileId)
  /-- SLOT_RETURN: An unused intake grant is returned to the tile's pool (R277). -/
  | slotReturn (pkt : Packet)
  /-- TALLY_ADD: A TINC message adds to a tally at the sequencer (R255). -/
  | tallyAdd (pkt : Packet)
  /-- TALLY_WATCH: A TWAIT message asks the sequencer to watch a tally (R256). -/
  | tallyWatch (pkt : Packet)
  /-- TALLY_MET: The sequencer's notice that a watched tally has reached its target arrives at the tile (R256). -/
  | tallyMet (pkt : Packet)
  /-- WAKE_REQ: A porch's wake request reaches power control (R293). -/
  | wakeReq (pkt : Packet)
  /-- ISOLATE_NOTE: An isolation note ends or releases the matching request at its initiator (R290). -/
  | isolateNote (pkt : Packet)
  /-- ISOLATE_NOTE_SEND: An active shim sends the next isolation note, one every 16 cycles (R290). -/
  | isolateNoteSend (n : NodeId)
  /-- INTAKE_SERVICE: A free service unit takes the next intake entry in service order (R263). -/
  | intakeService (n : NodeId)
  /-- INTAKE_AGED: An intake entry reaches INTAKE_AGE and is served as priority 3 (R263). -/
  | intakeAged (n : NodeId) (src : NodeId) (tag : BitVec 12)
  /-- TAG_TIMEOUT: A request's tag timer expires; the initiator synthesises TIMEOUT and holds the slot (R280). -/
  | tagTimeout (n : NodeId) (tag : BitVec 12) (target : NodeId)
  /-- TIMEOUT_REPORT: A synthesised TIMEOUT report reaches the health monitor, which may declare the target dead (R288). -/
  | timeoutReport (n : NodeId)
  /-- DEAD_STALL: A target that serves no entry for DEAD_STALL_TIME is declared dead and its shim activates (R288). -/
  | deadStall (n : NodeId)
  /-- CONTROL_STATE_ERROR: A target's own check finds an uncorrectable control-state error and it is declared dead (R288). -/
  | controlStateError (n : NodeId)
  /-- PORCH_ARRIVAL: A packet enters a porch; the first one to a sleeping domain sends WAKE_REQ (R293). -/
  | porchArrival (d : Fin 20) (pkt : Packet)
  /-- DOMAIN_ON: A woken domain comes on and its porch passes packets inward in order (R293). -/
  | domainOn (d : Fin 20)
  /-- WAKE_FAIL: A domain not on within four wake times is recorded WAKE_FAIL and treated as isolated (R294). -/
  | wakeFail (d : Fin 20)
  /-- ROUTES_RECOMPUTED: Firmware loads new route tables after a declared link failure (R295). -/
  | routesRecomputed
  /-- SCRUB_WORD: A patrol scrubber reads one word in an idle cycle and corrects or logs it (R305). -/
  | scrubWord (n : NodeId)
  /-- ECC_WRITEBACK: A corrected word is written back in the next idle cycle (R303). -/
  | eccWriteback (a : BitVec 48)
  /-- POISON_MARK: An uncorrectable word is marked poisoned in place in the next idle cycle (R303). -/
  | poisonMark (a : BitVec 48)
  /-- HBM_ENTRY_COMPLETE: An HBM port completes an entry in service and sends its response (R309). -/
  | hbmEntryComplete (p : HbmPort) (src : NodeId) (tag : BitVec 12) (ondie : Nat)
  /-- HBM_REFRESH: The controller issues a per-bank refresh at its interval (R311). -/
  | hbmRefresh (p : HbmPort)
  /-- HBM_RFM: A stack signals that a bank needs refresh management and the port issues RFM (R311). -/
  | hbmRfm (p : HbmPort) (bank : Nat)
  /-- HBM_TEMP_READ: The controller reads each stack's temperature every 1 ms (R311). -/
  | hbmTempRead (st : StackId) (celsius : Int)
  /-- HBM_POWER_DOWN: A port idle for 1 µs enters power-down (R314). -/
  | hbmPowerDown (p : HbmPort)
  /-- HBM_DEEP_SLEEP_ENTRY: An idle PHY group with HBM_DEEP_SLEEP set completes its entries and enters self-refresh (R314). -/
  | hbmDeepSleepEntry (g : Fin 2)
  /-- COPY_ENQUEUE: A validated copy descriptor enters an engine queue once a slot is free (R322). -/
  | copyEnqueue
  /-- COPY_ACTIVATE: A queued copy descriptor becomes active and latches its conversion value (R320). -/
  | copyActivate (e : CeId) (q : Nat)
  /-- COPY_REQUEST_ISSUE: A copy engine issues the next request by Shelf, management and VI precedence (R321). -/
  | copyRequestIssue (e : CeId) (w : Bool)
  /-- COPY_REPORT: A completed descriptor is reported in queue order to the unit that queued it (R320). -/
  | copyReport (e : CeId) (q : Nat)
  /-- ENGINE_ISOLATION_DRAIN: Descriptors of an isolated engine complete TARGET_ISOLATED (R324). -/
  | engineIsolationDrain (e : CeId)
  /-- WAKE: A session WAKE reserves T0 frames, allocates append pages and starts promotion (R342). -/
  | wake (sid : Nat)
  /-- PAGE_MOVE_ISSUE: The Shelf issues the next page move of a promotion or demotion as a Shelf descriptor (R345). -/
  | pageMoveIssue
  /-- PAGE_MOVE_COMPLETE: A page move ends and the Shelf rewrites the page-table entry (R338). -/
  | pageMoveComplete (mv : Nat)
  /-- FRAME_ZEROED: A released T0 frame finishes zeroing and counts as free (R335). -/
  | frameZeroed (p : PartId) (fr : Nat)
  /-- IDLE_PARK: A session's idle timer reaches IDLE_TIME and a park is queued (R346). -/
  | idlePark (sid : Nat)
  /-- CLUSTER_MAP_WRITE: A CLUSTER_MAP write dissolves and forms a partition (R357). -/
  | clusterMapWrite (r : Requester) (p : PartId) (v : Nat)
  /-- PARTITION_READY: A forming partition reports ready and PART_STATE becomes READY (R357). -/
  | partitionReady (x : PartUp)
  /-- PART_RESET: A partition reset resets its VIs, aborts its tasks and reinitialises its state (R371). -/
  | partReset (p : PartId)
  /-- FENCE_WRITE: A fence object write changes a partition's HBM ranges and may start zeroing (R360). -/
  | fenceWrite (r : Requester) (p : PartId) (word : Fin 8) (v : Nat)
  /-- FENCE_ZEROING_DONE: Firmware finishes zeroing bytes removed from a fence (R362). -/
  | fenceZeroingDone (p : PartId)
  /-- VI_RESET: A VI reset starts, refusing doorbells, cancelling tasks and voiding copies (R367). -/
  | viReset (v : ViId)
  /-- VI_TILE_SCRUB: Tiles of the reset VI stop, clear accumulators and zero their store below the band (R367). -/
  | viTileScrub (v : ViId)
  /-- VI_RESET_COMPLETE: A VI reset completes when its in-flight count reaches 0, and the reset policy is applied (R367). -/
  | viResetComplete (v : ViId)
  /-- VI_RESET_FORCE: At 20 µs remaining tags of the VI are forced to TIMEOUT and the reset completes (R367). -/
  | viResetForce (v : ViId)
  /-- RING_TAIL: A tail doorbell advances a command ring's accepted tail (R388). -/
  | ringTail (v : ViId) (r : RingId) (size : Nat) (val : Nat)
  /-- CQ_HEAD: A doorbell records how far the host has consumed completions (R388). -/
  | cqHead (v : ViId) (size : Nat) (val : Nat)
  /-- WAKE_DOORBELL: A WAKE doorbell write starts a session WAKE (R388). -/
  | wakeDoorbell (v : ViId) (size : Nat) (val : Nat)
  /-- ENTRY_FETCH: The port issues a read of up to 8 command entries of a ring (R389). -/
  | entryFetch (v : ViId) (r : RingId)
  /-- ENTRY_ARRIVAL: Command entries arrive and are validated in index order, or the ring faults (R392). -/
  | entryArrival (v : ViId) (r : RingId) (host : HostData)
  /-- HOST_NOP: NOP command completes OK at acceptance (R391). -/
  | hostNop (v : ViId) (r : RingId) (seq : Nat)
  /-- RUN: RUN command writes its run block and sends its task lists to the clusters (R393). -/
  | run (v : ViId) (r : RingId) (seq : Nat)
  /-- LOAD_MODEL: LOAD_MODEL validates a manifest, places segments and copies them (R375). -/
  | loadModel (v : ViId) (r : RingId) (seq : Nat) (host : HostData)
  /-- MEM_COPY: MEM_COPY submits a copy descriptor to a copy engine (R317). -/
  | memCopy (v : ViId) (r : RingId) (seq : Nat)
  /-- SESSION_WAKE: SESSION_WAKE command opens or wakes a session, optionally setting the pin (R342). -/
  | sessionWake (v : ViId) (r : RingId) (seq : Nat)
  /-- SESSION_PARK: SESSION_PARK demotes a session to T1 or T2 (R347). -/
  | sessionPark (v : ViId) (r : RingId) (seq : Nat)
  /-- SESSION_CLOSE: SESSION_CLOSE releases every page of a session (R341). -/
  | sessionClose (v : ViId) (r : RingId) (seq : Nat)
  /-- FENCE: FENCE pauses fetching until earlier commands complete and epochs are reached (R394). -/
  | fence (v : ViId) (r : RingId) (seq : Nat)
  /-- DICT: DICT carries one OAP request and writes its response (R394). -/
  | dict (v : ViId) (r : RingId) (seq : Nat) (host : HostData)
  /-- DIGEST_READ: DIGEST_READ writes a tile's statistics block and optionally clears it (R394). -/
  | digestRead (v : ViId) (r : RingId) (seq : Nat)
  /-- RING_ENABLE: Writing RING_ENABLE starts or stops a command ring and resets its indices (R386). -/
  | ringEnable (v : ViId) (r : RingId) (val : Nat)
  /-- CQ_ENABLE: Writing CQ_ENABLE starts the completion ring and resets its indices (R386). -/
  | cqEnable (v : ViId) (val : Nat)
  /-- REG_ERROR: A read of REG_ERROR returns and clears it (R386). -/
  | regError (v : ViId)
  /-- FN_EVENTS: A write of 1 clears function event bits (R386). -/
  | fnEvents (v : ViId) (val : Nat)
  /-- RING_FAULT: A write of 1 clears a ring's fault bit (R386). -/
  | ringFault (v : ViId) (r : RingId) (val : Nat)
  /-- REGISTER_WRITE: A write to a function-block register with no behaviour of its own, or a refused write (R386). -/
  | registerWrite (box : Option ViId) (off : Nat) (size : Nat) (val : Nat)
  /-- HOST_COMPLETION: A host completion for a device request arrives and is mapped to a status (R397). -/
  | hostCompletion (tag : Nat) (host : HostData)
  /-- PERST_N: PERST_N assertion resets the port and VIs, or the device under PERST_SCOPE DEVICE (R401). -/
  | perstN
  /-- VF_FLR: A VF function-level reset resets that VI (R402). -/
  | vfFlr (v : ViId)
  /-- PF_FLR: A PF function-level reset resets every VI and clears VF Enable (R402). -/
  | pfFlr
  /-- HOT_RESET: A hot reset, link disable or data-link loss resets every VI (R402). -/
  | hotReset (cause : LinkLoss)
  /-- D3HOT_EXIT: Exit of the PF from D3hot resets VI 0 (R402). -/
  | d3hotExit
  /-- ATS_INVALIDATION: An ATS invalidation request is answered after requests using the range complete (R398). -/
  | atsInvalidation (v : ViId) (a : Nat) (size : Nat)
  /-- CXL_MEM_REQUEST: A host CXL.mem request is fence-checked and served from HBM (R385). -/
  | cxlMemRequest (write : Bool) (a : BitVec 48) (data : Nat)
  /-- CXL_SNOOP: A host snoop is answered as a miss (R399). -/
  | cxlSnoop (a : BitVec 48)
  /-- BAR4_ACCESS: A PF BAR4 access reaches HBM through the window (R400). -/
  | bar4Access (write : Bool) (off : Nat) (size : Nat) (data : Nat)
  /-- IMAGE_GO: Under BOOT_SEL 1 the ROM fetches and checks a host-supplied firmware image (R552). -/
  | imageGo (host : HostData)
  /-- CODEWORD_RECEIVED: A Newen RS codeword is decoded; an uncorrectable one fails its frames (R412). -/
  | codewordReceived (n : NewenId) (errs : Nat)
  /-- ALIGNMENT_CODEWORD: After 16,384 frame codewords the sender sends an alignment codeword (R411). -/
  | alignmentCodeword (n : NewenId)
  /-- FRAME_SEND: A Newen sender forms the next frame from replay, marks, lace beats and slots (R418). -/
  | frameSend (n : NewenId)
  /-- DATA: A DATA frame is accepted in sequence or discarded, delivering slots and lace beats (R419). -/
  | dataFrame (n : NewenId) (fr : Frame)
  /-- IDLE: An IDLE frame updates acknowledgement and credits (R416). -/
  | idleFrame (n : NewenId) (fr : Frame)
  /-- MARK: A received MARK frame is stamped and recorded (R429). -/
  | markFrame (n : NewenId) (fr : Frame)
  /-- NAK: A received NAK makes the sender replay from ACK + 1 (R420). -/
  | nakFrame (n : NewenId) (fr : Frame)
  /-- HELLO: A received HELLO exchanges buffers, sequence and domain flags (R430). -/
  | helloFrame (n : NewenId) (fr : Frame)
  /-- NAK_REPEAT: A further NAK is sent after 4,000 cycles while the expected frame is missing (R419). -/
  | nakRepeat (n : NewenId)
  /-- REPLAY_TIMEOUT: No ACK advance for 10,000 cycles triggers a replay or, at REPLAY_LIMIT, retraining (R420). -/
  | replayTimeout (n : NewenId)
  /-- MARK_PERIOD: An UP port sends a MARK every MARK_PERIOD (R428). -/
  | markPeriod (n : NewenId)
  /-- TRAIN_PHASE_END: A training phase completes and the next begins, or the port becomes UP (R430). -/
  | trainPhaseEnd (n : NewenId) (peerGen : Nat) (peerMin : Nat) (good2 : BitVec 8) (good1 : BitVec 8)
  /-- TRAIN_PHASE_TIMEOUT: A training phase exceeds its bound and records TRAIN_FAIL (R430). -/
  | trainPhaseTimeout (n : NewenId)
  /-- TRAIN_RETRY: A new training attempt begins 10 ms after a failed one (R430). -/
  | trainRetry (n : NewenId)
  /-- RETRAIN_TIME: A retraining port not UP within RETRAIN_TIME goes DOWN (R432). -/
  | retrainTime (n : NewenId)
  /-- NEAR_PROXY_FORWARD: The near proxy assigns a link tag and sends a remote request over the link (R424). -/
  | nearProxyForward (n : NewenId) (lt : Fin 512)
  /-- PORT_ENABLE: Writing PORT_ENABLE starts training or takes the port DOWN (R434). -/
  | portEnable (r : Requester) (n : NewenId) (v : Nat)
  /-- OAP_READ: An OAP READ returns an object's value (R451). -/
  | oapRead (r : Requester) (msg : OapMsg)
  /-- OAP_WRITE: An OAP WRITE is checked and applied or staged (R440). -/
  | oapWrite (r : Requester) (msg : OapMsg)
  /-- READ_BLOCK: A READ_BLOCK returns a value in an opening and continuations (R451). -/
  | readBlock (r : Requester) (msg : OapMsg)
  /-- WRITE_BLOCK: A WRITE_BLOCK opening starts a segmented write (R451). -/
  | writeBlock (r : Requester) (msg : OapMsg)
  /-- BLOCK_CONTINUATION: A continuation segment of a block write arrives; the last one applies the write (R452). -/
  | blockContinuation (r : Requester) (msg : OapMsg)
  /-- BLOCK_SEGMENT_TIMEOUT: A block transfer with a segment gap over 50 ms is abandoned (R452). -/
  | blockSegmentTimeout (r : Requester)
  /-- COMMIT: A COMMIT freezes the staging set, rechecks it and delivers it to clusters in scope (R444). -/
  | commit (r : Requester) (msg : OapMsg)
  /-- COMMIT_TIMEOUT: A commit not applied everywhere by its timeout ends PARTIAL with laggards (R446). -/
  | commitTimeout (no : Nat)
  /-- SCHEDULE: A received round mark begins a CAN round (R461). -/
  | schedule (r : Requester) (msg : OapMsg)
  /-- NOTIFY: A received NOTIFY, or a message with RSP set, is discarded and counted (R451). -/
  | notify (r : Requester) (msg : OapMsg)
  /-- ROUND_MARK_SEND: As master the device queues the next round mark (R461). -/
  | roundMarkSend
  /-- ROUND_LOST: No round mark for two periods puts the device in ROUND_LOST (R461). -/
  | roundLost
  /-- WINDOW_OPEN: A schedule window opens and deferred then due records are attempted (R464). -/
  | windowOpen (k : Fin 16)
  /-- FRAME_ATTEMPT: Before each CAN send attempt the frame's worst-case time is checked against time left (R463). -/
  | frameAttempt (won : Bool)
  /-- CAN_FRAME_RECEIVE: A CAN frame is received and filtered by function and destination (R456). -/
  | canFrameReceive (frame : CanFrame)
  /-- CLASSICAL_GAP_TIMEOUT: Frames of one classical message more than 50 ms apart discard the message (R457). -/
  | classicalGapTimeout (node : BitVec 8)
  /-- UDP_DATAGRAM: A UDP datagram on port 48112 carrying one OAP message is received (R466). -/
  | udpDatagram (address : BitVec 128) (port : BitVec 16) (size : Nat) (data : Nat)
  /-- GO: A GO write sends the mailbox request or fetches the next response segment (R467). -/
  | go (box : Option ViId) (len : Nat)
  /-- PERSIST_WRITE: A persistent value is written to the boot flash store within 200 ms (R442). -/
  | persistWrite (ok : Bool)
  /-- ACCESS_LEVEL: A requester's write to ACCESS_LEVEL changes its own level (R439). -/
  | accessLevel (r : Requester) (v : Nat)
  /-- DISCARD_STAGED: Writing DISCARD_STAGED empties the staging set (R448). -/
  | discardStaged (r : Requester) (v : Nat)
  /-- PERSIST_RESTORE: Writing PERSIST_RESTORE erases the persistent store (R442). -/
  | persistRestore (r : Requester) (v : Nat)
  /-- TILE_DISABLE_MAP: A write of the tile disable map takes effect at the next partition join (R62). -/
  | tileDisableMap (r : Requester) (v : Nat)
  /-- QUEUE_FLUSH: Writing QUEUE_FLUSH cancels every task of the selected queues (R211). -/
  | queueFlush (r : Requester) (c : ClusterId) (v : Nat)
  /-- PROG_FLUSH: Writing PROG_FLUSH marks every tile of the cluster as holding no program (R211). -/
  | progFlush (r : Requester) (c : ClusterId) (v : Nat)
  /-- ISOLATE: Writing a node id to ISOLATE declares that node dead (R291). -/
  | isolate (r : Requester) (v : Nat)
  /-- DEVICE_RESET: Writing DEVICE_RESET answers OK and then applies a device reset (R483). -/
  | deviceReset (r : Requester) (v : Nat)
  /-- VIGIL_REQUEST: Writing VIGIL_REQUEST triggers a freeze of the named scope (R479). -/
  | vigilRequest (r : Requester) (v : Nat)
  /-- RESET_PIN_MASK: Writing RESET_PIN_MASK masks a stuck RESET_N until power-on (R478). -/
  | resetPinMask (r : Requester) (v : Nat)
  /-- LB_START: Writing LB_START checks the precondition and starts a loopback test (R560). -/
  | lbStart (r : Requester) (v : Nat)
  /-- OBJECT_WRITE: A write of an object with no behaviour of its own takes effect live or is staged (R441). -/
  | objectWrite (r : Requester) (index : BitVec 16) (sub : BitVec 8) (size : Nat) (v : Nat)
  /-- EVENT_ENTRY_WRITE: A unit writes one waiting event entry to its ring per cycle (R496). -/
  | eventEntryWrite (n : NodeId)
  /-- WATCHDOG: A cluster watchdog without task progress for WATCHDOG_TIME fires (R508). -/
  | watchdog (c : ClusterId)
  /-- FREEZE: A Vigil trigger freezes its scope and sets it HUNG (R509). -/
  | freeze
  /-- VIGIL_SNAPSHOT: 4,000 cycles after a freeze every dump-set unit latches its snapshot (R511). -/
  | vigilSnapshot
  /-- VIGIL_DONE: The dump is written; commands in scope complete HUNG and streaming starts (R519). -/
  | vigilDone
  /-- ALMANAC_FRAME: The Almanac port forms and sends the next IDLE, TRACE or DUMP frame (R523). -/
  | almanacFrame
  /-- ALIGN: After 1,024 frames every Almanac lane sends an ALIGN block (R522). -/
  | align
  /-- TRACE_RECORD_COLLECT: An event or mark record reaches the collector or is dropped (R525). -/
  | traceRecordCollect (n : NodeId) (mark : Bool)
  /-- POR_N: POR_N low applies a power-on reset to the whole die (R540). -/
  | porN
  /-- POR_RELEASE: POR_N rises and is honoured once supplies are in tolerance (R533). -/
  | porRelease
  /-- SUPPLY_FAULT: A monitored rail leaves tolerance and an internal power-on reset is applied (R533). -/
  | supplyFault
  /-- PLL_LOCK: The PLL locks and power-on reset is released, starting Calends (R56). -/
  | pllLock (bootSel : Fin 4) (nodeSel : Fin 8)
  /-- PLL_UNLOCK: PLL loss of lock applies an internal power-on reset (R56). -/
  | pllUnlock
  /-- RESET_N: RESET_N low for 10 µs applies and holds a device reset (R541). -/
  | resetN
  /-- RESET_N_RISE: RESET_N rises and the boot runs from WELT (R541). -/
  | resetNRise
  /-- RESET_PIN_STUCK: RESET_N held for RESET_STUCK_TIME sets RESET_PIN_STUCK (R542). -/
  | resetPinStuck
  /-- PERST_N_RISE: PERST_N rises and link training begins (R554). -/
  | perstNRise
  /-- TRST_N: TRST_N low holds the TAP in Test-Logic-Reset (R544). -/
  | trstN (low : Bool)
  /-- THERMTRIP_N: A sensor at 125 °C asserts THERMTRIP_N and holds a device reset (R545). -/
  | thermtripN
  /-- SENSOR_READ: Every 1 ms die sensors are read and thermal duty is lowered or tripped (R557). -/
  | sensorRead (clusters : List Int) (other : Int)
  /-- DUTY_RAISE: After 10 ms with the target above it, thermal duty rises by one eighth (R557). -/
  | dutyRaise
  /-- DEVICE_RESET_SEQUENCE: A device, partition or cluster reset stops work, answers intakes ABORTED and empties buffers (R546). -/
  | deviceResetSequence (scope : ResetScope)
  /-- BOOT_STAGE_END: A boot stage completes and the next stage begins (R548). -/
  | bootStageEnd (found : BootFound)
  /-- BOOT_STAGE_TIMEOUT: A boot stage exceeds its bound and the boot fails with TIMEOUT (R556). -/
  | bootStageTimeout
  /-- COMPUTE_DOMAIN_IDLE: A compute domain idle for 100 µs turns off with storage retained (R535). -/
  | computeDomainIdle (c : ClusterId)
  /-- SLICE_RETAIN: A slice domain without requests for 1 ms enters retention (R535). -/
  | sliceRetain (c : ClusterId)
  /-- NEWEN_DOMAIN_OFF: D18 turns off after 10 ms with no enabled port and no porch packet (R535). -/
  | newenDomainOff
  /-- ALMANAC_RECEIVER_CHECK: While D19 is off the lanes are checked once a second for a receiver (R535). -/
  | almanacReceiverCheck (present : Bool)
  /-- SCRUB_BURST: A low-power domain is woken once per scrub period for a full scrub pass (R539). -/
  | scrubBurst (d : Fin 16)
  /-- LB_LOCK: A test checker locks and comparison begins (R562). -/
  | lbLock
  /-- LB_LOCK_TIMEOUT: A checker not locked within 1 ms ends the test FAIL (R560). -/
  | lbLockTimeout
  /-- LB_DURATION_END: A test's duration ends, it is judged and the target returns to service (R563). -/
  | lbDurationEnd (found : TestFound)
  /-- BYPASS: TAP BYPASS instruction (R572). -/
  | bypass
  /-- IDCODE: TAP IDCODE instruction selects the identification register (R572). -/
  | idcode
  /-- SAMPLE_PRELOAD: TAP SAMPLE/PRELOAD instruction (R572). -/
  | samplePreload
  /-- EXTEST: TAP EXTEST instruction, BOOT_SEL 3 only (R572). -/
  | extest
  /-- CLAMP: TAP CLAMP instruction, BOOT_SEL 3 only (R572). -/
  | clamp
  /-- HIGHZ: TAP HIGHZ instruction, BOOT_SEL 3 only (R572). -/
  | highz
  /-- EXTEST_PULSE: TAP EXTEST_PULSE instruction for AC-coupled lanes, BOOT_SEL 3 only (R573). -/
  | extestPulse
  /-- EXTEST_TRAIN: TAP EXTEST_TRAIN instruction for AC-coupled lanes, BOOT_SEL 3 only (R573). -/
  | extestTrain
  /-- CONFIGURATION_REQUEST: A PCIe configuration write (SR-IOV NumVFs and VF Enable, Bus Master Enable, MSI-X enable, Max_Payload_Size, HDM decoder commit) changes function state (R364). -/
  | configurationRequest (req : ConfigRequest)
  /-- PCIE_LINK_UP: PCIe link training completes (with CXL negotiated where offered) and LINK_STATE becomes UP, starting the 1 ms readiness bound (R554). -/
  | pcieLinkUp (speed : Fin 7) (width : Nat) (flit : Bool) (cxl : Fin 4)
  /-- ALIGNMENT_CODEWORD_MISSING: A receiver finds no alignment codeword where one is due, loses lock and the port enters RETRAINING (R432). -/
  | alignmentCodewordMissing (n : NewenId)
  /-- SUPPLY_IN_TOLERANCE: A monitored rail has been back in tolerance for 1 ms and releases the internal power-on reset it caused (R533). -/
  | supplyInTolerance
  /-- FORMING_TIMEOUT: A partition not ready within 2 ms stays FORMING, and the failing cluster's nodes are isolated and its tiles not enabled (R357). -/
  | formingTimeout (p : PartId) (failing : Nat)
  /-- PART_RESET_COMPLETE: A partition reset finishes, within 50 µs, and PART_STATE leaves RESETTING (R371). -/
  | partResetComplete (x : PartUp)
  /-- FENCE_EPOCH_TIMEOUT: A FENCE with EPOCH = 1 completes EPOCH_WAIT_TIMEOUT when a cluster's EPOCH_WAIT expires before its epoch reaches MIN_EPOCH (R394). -/
  | fenceEpochTimeout (v : ViId) (r : RingId) (seq : Nat)
  /-- BACK_INVALIDATE_RESPONSE: The host's response to a CXL 3.1 back-invalidate snoop arrives, and the held device write then takes effect (R385). -/
  | backInvalidateResponse (a : BitVec 48)
  /-- ETHERNET_FRAME: An Ethernet frame carrying ARP, NDP, ICMP or ICMPv6 echo, or DHCPv4, is received and answered, or else discarded and counted (R466). -/
  | ethernetFrame (frame : EthFrame)
deriving DecidableEq, Repr

end Sys2Proof
end

