-- ==== Sys2Proof/Decode.lean ====
section
/-! DEFINITION. Words that spell commands. -/

namespace Sys2Proof

/-- The command a table word spells: none, since the command table gives no row any bits. -/
def decodeTableWord (_nbits _w : Nat) : Option Instr := none

end Sys2Proof
end

