-- ==== Sys2Proof/Machine/Formats.lean ====
section
/-! DEFINITION. The number formats of spec/03_number_formats.md: format codes (R64 to R66), exact decoding (R67 to R79),
the classes of codes (R78) and the one encoder with its rounding and overflow options (R80 to R86). -/

namespace Sys2Proof.Machine

/-- The twelve formats of R64. -/
inductive NumFmt where
  | int4 | int8 | int32 | uint4 | uint8 | e4m3 | e5m2 | lf4 | lf8 | bf16 | fp16 | fp32
deriving DecidableEq, Repr

/-- The format a 4-bit code names; codes 0xC to 0xF are reserved (R64). -/
def NumFmt.ofCode (c : Nat) : Option NumFmt :=
  match c with
  | 0 => some .int4 | 1 => some .int8 | 2 => some .int32 | 3 => some .uint4 | 4 => some .uint8
  | 5 => some .e4m3 | 6 => some .e5m2 | 7 => some .lf4 | 8 => some .lf8 | 9 => some .bf16
  | 10 => some .fp16 | 11 => some .fp32
  | _ => none

/-- Width in bits of one element (R64). -/
def NumFmt.width : NumFmt → Nat
  | .int4 | .uint4 | .lf4 => 4
  | .int8 | .uint8 | .e4m3 | .e5m2 | .lf8 => 8
  | .bf16 | .fp16 => 16
  | .int32 | .fp32 => 32

/-- The integer formats (R64). -/
def NumFmt.isInt : NumFmt → Bool
  | .int4 | .int8 | .int32 | .uint4 | .uint8 => true
  | _ => false

/-- The formats of a strict operation: BF16, FP16 and FP32 (R86, R99). -/
def NumFmt.isStrict : NumFmt → Bool
  | .bf16 | .fp16 | .fp32 => true
  | _ => false

/-- UINT4 and UINT8 are read only as expansion input (R68). -/
def NumFmt.isExpansionOnly : NumFmt → Bool
  | .uint4 | .uint8 => true
  | _ => false

/-- An exact value (R79): NaN, an infinity, or `(-1)^neg * m * 2^e`. The sign of a zero is kept for strict operations. -/
inductive Num where
  | nan
  | inf (neg : Bool)
  | fin (neg : Bool) (m : Nat) (e : Int)
deriving DecidableEq, Repr

/-- Rounding option of R80. -/
inductive Rounding where
  | rne | rtz
deriving DecidableEq, Repr

/-- Overflow option of R80. -/
inductive Overflow where
  | sat | special
deriving DecidableEq, Repr

/-- Exponent bits, significand bits without the hidden bit, bias (R66). -/
structure FloatShape where
  ebits : Nat
  mbits : Nat
  bias : Nat
deriving DecidableEq, Repr

/-- The fields of each binary floating-point format (R66). -/
def NumFmt.shape : NumFmt → FloatShape
  | .e4m3 => ⟨4, 3, 7⟩
  | .e5m2 => ⟨5, 2, 15⟩
  | .bf16 => ⟨8, 7, 127⟩
  | .fp16 => ⟨5, 10, 15⟩
  | _ => ⟨8, 23, 127⟩

/-- Every format with an infinity (R66). -/
def NumFmt.hasInf : NumFmt → Bool
  | .e5m2 | .bf16 | .fp16 | .fp32 => true
  | _ => false

/-- `T[f] * 1024` of R75. -/
def lorfaT (f : Nat) : Nat :=
  match f with
  | 0 => 1024 | 1 => 1117 | 2 => 1218 | 3 => 1328 | 4 => 1448 | 5 => 1579 | 6 => 1722 | _ => 1878

/-- The value of LF8 code `l` in units of 2^-18; `l = 0` is zero and 128 stands for 256 (R75, R82). Every value is a
whole number of these units. -/
def lorfa8Units (l : Nat) : Nat :=
  if l = 0 then 0 else lorfaT (l % 8) * 2 ^ (l / 8)

/-- The value of LF4 code `k` in units of 2^-18 (R76, R82). -/
def lorfa4Units (k : Nat) : Nat :=
  if k = 0 then 0 else 2 ^ (14 + k)

/-- The integer as an exact value. -/
def Num.ofInt (i : Int) : Num := .fin (decide (i < 0)) i.natAbs 0

/-- Two's complement reading of the low `w` bits of `c`. -/
def signedOf (w c : Nat) : Int :=
  if c < 2 ^ (w - 1) then (c : Int) else (c : Int) - 2 ^ w

/-- Decode of a binary floating-point code (R70, R71, R73). -/
def decodeFloat (f : NumFmt) (c : Nat) : Num :=
  let sh := f.shape
  let neg := decide (c / 2 ^ (sh.ebits + sh.mbits) % 2 = 1)
  let e := c / 2 ^ sh.mbits % 2 ^ sh.ebits
  let m := c % 2 ^ sh.mbits
  let top := 2 ^ sh.ebits - 1
  if f = .e4m3 ∧ e = top ∧ m = 7 then .nan
  else if f ≠ .e4m3 ∧ e = top then (if m = 0 then .inf neg else .nan)
  else if e = 0 then .fin neg m (1 - (sh.bias : Int) - sh.mbits)
  else .fin neg (2 ^ sh.mbits + m) ((e : Int) - sh.bias - sh.mbits)

/-- Exact decode of a code (R79, step 1). -/
def decode (f : NumFmt) (c : Nat) : Num :=
  match f with
  | .int4 => .ofInt (signedOf 4 (c % 16))
  | .int8 => .ofInt (signedOf 8 (c % 256))
  | .int32 => if c % 2 ^ 32 = 2 ^ 31 then .nan else .ofInt (signedOf 32 (c % 2 ^ 32))
  | .uint4 => .fin false (c % 16) 0
  | .uint8 => .fin false (c % 256) 0
  | .lf4 =>
    if c % 16 = 15 then .nan else .fin (decide (8 ≤ c % 16)) (lorfa4Units (c % 8)) (-18)
  | .lf8 =>
    if c % 256 = 255 then .nan else .fin (decide (128 ≤ c % 256)) (lorfa8Units (c % 128)) (-18)
  | f => decodeFloat f (c % 2 ^ f.width)

/-- A signalling NaN of a strict operand: the top significand bit is clear (R86, R116). -/
def isSignalling (f : NumFmt) (c : Nat) : Bool :=
  f.isStrict && decide (decode f c = .nan) && decide (c / 2 ^ (f.shape.mbits - 1) % 2 = 0)

/-- The one NaN code the device writes in each format (R66, R84); integers give their most negative code (R83). -/
def canonNaN : NumFmt → Nat
  | .int4 => 0x8 | .int8 => 0x80 | .int32 => 0x80000000
  | .uint4 => 0 | .uint8 => 0
  | .e4m3 => 0x7F | .e5m2 => 0x7E | .lf4 => 0xF | .lf8 => 0xFF
  | .bf16 => 0x7FC0 | .fp16 => 0x7E00 | .fp32 => 0x7FC00000

/-- The class of a code (R78). -/
inductive CodeClass where
  | zero | subnormal | normal | infinite | nan
deriving DecidableEq, Repr

/-- The class of a code under R78. -/
def classOf (f : NumFmt) (c : Nat) : CodeClass :=
  match decode f c with
  | .nan => .nan
  | .inf _ => .infinite
  | .fin _ m _ =>
    if m = 0 then .zero
    else match f with
      | .e4m3 | .e5m2 | .bf16 | .fp16 | .fp32 =>
        if c / 2 ^ f.shape.mbits % 2 ^ f.shape.ebits = 0 then .subnormal else .normal
      | _ => .normal

/-- `n = round(m * 2^e / 2^u)` under the rounding option, with whether anything was discarded. -/
def roundAt (m : Nat) (e u : Int) (rnd : Rounding) : Nat × Bool :=
  if u ≤ e then (m * 2 ^ (e - u).toNat, false)
  else
    let d := 2 ^ (u - e).toNat
    let n := m / d
    let rem := m % d
    let up : Bool := match rnd with
      | .rne => decide (d < 2 * rem ∨ (2 * rem = d ∧ n % 2 = 1))
      | .rtz => false
    (if up then n + 1 else n, decide (rem ≠ 0))

/-- An encoded element: its code, whether it overflows in the sense of R80, and whether the value was changed. -/
structure Encoded where
  code : Nat
  overflow : Bool
  inexact : Bool
deriving DecidableEq, Repr

/-- Largest finite magnitude code of a floating-point format, without sign (R66). -/
def maxFinite : NumFmt → Nat
  | .e4m3 => 0x7E | .e5m2 => 0x7B | .bf16 => 0x7F7F | .fp16 => 0x7BFF | _ => 0x7F7FFFFF

/-- Code of infinity without sign, where the format has one (R66). -/
def infCode : NumFmt → Nat
  | .e5m2 => 0x7C | .bf16 => 0x7F80 | .fp16 => 0x7C00 | _ => 0x7F800000

/-- The magnitude code of `n * 2^u` on the grid of the format, where `u` is the unit in the last place. -/
def packMagnitude (f : NumFmt) (n : Nat) (u : Int) : Nat :=
  let sh := f.shape
  let hid := 2 ^ sh.mbits
  let umin : Int := 1 - (sh.bias : Int) - sh.mbits
  if n < hid then n
  else ((u - umin).toNat + 1) * hid + (n - hid)

/-- R81: encoding of a finite non-zero magnitude. A code above `maxFinite` stands for a magnitude beyond MAXV: the
codes of a format rise with the magnitude, so the comparison of codes is the comparison of values. -/
def encodeFloat (f : NumFmt) (rnd : Rounding) (ovf : Overflow) (strict : Bool) (x : Num) : Encoded :=
  let sh := f.shape
  let sbit : Bool → Nat := fun s => if s then 2 ^ (sh.ebits + sh.mbits) else 0
  match x with
  | .nan => ⟨canonNaN f, false, false⟩
  | .inf s =>
    if f.hasInf then ⟨sbit s + infCode f, false, false⟩
    else match ovf with
      | .special => ⟨canonNaN f, true, false⟩
      | .sat => ⟨sbit s + maxFinite f, true, false⟩
  | .fin s m e =>
    let zeroCode := if strict then sbit s else 0
    if m = 0 then ⟨zeroCode, false, false⟩
    else
      let umin : Int := 1 - (sh.bias : Int) - sh.mbits
      let u := max ((Nat.log2 m : Int) + e - sh.mbits) umin
      let (n, inex) := roundAt m e u rnd
      if n = 0 then ⟨zeroCode, false, inex⟩
      else
        let c := packMagnitude f n u
        if maxFinite f < c then
          match rnd, ovf with
          | .rtz, _ => ⟨sbit s + maxFinite f, true, true⟩
          | .rne, .special =>
            if f.hasInf then ⟨sbit s + infCode f, true, true⟩ else ⟨canonNaN f, true, true⟩
          | .rne, .sat => ⟨sbit s + maxFinite f, true, true⟩
        else ⟨sbit s + c, false, inex⟩

/-- Units of the Lorfa code `k` of the format. -/
def lorfaUnits (f : NumFmt) (k : Nat) : Nat :=
  if f = .lf8 then lorfa8Units k else lorfa4Units k

/-- `a = m * 2^e` against `v` units of 2^-19: less-or-equal comparison `v <= a`. -/
def unitsLe (v m : Nat) (e : Int) : Bool :=
  let d := e + 19
  if 0 ≤ d then decide (v ≤ m * 2 ^ d.toNat) else decide (v * 2 ^ (-d).toNat ≤ m)

/-- Equality of `v` units of 2^-19 with `m * 2^e`. -/
def unitsEq (v m : Nat) (e : Int) : Bool :=
  let d := e + 19
  if 0 ≤ d then decide (v = m * 2 ^ d.toNat) else decide (v * 2 ^ (-d).toNat = m)

/-- R82: encoding into LF8 and LF4, by nearest value. -/
def encodeLorfa (f : NumFmt) (rnd : Rounding) (ovf : Overflow) (x : Num) : Encoded :=
  let w := if f = .lf8 then 7 else 3
  let nan := 2 ^ (w + 1) - 1
  match x with
  | .nan => ⟨nan, false, false⟩
  | .inf s =>
    let top := 2 ^ w - 1 - (if s then 1 else 0)
    ⟨if ovf = .special then nan else (if s then 2 ^ w else 0) + top, true, false⟩
  | .fin s m e =>
    if m = 0 then ⟨0, false, false⟩
    else
      let top := 2 ^ w - 1 - (if s then 1 else 0)
      let below := (List.range (top + 2)).foldl
        (fun c k => if unitsLe (2 * lorfaUnits f k) m e then k else c) 0
      let mid := lorfaUnits f below + lorfaUnits f (below + 1)
      let up : Bool := decide (rnd = .rne) && decide (below ≤ top) && unitsLe mid m e
        && (!(unitsEq mid m e) || decide (below % 2 = 1))
      let c := if up then below + 1 else below
      let inex := !(unitsEq (2 * lorfaUnits f below) m e)
      if top < c then
        if rnd = .rne ∧ ovf = .special then ⟨nan, true, true⟩
        else ⟨(if s then 2 ^ w else 0) + top, true, true⟩
      else if c = 0 then ⟨0, false, inex⟩
      else ⟨(if s then 2 ^ w else 0) + c, false, inex⟩

/-- Numeric range of an integer output (R83). -/
def intRange : NumFmt → Int × Int
  | .int4 => (-8, 7)
  | .int8 => (-128, 127)
  | .int32 => (-(2 ^ 31 - 1), 2 ^ 31 - 1)
  | .uint4 => (0, 15)
  | _ => (0, 255)

/-- The low bits of an integer as a code of the format. -/
def intCode (f : NumFmt) (i : Int) : Nat := (i % (2 ^ f.width : Int)).toNat

/-- R83: encoding into the integer formats. -/
def encodeInt (f : NumFmt) (rnd : Rounding) (ovf : Overflow) (x : Num) : Encoded :=
  let (lo, hi) := intRange f
  match x with
  | .nan => ⟨canonNaN f, false, false⟩
  | .inf s =>
    if f = .int32 ∧ ovf = .special then ⟨canonNaN f, true, false⟩
    else ⟨intCode f (if s then lo else hi), true, false⟩
  | .fin s m e =>
    let (n, inex) := roundAt m e 0 rnd
    let i : Int := if s then -(n : Int) else n
    if i < lo ∨ hi < i then
      if f = .int32 ∧ ovf = .special ∧ rnd = .rne then ⟨canonNaN f, true, true⟩
      else ⟨intCode f (if i < lo then lo else hi), true, true⟩
    else ⟨intCode f i, false, inex⟩

/-- The encoder of every conversion (R79, step 3). -/
def encode (f : NumFmt) (rnd : Rounding) (ovf : Overflow) (strict : Bool) (x : Num) : Encoded :=
  match f with
  | .int4 | .int8 | .int32 | .uint4 | .uint8 => encodeInt f rnd ovf x
  | .lf4 | .lf8 => encodeLorfa f rnd ovf x
  | f => encodeFloat f rnd ovf strict x

/-- Multiplication of a finite value by 2^k (R79, step 2). -/
def Num.scale (x : Num) (k : Int) : Num :=
  match x with
  | .fin s m e => .fin s m (e + k)
  | x => x

/-- `rne32` of R108: the FP32 code under RNE, SPECIAL, STRICT clear. -/
def rne32 (x : Num) : Nat := (encodeFloat .fp32 .rne .special false x).code

/-- A conversion's options: a descriptor's fields (R87) or an instruction's. -/
structure ConvOpts where
  src : NumFmt
  dst : NumFmt
  rnd : Rounding
  ovf : Overflow
  strict : Bool
  scale : Int
deriving DecidableEq, Repr

/-- The sticky flags of R133, bits 4 to 0. -/
structure IeeeFlags where
  invalid : Bool := false
  divZero : Bool := false
  overflow : Bool := false
  underflow : Bool := false
  inexact : Bool := false
deriving DecidableEq, Repr

/-- Union of flag sets. -/
def IeeeFlags.or (a b : IeeeFlags) : IeeeFlags :=
  ⟨a.invalid || b.invalid, a.divZero || b.divZero, a.overflow || b.overflow, a.underflow || b.underflow,
    a.inexact || b.inexact⟩

/-- The flags as bits 4 to 0 of the tile status register (R133). -/
def IeeeFlags.toNat (a : IeeeFlags) : Nat :=
  a.invalid.toNat * 16 + a.divZero.toNat * 8 + a.overflow.toNat * 4 + a.underflow.toNat * 2 + a.inexact.toNat

/-- The flags held in bits 4 to 0 of a number. -/
def IeeeFlags.ofNat (n : Nat) : IeeeFlags :=
  ⟨n.testBit 4, n.testBit 3, n.testBit 2, n.testBit 1, n.testBit 0⟩

/-- Tininess after rounding: the value rounded to the significand width with no lower bound on the exponent lies below
the smallest normal number (R86, R116). -/
def tinyAfterRounding (f : NumFmt) (rnd : Rounding) (x : Num) : Bool :=
  match x with
  | .fin _ m e =>
    let sh := f.shape
    if m = 0 then false
    else
      let u := (Nat.log2 m : Int) + e - sh.mbits
      let (n, _) := roundAt m e u rnd
      -- n * 2^u < 2^(1 - bias)
      let d := u - (1 - (sh.bias : Int))
      if 0 ≤ d then false else decide (n < 2 ^ (-d).toNat)
  | _ => false

/-- A strict rounding to a format with its flags: R86 and R116 (finite overflow gives an infinity under RNE). -/
def strictEncode (f : NumFmt) (rnd : Rounding) (x : Num) : Nat × IeeeFlags :=
  let r := encodeFloat f rnd .special true x
  (r.code, { overflow := r.overflow, inexact := r.inexact,
             underflow := r.inexact && tinyAfterRounding f rnd x })

/-- One element's conversion (R79 to R86): code, overflow in the sense of R80, flags of a strict conversion. -/
def convertCode (o : ConvOpts) (c : Nat) : Encoded × IeeeFlags :=
  let x := (decode o.src c).scale o.scale
  if o.strict then
    let r := encodeFloat o.dst o.rnd .special true x
    (r, { invalid := isSignalling o.src c, overflow := r.overflow, inexact := r.inexact,
          underflow := r.inexact && tinyAfterRounding o.dst o.rnd x })
  else (encode o.dst o.rnd o.ovf false x, {})

/-- The combinations R89 refuses with BAD_VALUE, for a source, a destination and the options. -/
def convRefused (src dst : NumFmt) (ovf : Overflow) (strict : Bool) : Bool :=
  src.isExpansionOnly || dst.isExpansionOnly
  || (decide (ovf = .special) && (decide (dst = .int4) || decide (dst = .int8)))
  || (strict && (!src.isStrict || !dst.isStrict || decide (ovf = .special)))

end Sys2Proof.Machine
end

