-- ==== Sys2Proof/Machine/Arith.lean ====
section
/-! DEFINITION. Exact arithmetic and the rounded operations of the tile: products (R93, R106, R112 to R114), the folds
(R107, R108), drains (R110), strict operations (R115, R116), lane arithmetic (R174), the functions of R175, comparison
and ranking (R140, R177). -/

namespace Sys2Proof.Machine

/-- Exact sum of two finite values. A zero sum of unlike signs is +0, as under round to nearest (IEEE 754-2019). -/
def addFinite (s1 : Bool) (m1 : Nat) (e1 : Int) (s2 : Bool) (m2 : Nat) (e2 : Int) : Num :=
  let e := min e1 e2
  let a1 : Int := (m1 * 2 ^ (e1 - e).toNat : Nat)
  let a2 : Int := (m2 * 2 ^ (e2 - e).toNat : Nat)
  let t := (if s1 then -a1 else a1) + (if s2 then -a2 else a2)
  if t = 0 then .fin (s1 && s2) 0 0 else .fin (decide (t < 0)) t.natAbs e

/-- Addition with infinities and NaN under IEEE 754-2019 (R108, R174). -/
def Num.add (x y : Num) : Num :=
  match x, y with
  | .nan, _ => .nan
  | _, .nan => .nan
  | .inf s, .inf t => if s = t then .inf s else .nan
  | .inf s, .fin _ _ _ => .inf s
  | .fin _ _ _, .inf t => .inf t
  | .fin s1 m1 e1, .fin s2 m2 e2 => addFinite s1 m1 e1 s2 m2 e2

/-- Multiplication with infinities and NaN under IEEE 754-2019 and R106. -/
def Num.mul (x y : Num) : Num :=
  match x, y with
  | .nan, _ => .nan
  | _, .nan => .nan
  | .inf s, .inf t => .inf (s != t)
  | .inf s, .fin t m _ => if m = 0 then .nan else .inf (s != t)
  | .fin s m _, .inf t => if m = 0 then .nan else .inf (s != t)
  | .fin s1 m1 e1, .fin s2 m2 e2 => .fin (s1 != s2) (m1 * m2) (e1 + e2)

/-- Change of sign. -/
def Num.neg (x : Num) : Num :=
  match x with
  | .nan => .nan
  | .inf s => .inf (!s)
  | .fin s m e => .fin (!s) m e

/-- Order of two values that are not NaN, with -0 equal to +0: `some` of less, equal or greater; `none` for NaN. -/
def Num.cmp (x y : Num) : Option Ordering :=
  match x, y with
  | .nan, _ => none
  | _, .nan => none
  | .inf s, .inf t => some (if s = t then .eq else if s then .lt else .gt)
  | .inf s, .fin _ _ _ => some (if s then .lt else .gt)
  | .fin _ _ _, .inf t => some (if t then .gt else .lt)
  | .fin s1 m1 e1, .fin s2 m2 e2 =>
    match addFinite s1 m1 e1 (!s2) m2 e2 with
    | .fin s m _ => some (if m = 0 then .eq else if s then .lt else .gt)
    | _ => none

/-- FP32 decode of a 32-bit code. -/
def dec32 (c : Nat) : Num := decode .fp32 c

/-- The canonical FP32 NaN (R66). -/
def nan32 : Nat := 0x7FC00000

/-- R107: one integer fold step; `p` is the exact product. -/
def foldInt (acc : Nat) (p : Int) : Nat :=
  if acc % 2 ^ 32 = 2 ^ 31 then 2 ^ 31
  else
    let t := signedOf 32 (acc % 2 ^ 32) + p
    if 2 ^ 31 - 1 < t.natAbs then 2 ^ 31 else intCode .int32 t

/-- R108: one floating-point fold step on the codes of acc and comp. -/
def foldFp (acc comp : Nat) (p : Num) : Nat × Nat :=
  match dec32 acc, dec32 comp, p with
  | .nan, _, _ => (nan32, 0)
  | _, .nan, _ => (nan32, 0)
  | _, _, .nan => (nan32, 0)
  | .inf s, _, .inf t => if s = t then (rne32 (.inf s), 0) else (nan32, 0)
  | .inf s, _, .fin _ _ _ => (rne32 (.inf s), 0)
  | .fin _ _ _, _, .inf t => (rne32 (.inf t), 0)
  | .fin s m e, c, .fin s2 m2 e2 =>
    let t := addFinite s m e s2 m2 e2
    let r := rne32 t
    match dec32 r with
    | .fin rs rm re => (r, rne32 (c.add (t.add (.fin (!rs) rm re))))
    | _ => (r, 0)

/-- R108: the drain value of a floating-point cell. -/
def drainFp (acc comp : Nat) : Nat := rne32 ((dec32 acc).add (dec32 comp))

/-- R93: the product of two LF8 codes in code space. -/
def lorfaProduct (a b : Nat) : Num :=
  if a % 256 = 255 ∨ b % 256 = 255 then .nan
  else
    let la := a % 128
    let lb := b % 128
    if la = 0 ∨ lb = 0 then .fin false 0 0
    else
      let s := decide (a / 128 % 2 ≠ b / 128 % 2)
      -- L - 64 = la + lb - 128; its quotient and remainder by 8
      let d : Int := (la : Int) + lb - 128
      .fin s (lorfaT (d % 8).toNat) (d / 8 - 10)

/-- R77: the LF8 code of an LF4 code. -/
def lf4ToLf8 (c : Nat) : Nat :=
  if c % 16 = 15 then 255
  else if c % 8 = 0 then 0
  else (c / 8 % 2) * 128 + (32 + 8 * (c % 8))

/-- R112: the three parts of a finite FP32 code. -/
def splitFp32 (c : Nat) : Num × Num × Num :=
  match dec32 c with
  | .fin s m q => (.fin s (m / 65536) (q + 16), .fin s (m / 256 % 256) (q + 8), .fin s (m % 256) q)
  | x => (x, x, x)

/-- R113, R114: the ordered fold steps of one K step of FP32 operands. -/
def fp32Steps (passes a b : Nat) : List Num :=
  match dec32 a, dec32 b with
  | .fin _ _ _, .fin _ _ _ =>
    let (ah, am, al) := splitFp32 a
    let (bh, bm, bl) := splitFp32 b
    match passes with
    | 1 => [ah.mul bh]
    | 2 => [ah.mul bm, am.mul bh, ah.mul bh]
    | _ => [ah.mul bl, am.mul bm, al.mul bh, ah.mul bm, am.mul bh, ah.mul bh]
  | x, y => [x.mul y]

/-- Rounded strict binary32 result of an exact value with its flags; a NaN result is 0x7FC0_0000 (R115, R116). -/
def strict32 (x : Num) : Nat × IeeeFlags :=
  match x with
  | .nan => (nan32, {})
  | x => strictEncode .fp32 .rne x

/-- Addition of opposite infinities is invalid (R116). -/
def oppositeInf (x y : Num) : Bool :=
  match x, y with
  | .inf s, .inf t => s != t
  | _, _ => false

/-- Infinity times zero is invalid, whatever the addend (R116). -/
def infTimesZero (x y : Num) : Bool :=
  match x, y with
  | .inf _, .fin _ m _ => decide (m = 0)
  | .fin _ m _, .inf _ => decide (m = 0)
  | _, _ => false

/-- Strict addition of two FP32 codes (R174 with S = 1, R143 step 4). -/
def strictAdd (a b : Nat) : Nat × IeeeFlags :=
  let x := dec32 a
  let y := dec32 b
  let (r, f) := strict32 (x.add y)
  (r, { f with invalid := oppositeInf x y || isSignalling .fp32 a || isSignalling .fp32 b })

/-- Strict multiplication of two FP32 codes (R174 with S = 1, R143 step 3). -/
def strictMul (a b : Nat) : Nat × IeeeFlags :=
  let x := dec32 a
  let y := dec32 b
  let (r, f) := strict32 (x.mul y)
  (r, { f with invalid := infTimesZero x y || isSignalling .fp32 a || isSignalling .fp32 b })

/-- Strict fused multiply-add `a * b + c` of exact operands with their signalling marks (R115, R116). -/
def strictFmaNum (x y z : Num) (snan : Bool) : Nat × IeeeFlags :=
  let p := x.mul y
  let (r, f) := strict32 (p.add z)
  (r, { f with invalid := infTimesZero x y || oppositeInf p z || snan })

/-- Strict fused multiply-add of FP32 codes (R174 with S = 1). -/
def strictFma (a b c : Nat) : Nat × IeeeFlags :=
  strictFmaNum (dec32 a) (dec32 b) (dec32 c)
    (isSignalling .fp32 a || isSignalling .fp32 b || isSignalling .fp32 c)

/-- The FP32 code of a value that is rounded once outside strict operation (R174). -/
def round32 (x : Num) : Nat := rne32 x

/-- R174: the greater of two FP32 codes; NaN if either is NaN; -0 equals +0 and a zero result is +0. -/
def fpMax (a b : Nat) : Nat :=
  match (dec32 a).cmp (dec32 b) with
  | none => nan32
  | some .lt => rne32 (dec32 b)
  | some _ => rne32 (dec32 a)

/-- R174: the lesser of two FP32 codes. -/
def fpMin (a b : Nat) : Nat :=
  match (dec32 a).cmp (dec32 b) with
  | none => nan32
  | some .gt => rne32 (dec32 b)
  | some _ => rne32 (dec32 a)

/-- Integer square root by bits, from bit `k` down. -/
def isqrtBits (n : Nat) : Nat → Nat → Nat
  | 0, r => r
  | k + 1, r =>
    let c := r + 2 ^ k
    isqrtBits n k (if c * c ≤ n then c else r)

/-- Floor of the square root. -/
def isqrt (n : Nat) : Nat := isqrtBits n (Nat.log2 n / 2 + 1) 0

/-- R175: 1/a, correctly rounded. The quotient carries 64 bits and a sticky bit, so the one rounding is exact. Overflow gives
plus infinity, for a negative subnormal too (log entry 82). -/
def fpRcp (a : Nat) : Nat :=
  match dec32 a with
  | .nan => nan32
  | .inf _ => 0
  | .fin s m e =>
    if m = 0 then infCode .fp32
    else
      let k := Nat.log2 m + 64
      let q := 2 ^ k / m
      let st := if 2 ^ k % m = 0 then 0 else 1
      let r := rne32 (.fin s (2 * q + st) (-(k : Int) - 1 - e))
      if r = 0xFF800000 then infCode .fp32 else r

/-- R175: 1/sqrt a, correctly rounded, by an integer square root with a sticky bit. -/
def fpRsqrt (a : Nat) : Nat :=
  match dec32 a with
  | .nan => nan32
  | .inf s => if s then nan32 else 0
  | .fin s m e =>
    if m = 0 then infCode .fp32
    else if s then nan32
    else
      -- a = m' * 2^(2h) with h whole
      let m' := if e % 2 = 0 then m else 2 * m
      let h := e / 2
      let k := Nat.log2 m' + 64
      let q := isqrt (2 ^ (2 * k) / m')
      let st := if q * q * m' = 2 ^ (2 * k) then 0 else 1
      rne32 (.fin false (2 * q + st) (-(k : Int) - 1 - h))

/-- `floor(2^(2^-i) * 2^160)` for i = 1 to 10. -/
def exp2Roots0 : List Nat :=
  [0x16a09e667f3bcc908b2fb1366ea957d3e3adec175,
   0x1306fe0a31b7152de8d5a46305c85edecbc273436,
   0x1172b83c7d517adcdf7c8c50eb14a792035509ff7,
   0x10b5586cf9890f6298b92b71842a98364291408b3,
   0x1059b0d31585743ae7c548eb68ca417fe53e3495f,
   0x102c9a3e778060ee6f7caca4f7a29bde93d70a2ca,
   0x10163da9fb33356d84a66ae336dcdfa4003ec04c3,
   0x100b1afa5abcbed6129ab13ec11dc954455b8187f,
   0x10058c86da1c09ea1ff19d294cf2f679c68bf05eb,
   0x1002c605e2e8cec506d21bfc89a23a010806c0a42]

/-- `floor(2^(2^-i) * 2^160)` for i = 11 to 20. -/
def exp2Roots1 : List Nat :=
  [0x100162f3904051fa128bca9c55c31e5e06ddd3115,
   0x1000b175effdc76ba38e31671ca939726694630e2,
   0x100058ba01fb9f96d6cacd4b180917c3e43a86f9e,
   0x10002c5cc37da9491d0985c348c68e7b3d505d939,
   0x1000162e525ee054754457d5995292026d9d47870,
   0x10000b17255775c040618bf4a4ade83fca8f8cfdf,
   0x1000058b91b5bc9ae2eed81e9b7d4cfac1b1b76fb,
   0x100002c5c89d5ec6ca4d7c8acc017b7c9d9cdf6f6,
   0x10000162e43f4f831060e02d839a9d16d6fb332d9,
   0x100000b1721bcfc99d9f890ea069117637d190cb3]

/-- `floor(2^(2^-i) * 2^160)` for i = 21 to 30. -/
def exp2Roots2 : List Nat :=
  [0x10000058b90cf1e6d97f9ca14dbcc16289fa75ffd,
   0x1000002c5c863b73f016468f6bac5ca2c11f6d72b,
   0x100000162e430e5a18f6119e3c02282a5f70f2c46,
   0x1000000b1721835514b86e6d96efd1bff6819e466,
   0x100000058b90c0b48c6be5df846c5b2f02c95a3bb,
   0x10000002c5c8601cc6b9e94213c72737abfef0e9c,
   0x1000000162e42fff037df38aa2b219f06baa53c7e,
   0x10000000b17217fba9c739aa5819f44f9c7fa9ee4,
   0x1000000058b90bfcdee5acd3c1cedc823b10657b2,
   0x100000002c5c85fe31f35a6a30da1be50fd0f47f5]

/-- `floor(2^(2^-i) * 2^160)` for i = 31 to 40. -/
def exp2Roots3 : List Nat :=
  [0x10000000162e42ff0999ce3541b9fffcfba83c5e1,
   0x100000000b17217f80f4ef5aadda4555466e70cc0,
   0x10000000058b90bfbf8479bd5a81b51ada9f644de,
   0x1000000002c5c85fdf84bd62ae30a74ccbceb4b8e,
   0x100000000162e42fefb2fed257559bdaa79b863ee,
   0x1000000000b17217f7d5a7716bba4a9af17d58448,
   0x100000000058b90bfbe9ddbac5e109ccf1d2e27d5,
   0x10000000002c5c85fdf4b15de6f17eb0d96388f47,
   0x1000000000162e42fefa494f1478fde05516ebab5,
   0x10000000000b17217f7d20cf927c8e94cead93ca6]

/-- `floor(2^(2^-i) * 2^160)` for i = 41 to 50. -/
def exp2Roots4 : List Nat :=
  [0x1000000000058b90bfbe8f71cb4e4b33e5a06be76,
   0x100000000002c5c85fdf477b662b26945d0ac1c4e,
   0x10000000000162e42fefa3ae53369388ca690840d,
   0x100000000000b17217f7d1d351a389d40c580e854,
   0x10000000000058b90bfbe8e8b2d3d4edeffa3ded8,
   0x1000000000002c5c85fdf4741bea6e77f2715723a,
   0x100000000000162e42fefa39fe95583c37d5ceed5,
   0x1000000000000b17217f7d1cfb72b45e2b9232f79,
   0x100000000000058b90bfbe8e7cc35c3f19b2ecb14,
   0x10000000000002c5c85fdf473e242ea38dd3eb30a]

/-- Product of the roots whose bit of the 50-bit fraction is set, in units of 2^-160. -/
def exp2Product (frac : Nat) : List Nat → Nat → Nat → Nat
  | [], _, acc => acc
  | r :: rs, i, acc => exp2Product frac rs (i - 1) (if frac.testBit (i - 1) then acc * r / 2 ^ 160 else acc)

/-- R175: 2^a, rounded once. For `2^-26 <= |a|` the fraction of `a` has at most 50 bits and 2^fraction is formed as a
product of the roots of two with 160 fractional bits; below that bound 2^a rounds to 1. DEDUCED (log entry 20): 160 bits
settle every rounding. -/
def fpExp2 (a : Nat) : Nat :=
  match dec32 a with
  | .nan => nan32
  | .inf s => if s then 0 else infCode .fp32
  | .fin s m e =>
    if m = 0 ∨ (Nat.log2 m : Int) + e < -26 then 0x3F800000
    else if 9 < (Nat.log2 m : Int) + e then (if s then 0 else infCode .fp32)
    else
      -- a * 2^50 as an integer
      let n : Int := ((m * 2 ^ (e + 50).toNat : Nat) : Int)
      let n := if s then -n else n
      let i := n / 2 ^ 50
      let f := (n % 2 ^ 50).toNat
      let p := exp2Product f
        (exp2Roots0 ++ exp2Roots1 ++ exp2Roots2 ++ exp2Roots3 ++ exp2Roots4) 50 (2 ^ 160)
      let st := if f = 0 then 0 else 1
      rne32 (.fin false (2 * p + st) (i - 161))

/-- R140: entry (value, position) `x` ranks above `y`. -/
def ranksAbove (x y : Nat × Nat) : Bool :=
  match dec32 x.1, dec32 y.1 with
  | .nan, .nan => decide (x.2 < y.2)
  | .nan, _ => false
  | _, .nan => true
  | a, b =>
    match a.cmp b with
    | some .gt => true
    | some .eq => decide (x.2 < y.2)
    | _ => false

/-- The empty entry of a top-k list (R140). -/
def emptyEntry : Nat × Nat := (nan32, 0xFFFFFFFF)

/-- Insertion into a list in rank order; among entries that rank alike the earlier stays first. -/
def rankInsert (x : Nat × Nat) : List (Nat × Nat) → List (Nat × Nat)
  | [] => [x]
  | y :: ys => if ranksAbove x y then x :: y :: ys else y :: rankInsert x ys

/-- The entries in rank order (R140). -/
def rankSort (l : List (Nat × Nat)) : List (Nat × Nat) := l.foldl (fun acc x => rankInsert x acc) []

/-- R140: the `k` best entries with values normalised under R84, filled to 16 with empty entries. -/
def topK (k : Nat) (l : List (Nat × Nat)) : List (Nat × Nat) :=
  let best := ((rankSort l).take k).map (fun x => (rne32 (dec32 x.1), x.2))
  best ++ List.replicate (16 - best.length) emptyEntry

/-- CRC of one byte, most significant bit first, for a width and polynomial. -/
def crcByte (w poly : Nat) (crc b : Nat) : Nat :=
  (List.range 8).foldl
    (fun c _ => let t := c * 2 % 2 ^ w
                if c.testBit (w - 1) then t ^^^ poly else t) (crc ^^^ (b * 2 ^ (w - 8)))

/-- R499: CRC-64/ECMA-182 over the bytes in order. -/
def crc64 (bs : List Nat) : Nat := bs.foldl (crcByte 64 0x42F0E1EBA9EA3693) 0

end Sys2Proof.Machine
end

