-- ==== Sys2Proof/Config.lean ====
section
/-! DEFINITION. What the spec leaves open: the free values. Nothing constrains them. Each is applied to a counter of State
that the step advances, so every use is a fresh value (log entry 6). -/

namespace Sys2Proof.Config

/-- A byte whose value the spec does not state, such as the data of a read destination that a TIMEOUT marks poisoned
(R280). -/
opaque freeByte : Nat → BitVec 8

/-- A field of any width whose value or layout the spec does not state, taken modulo its width, such as the flits that stand
in a router's queues (R518, log entry 17). -/
opaque freeNat : Nat → Nat

/-- What each part is made with and the spec gives as "per part" (R466, R475): SILICON_REV, SERIAL's length and bytes,
ROM_VERSION, MAC_ADDR. -/
opaque siliconRev : BitVec 16
opaque serialLength : Fin 25
opaque serialBytes : BitVec 192
opaque romVersion : BitVec 32
opaque macAddress : BitVec 48

end Sys2Proof.Config
end

