-- ==== Sys2Proof/Machine/State.lean ====
section
/-! DEFINITION. The state of the block as plain data, the names of its stops, and the state of a part that is held in
power-on reset. -/

namespace Sys2Proof.Machine

/-- The condition of one stored 64-bit word of ECC storage (R302): clean, holding a single-bit error, holding an
uncorrectable error not yet marked, or marked poisoned. -/
inductive WordCond where
  | clean | single | uncorrectable | marked
deriving DecidableEq, Repr

/-! ### The tile (spec/05_the_tile.md, spec/06_tile_programs.md, spec/18_counters_records_and_digests.md) -/

/-- A G register with its poison mark (R152, R599). -/
structure GReg where
  val : Word := 0
  poison : Bool := false
deriving DecidableEq, Repr

/-- A VQ register: lane l in bits [32l + 31:32l], so that byte 0 of lane 0 is the lowest; one poison bit per lane. -/
structure VReg where
  val : BitVec 1024 := 0
  poison : BitVec 32 := 0
deriving DecidableEq, Repr

/-- A mask register with one poison bit per mask bit (R599). -/
structure MReg where
  val : BitVec 32 := BitVec.allOnes 32
  poison : BitVec 32 := 0
deriving DecidableEq, Repr

/-- KIND of an accumulator (R125, R133). -/
inductive AccKind where
  | int | fp | strict
deriving DecidableEq, Repr

/-- Role of a tile (R134). -/
inductive Role where
  | m | v
deriving DecidableEq, Repr

/-- An active hardware loop (R160): body indices and the iterations left, the running one included. -/
structure LoopState where
  first : Nat
  last : Nat
  left : Nat
deriving DecidableEq, Repr

/-- An event ring of 64 slots (R494): slots since it was last emptied, entries ever written, entries dropped, entries
waiting (at most 4, R496), the cycle of the last write, and the entries on their way to the trace collector (R525). -/
structure EventRing where
  slots : Sparse (BitVec 64) := []
  /-- the ECC condition of each slot's word (R302) -/
  cond : Sparse WordCond := []
  written : Nat := 0
  dropped : Nat := 0
  waiting : List (BitVec 64) := []
  lastWrite : Option Nat := none
  /-- entries written that have not reached the Almanac collector (R525) -/
  coming : List (BitVec 64) := []
deriving DecidableEq, Repr

/-- The statistics and digest block (R501). Word 9, SUM, follows from `sumExact`. -/
structure StatsBlock where
  digest : Nat := 0
  bytes : Nat := 0
  segments : Nat := 0
  elements : Nat := 0
  nans : Nat := 0
  infs : Nat := 0
  zeros : Nat := 0
  subnormals : Nat := 0
  max : BitVec 32 := 0x7FC00000#32
  min : BitVec 32 := 0x7FC00000#32
  sumExact : BitVec 384 := 0
deriving DecidableEq, Repr

/-- An MMA issued to the array (R172): its fields, the values of its three register operands read at issue, and, once it
runs, the table or the vectors it latched at its start (R137) with their poisoned words, and the steps it has done. -/
structure MmaOp where
  seq : Nat
  f : FmtX
  a : Nat
  b : Nat
  k : Nat
  latch : List Host.Cell := []
  latchPoison : List Nat := []
  steps : Nat := 0
deriving DecidableEq, Repr

/-- A drain issued to the finishing stage (R141, R173): the latched descriptor, the KIND and EARLY of R142, and, once it
runs, the accumulator's cells and the scale vector as read, the next row and the bytes of
it already issued, requests not yet acknowledged, the bytes that
entered the digest segment and an error status of a DEST = 1 row. -/
structure DrainOp where
  seq : Nat
  acc : Bool
  w0 : Word
  w1 : Word
  w2 : Word
  w3 : Word
  kind : AccKind
  early : Bool
  index : Nat
  start : Nat := 0
  row : Nat := 0
  part : Nat := 0
  cells : List Host.Cell := []
  cellPoison : List Nat := []
  scale : List Host.Cell := []
  scalePoison : List Nat := []
  unacked : Nat := 0
  crc : Nat := 0
  segBytes : Nat := 0
  err : Option Status := none
deriving DecidableEq, Repr

/-- A piece of a transfer: `len` bytes at offset `off` of the remote bytes of row `row` (R167). -/
structure Piece where
  row : Nat
  off : Nat
  len : Nat
deriving DecidableEq, Repr

/-- A transfer instruction held by the network interface (R166 to R169). `conv` is the conversion entry's value when it
issued; `todo` are the pieces not yet issued; `out` counts pieces issued and not ended; `arrived` and `data` hold the
source bytes of a converting GET that have arrived, so that an element split over two pieces can be formed. -/
structure Transfer where
  seq : Nat
  index : Nat
  isPut : Bool
  convId : Nat
  conv : Nat
  remote : Nat
  remoteStride : Nat
  loc : Nat
  locStride : Nat
  rowBytes : Nat
  todo : List Piece
  out : Nat := 0
  arrived : List Piece := []
  data : List Host.Cell := []
  dataPoison : List Nat := []
  err : Option Status := none
deriving DecidableEq, Repr

/-- A LACE a tile has issued and whose result it awaits (R183, R184). -/
structure LaceWait where
  seq : Nat
  index : Nat
  ch : Nat
  op : Nat
  k : Nat
  dst : Nat
deriving DecidableEq, Repr

/-- A TINC waiting for the acknowledgement of earlier writes (R162): `after` is the number of the last transfer issued
before it and `drains` tells that a DEST = 1 drain was issued before it. -/
structure TincWait where
  tally : Nat
  amount : BitVec 32
  xfers : List Nat
  drains : Nat
deriving DecidableEq, Repr

/-- The tally a held TWAIT watches (R162, R256). -/
structure Watch where
  tally : Nat
  target : BitVec 32
  met : Bool
deriving DecidableEq, Repr

/-- The task a tile runs (R152, R203). -/
structure TileTask where
  queue : Nat
  slot : Nat
  taskId : BitVec 32
  vi : Nat
  part : Nat
  priority : Nat
deriving DecidableEq, Repr

/-- A program broadcast on its way to a tile (R187): the image bytes, and the next beat. -/
structure Broadcast where
  image : List Host.Cell
  len : Nat
  beat : Nat := 0
deriving DecidableEq, Repr

/-- One tile. -/
structure Tile where
  g : Sparse GReg := []
  vq : Sparse VReg := []
  m : Sparse MReg := []
  pc : Nat := 0
  loops : List LoopState := []
  /-- the stall reason of the instruction that is held, if one is (R149, R517) -/
  held : Option Nat := none
  progLen : Nat := 0
  role : Role := .m
  kind0 : AccKind := .fp
  kind1 : AccKind := .fp
  early0 : Bool := false
  early1 : Bool := false
  flags : BitVec 5 := 0
  accPoison : Sparse Bool := []
  mmaRun : Option MmaOp := none
  mmaQueue : Option MmaOp := none
  drainRun : Option DrainOp := none
  drainQueue : Option DrainOp := none
  xfers : List Transfer := []
  issueSeq : Nat := 0
  laces : List LaceWait := []
  tincs : List TincWait := []
  watch : Option Watch := none
  asyncFaults : List (Nat × Nat × Status) := []
  fault : Option (Nat × Status) := none
  task : Option TileTask := none
  ended : Bool := false
  stopped : Bool := false
  eccSeen : Bool := false
  withdrawn : Bool := false
  /-- Calends of the vector issue cycle that the key of a SUM.R last took (R227) -/
  keyAt : Option Nat := none
  bcast : Option Broadcast := none
  counters : Sparse Nat := []
  ring : EventRing := {}
  block : StatsBlock := {}
  priv : StatsBlock := {}
deriving DecidableEq, Repr

/-! ### The packet network (spec/09_the_packet_network.md, spec/10_network_faults_wake_and_statistics.md) -/

/-- Why an initiator sent a request: what its response completes. -/
inductive Purpose where
  /-- a piece of a tile's transfer (R167) -/
  | piece (seq : Nat) (p : Piece)
  /-- a row of a DEST = 1 drain (R144) -/
  | drainRow (seq : Nat)
  /-- a read of a copy descriptor: engine queue, descriptor number, source position, length, issue number (R318, R319) -/
  | copyRead (queue id off len issue : Nat)
  /-- a write of a copy descriptor: engine queue, descriptor number, length, issue number (R318, R319) -/
  | copyWrite (queue id len issue : Nat)
  /-- a request re-issued by a far proxy under a link tag (R425) -/
  | far (linkTag : Nat)
  /-- a BAR4 or other host access carried by the PCIe/CXL port (R400) -/
  | host (id : Nat)
  /-- any other request -/
  | other
deriving DecidableEq, Repr

/-- An outstanding request of an initiator (R262, R264, R279): the packet, its purpose, whether it has left (a request
to a tile first waits for its SLOT_GRANT), when its timer started and with which limit. -/
structure Req where
  tag : Nat
  pkt : Packet
  purpose : Purpose
  sent : Bool
  start : Nat
  limit : Nat
deriving DecidableEq, Repr

/-- An initiator: outstanding requests, held slots (target and tag, R280), requests
that wait for a slot or for reply room, the statistics record of R297. -/
structure Initiator where
  out : List Req := []
  held : List (Nat × Nat) := []
  waiting : List (Packet × Purpose) := []
  stats : Sparse Nat := []
deriving DecidableEq, Repr

/-- How far an intake entry has come (R263, R265, R309). -/
inductive EntryPhase where
  /-- not yet taken -/
  | waiting
  /-- PULL sent, PULL_DATA awaited -/
  | pulling
  /-- PULL_DATA has arrived and is to be written -/
  | pulled
  /-- taken into service by an HBM port -/
  | inService
deriving DecidableEq, Repr

/-- An intake entry (R261, R263). -/
structure IntakeEntry where
  pkt : Packet
  arrival : Nat
  aged : Option Nat := none
  phase : EntryPhase := .waiting
  /-- it came by the mesh port of its slice, by which its response leaves (R300) -/
  mesh : Bool := false
deriving DecidableEq, Repr

/-- A SLOT_ASK that a tile has recorded (R264): slot index, tag, and what the SLOT_GRANT echoes. -/
structure SlotAsk where
  idx : Nat
  tag : Nat
  vi : Nat := 0
  part : Nat := 0
  priority : Nat := 0
deriving DecidableEq, Repr

/-- A target: its intake, the pull-buffer bytes in use (R265), its isolation shim with the map of one bit and one tag
per slot index (R288 to R290), the notes it still has to send, the cycle since which it has held entries without
serving one, and, for a tile, the asks, the last grant and the entries lent (R264). -/
structure Target where
  intake : List IntakeEntry := []
  pullUsed : Nat := 0
  shim : Bool := false
  shimMap : Sparse (Option Nat) := []
  notes : List (Nat × Nat) := []
  stallSince : Option Nat := none
  asks : List SlotAsk := []
  lastGrant : Option Nat := none
  lent : List (Nat × Nat) := []
deriving DecidableEq, Repr

/-- The leg of a packet in a mesh: on its way out of the source cluster, within one mesh, or in from a gate (R254, R259). -/
inductive Leg where
  | out | near | inward
deriving DecidableEq, Repr

/-- The input of a router or switch at which a packet stands (R245, R247). -/
inductive InPort where
  /-- from the node that sent it: a tile's NI at its router, a slice at its mesh port, a node at its switch -/
  | node (n : Nat)
  /-- over a mesh or express link, named by the port code by which it left the router before -/
  | mesh (code : Nat)
  /-- at a switch, out of a gate: edge (0 west, 1 east) and row; at a router, in through its gate -/
  | gate (edge row : Nat)
  /-- over a horizontal or vertical link, from a switch -/
  | link (b : Nat)
  /-- over the Welt: direction (0 west to east, 1 east to west) and physical lane -/
  | welt (dir lane : Nat)
  /-- out of the porch of a domain (R293) -/
  | porch (d : Nat)
deriving DecidableEq, Repr

/-- Where a packet in flight stands (R253, R254, R257): at an input of a mesh router or of a backbone switch, or at the node
it was delivered to, by a slice's mesh port or not (R300). -/
inductive Place where
  | router (c y x : Nat) (leg : Leg) (inp : InPort)
  | switch (b : Nat) (inp : InPort)
  | node (n : Nat) (mesh : Bool)
deriving DecidableEq, Repr

/-- A packet in flight. -/
structure Flight where
  place : Place
  pkt : Packet
deriving DecidableEq, Repr

/-- A porch (R292, R293): packets in order of arrival, whether its WAKE_REQ of this wake was sent, when the first packet
entered, whether it answers as a shim after WAKE_FAIL (R294). -/
structure Porch where
  /-- each packet, and whether it has come by the mesh port of its slice (R300) -/
  packets : List (Packet × Bool) := []
  wakeSent : Bool := false
  since : Nat := 0
  failed : Bool := false
deriving DecidableEq, Repr

/-- A link: receiving router (cluster, row, column) and the port code by which the packet left the sender (R245). The gate
link out of router (c, y, x) is (c, y, x, 6), the one into a mesh (8 + c, row, edge, 6), and the backbone link from switch b
to switch d (16 + d, b, 0, 0). -/
structure LinkId where
  c : Nat
  y : Nat
  x : Nat
  port : Nat
deriving DecidableEq, Repr

/-- The packet network. -/
structure Net where
  flights : List Flight := []
  /-- Welt lanes in use: direction, physical lane, the first cycle in which it is free again (R248) -/
  weltBusy : List (Nat × Nat × Nat) := []
  /-- what each output of a router or switch served last: virtual channel, and input number for VC1 to VC3 (R257) -/
  served : Sparse (Nat × Nat × Nat × Nat) := []
  initiators : Sparse Initiator := []
  targets : Sparse Target := []
  porches : Sparse Porch := []
  /-- links declared failed (R295) -/
  failedLinks : List LinkId := []
  /-- failed links whose new route tables are not loaded yet (R295) -/
  pendingRoutes : List LinkId := []
  /-- uncorrectable words seen on links, with their cycles (R295) -/
  linkWords : List (LinkId × Nat) := []
  /-- NET_ERRORS: word w of cluster c at 6c + w, of the backbone at 48 + w (R298) -/
  errors : Sparse Nat := []
  /-- WELT_CORR and WELT_UNCORR counts: array a, lane l at 264a + l (R287, R298) -/
  weltCounts : Sparse Nat := []
  /-- lanes entered in the lane test's failure list: direction (0 W to E, 1 E to W) and physical lane (R287) -/
  weltFailing : List (Nat × Nat) := []
  /-- TIMEOUT reports: target and cycle (R288) -/
  reports : List (Nat × Nat) := []
  /-- nodes declared dead, with the trigger of R288 -/
  isolated : List (Nat × Nat) := []
  /-- packets discarded at shims (R289) -/
  shimDiscards : Nat := 0
  /-- PORCH_WAKES, PORCH_PEAK, WAKE_FAILS: array a, domain d at 20a + d (R298) -/
  porchCounts : Sparse Nat := []
deriving DecidableEq, Repr

/-! ### Cluster sequencers and the Lacing tree (spec/07_cluster_sequencer_and_tasks.md, spec/08_the_lacing_tree.md) -/

/-- A watch on a tally (R196, R256): the tile that asked, the tag of its TALLY_WATCH, the tally and its target, and the VI of
the task, which the TALLY_MET carries (R358). -/
structure TallyWatch where
  tile : Nat
  tag : Nat
  tally : Nat
  target : Nat
  vi : Nat := 0
deriving DecidableEq, Repr

/-- The name of an accepted command: VI, ring and sequence number (ring index) of its entry (R209, R210). -/
structure CmdKey where
  vi : Nat
  ring : Nat
  seq : Nat
deriving DecidableEq, Repr

/-- The states of a task that holds a slot (R199); a task that ends leaves its slot. -/
inductive TaskPhase where
  | pending | ready | dispatched
deriving DecidableEq, Repr

/-- A task in a queue slot (R192, R193): the 256 bytes of its descriptor as a little-endian number, its RUN, its position
in the task list, when it became READY, and the EPOCH_WAIT in force then (R202). -/
structure Task where
  slot : Nat
  desc : Nat
  cmd : CmdKey
  pos : Nat
  phase : TaskPhase
  readyAt : Nat := 0
  epochWait : Nat := 0
deriving DecidableEq, Repr

/-- The sequencer of a cluster. -/
structure Sequencer where
  /-- the tasks of each queue, oldest first (R190) -/
  queues : Sparse (List Task) := []
  tallies : Sparse (BitVec 32) := []
  /-- TALLY_WATCH messages held: tile, tag, tally, target (R256) -/
  watches : List TallyWatch := []
  epoch : BitVec 32 := 0
  /-- commits delivered and not yet applied, and whether one of them is FORCE (R204) -/
  commits : List Nat := []
  force : Bool := false
  /-- the program each tile holds: address and length (R203) -/
  programs : Sparse (Option (Nat × Nat)) := []
  /-- the queue that last dispatched in each priority class (R203) -/
  lastQueue : Sparse (Option Nat) := []
  lastDispatch : Option Nat := none
  /-- the duty in force in the running slot, in eighths (R207) -/
  duty : Nat := 8
  /-- Calends when the watchdog last started (R508) -/
  watchdogFrom : Nat := 0
  watchdogTrips : Nat := 0
deriving DecidableEq, Repr

/-- One context of the tree, a partition and a channel (R219, R221): operations ended, whether one is open, when it
began, its expected members, the messages at the members' level-1 eyelets, messages held for the next operation, the
messages that eyelets have passed up, the sweep of a SUM.R (R226), the key and the result sent down, and the members that
have received them. Messages of child devices and of the parent arrive by Newen port (R238). `timed` tells that the
operation has begun, so that its timeout runs (R223, R240): it has not where the device has only supplied the identity to its
parent. `mismatch` tells that the operation is counted in LACE_MISMATCHES (R242). -/
structure LaceCtx where
  ended : Nat := 0
  active : Bool := false
  start : Nat := 0
  expected : List Nat := []
  arrived : Sparse (Option LaceMsg) := []
  heldNext : Sparse (Option LaceMsg) := []
  passed : Sparse (Option LaceMsg) := []
  sweep : Nat := 1
  key : Option (List Nat) := none
  quantised : Sparse (Option LaceMsg) := []
  result : Option LaceMsg := none
  delivered : List Nat := []
  childMsgs : Sparse (Option LaceMsg) := []
  sentUp : Bool := false
  timed : Bool := false
  mismatch : Bool := false
deriving DecidableEq, Repr

/-- The Lacing tree: 32 contexts, 4 per partition (R219), and the counters of R222: counter a of partition p at 3p + a. -/
structure Lacing where
  ctxs : Sparse LaceCtx := []
  counters : Sparse Nat := []
  /-- messages for the parent and the children of the domain: port, context, whether it goes down, message (R238) -/
  toPorts : List (Nat × Nat × Bool × LaceMsg) := []
deriving DecidableEq, Repr

/-! ### Copy engines (spec/11_memory_and_copy_engines.md) -/

/-- Which unit queued a copy descriptor (R315, R320). -/
inductive CopyOwner where
  /-- a MEM_COPY command -/
  | memCopy (k : CmdKey)
  /-- a copy of a LOAD_MODEL command -/
  | load (k : CmdKey)
  /-- a page move of the Session Shelf -/
  | shelf (move : Nat)
  /-- the management core -/
  | mgmt (id : Nat)
deriving DecidableEq, Repr

/-- A copy descriptor that waits or stands in an engine queue (R316 to R320). `words` is the descriptor as one number.
`carried` is the conversion value a Shelf copy carries (R338); `conv` the value latched at activation. Positions count
the source bytes, and the destination bytes, of the whole copy in the order of R318. `first` is the issue number and
status of the earliest-issued request that returned an error. -/
structure CopyDesc where
  id : Nat
  owner : CopyOwner
  vi : Nat
  part : Nat
  words : Nat
  carried : Option Nat := none
  conv : Nat := 0
  active : Bool := false
  readPos : Nat := 0
  readAhead : List Nat := []
  writePos : Nat := 0
  writeAhead : List Nat := []
  /-- bytes of the staging buffer that converted data awaiting its write holds (R315) -/
  staged : Nat := 0
  arrived : List (Nat × Nat) := []
  data : List Host.Cell := []
  poison : List Nat := []
  out : Nat := 0
  issued : Nat := 0
  first : Option (Nat × Status) := none
  poisoned : Bool := false
  voided : Bool := false
  longest : Nat := 0
  done : Option Status := none
deriving DecidableEq, Repr

/-- A copy engine: its queues (0 Shelf, 1 management, 2 + v of VI v, R320), the last Shelf descriptor and the last VI
served with its run length (R321), and its eight statistics words (R325) with the overflow count of R489 as word 8. -/
structure CopyEngine where
  queues : Sparse (List CopyDesc) := []
  lastShelf : Nat := 0
  lastVi : Nat := 63
  run : Nat := 0
  stats : Sparse Nat := []
  /-- the cycle in which a request last left or data last moved (R487) -/
  workAt : Option Nat := none
deriving DecidableEq, Repr

/-- Progress of a patrol scrubber (R305): the next word and the cycle in which its pass began. -/
structure Scrub where
  next : Nat := 0
  since : Nat := 0
  /-- the storage's domain has slept during the pass, which is then not late (R305, R539) -/
  slept : Bool := false
deriving DecidableEq, Repr

/-- An HBM port: in power-down, or with its channels in self-refresh (R314). -/
structure HbmPortState where
  powerDown : Bool := false
  selfRefresh : Bool := false
  refreshAt : Option Nat := none
deriving DecidableEq, Repr

/-! ### The host interface (spec/14_host_interface.md) -/

/-- A command ring of a VI (R386). `fetch` is the first index and the number of entries of the read that is out. -/
structure Ring where
  base : Nat := 0
  size : Nat := 0
  head : Nat := 0
  tail : Nat := 0
  fault : Bool := false
  enable : Bool := false
  fetch : Option (Nat × Nat) := none
deriving DecidableEq, Repr

/-- The dictionary mailbox of a function (R467): its registers and its two buffers. -/
structure Mailbox where
  state : Nat := 0
  respLen : Nat := 0
  request : List Host.Cell := []
  response : List Host.Cell := []
deriving DecidableEq, Repr

/-- A virtual instance: its function block (R386), its configuration-space settings (R381, R397, R398), and its reset
(R367). `vf` tells that the function is enabled. -/
structure Vi where
  regError : Nat := 0
  fnEvents : BitVec 4 := 0
  mask : BitVec 4 := 0xF#4
  rings : Sparse Ring := []
  lastRing : Nat := 3
  cqBase : Nat := 0
  cqSize : Nat := 0
  cqTail : Nat := 0
  cqHead : Nat := 0
  cqEnable : Bool := false
  /-- MSI-X table: word 4i + k of vector i, 32 bits each; a word equal to its default is not listed -/
  msix : Sparse Nat := []
  pba : BitVec 32 := 0
  mailbox : Mailbox := {}
  vf : Bool := false
  /-- configuration space: Bus Master Enable, MSI-X enable and function mask, Max_Payload_Size and Max_Read_Request_Size in
  bytes, ATS enable, D3hot -/
  busMaster : Bool := false
  msixEnable : Bool := false
  functionMask : Bool := false
  maxPayload : Nat := 128
  maxRead : Nat := 512
  ats : Bool := false
  d3hot : Bool := false
  resetting : Option Nat := none
  lastReset : Nat := 0
  doorbellsRefused : Nat := 0
  wakeRefused : Nat := 0
deriving DecidableEq, Repr

/-- How far an accepted command has come (R389, R395). -/
inductive CmdPhase where
  /-- accepted or at work -/
  | running
  /-- its work has ended; its end latch is due (R209) -/
  | ended
  /-- its record is written, or it has none; its completion entry is due -/
  | recorded
deriving DecidableEq, Repr

/-- What a start or end latch samples (R209, R492): the cycle, the epochs of the clusters, the counters of the tiles, words
28 and 29 of their network statistics, word 4 of each cluster's light set. -/
structure Latch where
  cal : Nat
  /-- the Calends up to which the idle counters of each cluster's tiles stand (R488) -/
  idleAt : List Nat := []
  epochs : List Nat
  counters : Sparse (Sparse Nat)
  net : List (Nat × Nat × Nat)
  light : List Nat
deriving DecidableEq, Repr

/-- A command that was accepted, or refused, and is not completed (R389 to R395). -/
structure Cmd where
  key : CmdKey
  entry : Nat
  part : Nat
  phase : CmdPhase
  refused : Bool := false
  /-- the command's own action has begun -/
  begun : Bool := false
  tA : Nat
  tEnd : Nat := 0
  status : Status := .ok
  result : Nat := 0
  /-- task-list items not fetched: cluster, descriptor address, position (R192, R372) -/
  items : List (Nat × Nat × Nat) := []
  /-- the queue through which the tasks reach each cluster (R191) -/
  queues : List (Nat × Nat) := []
  live : Nat := 0
  tasksDone : Nat := 0
  tasksNot : Nat := 0
  /-- earliest failure: cycle, cluster + 1 (0 for none), position, status (R206) -/
  failure : Option (Nat × Nat × Nat × Status) := none
  cancelled : Option Status := none
  poisoned : Bool := false
  clusters : BitVec 8 := 0
  firstDispatch : Nat := 0
  dispatchWait : Nat := 0
  shared : BitVec 8 := 0
  block : StatsBlock := {}
  start : Option Latch := none
  /-- the run block's WRITE_ACK has come, or there is none (R393) -/
  blockReady : Bool := false
  /-- the reservation of R344 has succeeded, or none was needed -/
  reserved : Bool := false
  /-- copies of the command still to be reported -/
  copies : Nat := 0
  /-- the failure of a page move that this RUN tells the host (R33) -/
  page : Option Status := none
deriving DecidableEq, Repr

/-- A transaction the port has sent to the host (R397): a posted write, or a message of MSI-X. -/
inductive HostOut where
  | write (vi a n v : Nat) (poisoned cache : Bool)
  | read (vi a n tag : Nat) (cache : Bool)
  | msix (vi vector a data : Nat)
  | translate (vi a tag : Nat)
deriving DecidableEq, Repr

/-- A non-posted request outstanding at the host (R397): its tag, the intake entry it serves (SRC and TAG), the offset of
its part and its length, its VI and the host address, its cycle of issue; `xlate` marks a translation request (R398). -/
structure HostReq where
  tag : Nat
  src : Nat
  rtag : Nat
  off : Nat
  len : Nat
  vi : Nat
  a : Nat
  xlate : Bool
  start : Nat
deriving DecidableEq, Repr

/-- A request of the host to memory that is outstanding: BAR4 or CXL.mem (R385, R400). -/
structure HostAccess where
  id : Nat
  cxl : Bool
  write : Bool
  a : Nat
  n : Nat
  data : Nat
  /-- parts that have not ended, the bytes read so far with their poison, and whether a part failed -/
  left : Nat
  got : Nat := 0
  poison : Nat := 0
  failed : Bool := false
deriving DecidableEq, Repr

/-- An answer the port has given to an access of the host. -/
inductive HostAnswer where
  | data (id v : Nat) (poisoned : Bool)
  | unsupported (id : Nat)
  | snoopMiss (a : Nat)
  | snoop (a : Nat)
  | retry
  | invalidated (vi a n : Nat)
  | register (vi off v : Nat)
deriving DecidableEq, Repr

/-- A range whose translation the port is to forget, with the requests that still use it (R398). -/
structure AtsInvalidation where
  vi : Nat
  a : Nat
  n : Nat
  waits : List Nat
deriving DecidableEq, Repr

/-- The PCIe/CXL port. -/
structure HostPort where
  vis : Sparse Vi := []
  cmds : List Cmd := []
  out : List HostOut := []
  reqs : List HostReq := []
  accesses : List HostAccess := []
  answers : List HostAnswer := []
  /-- address translations cached: VI, untranslated page, translated page (R398) -/
  atc : List (Nat × Nat × Nat) := []
  invalidations : List AtsInvalidation := []
  nextTag : Nat := 0
  lastVi : Nat := 63
  /-- LINK_STATE, LINK_SPEED, LINK_WIDTH, FLIT_MODE, CXL_VERSION (R405) -/
  linkState : Nat := 0
  linkSpeed : Nat := 0
  linkWidth : Nat := 0
  flit : Bool := false
  cxl : Nat := 0
  /-- size of BAR4 in GiB (R382) -/
  bar4 : Nat := 64
  bifurcation : Nat := 0
  /-- NumVFs and VF Enable of the physical function, and of PF 1 (R364, R383) -/
  sriov : Nat × Bool := (0, false)
  sriov1 : Nat × Bool := (0, false)
  hdmCommitted : Bool := false
  perstLow : Bool := true
  ready : Bool := false
  /-- HOST_STATS (R405) -/
  stats : Sparse Nat := []
  /-- lines the host holds under CXL.mem, by address / 64, and those whose back-invalidate snoop is out (R385) -/
  hostLines : List Nat := []
  snoops : List Nat := []
  /-- PF 1's mailbox in X8X8 mode (R383) -/
  pf1 : Mailbox := {}
deriving DecidableEq, Repr

/-! ### Partitions and loaded models (spec/13_partitions_and_virtual_instances.md) -/

/-- PART_STATE (R378). -/
inductive PartState where
  | dissolved | forming | ready | resetting | hung
deriving DecidableEq, Repr

/-- A loaded model (R372 to R375): its generation, task lists as (cluster, descriptor address) items, slice and band
ranges held, and the sources of its segments. -/
structure Model where
  gen : Nat
  lists : List (List (Nat × Nat))
  slices : List (Nat × Nat)
  bands : List (Nat × Nat)
  srcs : List (Nat × Nat)
deriving DecidableEq, Repr

/-- A LOAD_MODEL whose copies run (R375): its command, the slot and the model it will fill. -/
structure Load where
  key : CmdKey
  part : Nat
  slot : Nat
  model : Model
  failed : Option Status := none
  /-- the fit report of a load that ends OK, without its handle, and REPORT_ADDR (R376) -/
  report : List Nat := []
  reportAt : Nat := 0
deriving DecidableEq, Repr

/-- A partition. -/
structure Partition where
  clusters : BitVec 8 := 0
  state : PartState := .dissolved
  since : Nat := 0
  /-- ranges removed from its fence and being zeroed (R362) -/
  zeroing : List (Nat × Nat) := []
  models : Sparse (Option Model) := []
  gens : Sparse Nat := []
  fitReport : List Nat := []
  /-- arena frames removed by SHRINK_KV are in ARENA_FRAMES itself; frames in use or reserved, frames being zeroed -/
  frames : Sparse Bool := []
  framesZeroing : List Nat := []
  /-- T1 units of 32 KiB and page-table blocks of 4 KiB in use (R335) -/
  t1 : Sparse Bool := []
  pt : Sparse Bool := []
  evictions : Nat := 0
  noSpace : Nat := 0
deriving DecidableEq, Repr

/-! ### The Session Shelf (spec/12_the_session_shelf.md) -/

/-- A tier of KV pages (R337). -/
inductive Tier where
  | t0 | t1 | t2
deriving DecidableEq, Repr

/-- A page-table entry that is allocated (R337); an entry of TIER NONE is absent. -/
structure Page where
  tier : Tier
  c : Bool
  moving : Bool
  addr : Nat
deriving DecidableEq, Repr

/-- STATE of a session (R336). -/
inductive SessState where
  | closed | live | warm | cool | cold
deriving DecidableEq, Repr

/-- A session: the fields of its descriptor (R336), H (R352), its page table by entry number l x P_MAX + i, the status a
failed page move left for the first RUN that follows (R33), the cycle since which its idle timer runs (R346), and the CLOSE
that waits for the moves in flight (R354). -/
structure Session where
  state : SessState := .closed
  pin : Bool := false
  promoting : Bool := false
  demoting : Bool := false
  profile : Nat := 0
  vi : Nat := 0
  part : Nat := 0
  kvFmt : Nat := 0
  layers : Nat := 0
  maxTokens : Nat := 0
  tokens : Nat := 0
  pMax : Nat := 0
  ptAddr : Nat := 0
  rowBytes : Nat := 0
  lastRun : Nat := 0
  wakeCal : Nat := 0
  wakeStatus : Status := .ok
  wakeDL0 : Nat := 0
  wakeDH : Nat := 0
  h : Nat := 0
  pages : Sparse (Option Page) := []
  /-- entries whose move into T0 ended with an error, the status, and whether a RUN has told it to the host (R33, R194) -/
  failed : List (Nat × Status × Bool) := []
  idleSince : Nat := 0
  /-- the session's descriptor or table could not be read (R355's chapter, ECC_UNCORRECTED until CLOSE) -/
  broken : Bool := false
  closing : Bool := false
  closeCmd : Option CmdKey := none
deriving DecidableEq, Repr

/-- What a queued operation of the Shelf is (R329, R345). -/
inductive ShelfKind where
  /-- WAKE or OPEN with a hint -/
  | wake (hint : Nat)
  /-- the reservation of a RUN with its append count -/
  | run (a : Nat)
  /-- a demotion to a tier, 1 or 2: a PARK, an idle park or a reset policy -/
  | park (tier : Nat)
  /-- a demotion to T1 that an operation's shortfall asked for -/
  | evict (op : Nat)
deriving DecidableEq, Repr

/-- An operation in one of the two queues of R345: whether its reservation, or its demotion, has begun, the pages it still
has to move in order, the frames it reserved for hot pages, whether layer 0 has been published, the status it will end with. -/
structure ShelfOp where
  id : Nat
  kind : ShelfKind
  sid : Nat
  cmd : Option CmdKey
  tW : Nat
  started : Bool := false
  todo : List Nat := []
  frames : List Nat := []
  shown : Bool := false
  status : Status := .ok
  /-- the pin argument of a SESSION_WAKE: 1 sets, 2 clears (R329) -/
  pin : Nat := 0
  /-- its descriptor has been looked up (R336), and step 2 of R342 has begun -/
  looked : Bool := false
  begun : Bool := false
deriving DecidableEq, Repr

/-- A page move in flight (R338): operation, session, page-table entry, target, and, once its copy is reported, how it
ended. -/
structure PageMove where
  id : Nat
  op : Nat
  sid : Nat
  entry : Nat
  target : Page
  again : Bool := false
  result : Option Status := none
  longest : Nat := 0
deriving DecidableEq, Repr

/-- An old location that waits for the tasks DISPATCHED at its move's step 3 (R338). -/
structure Retired where
  part : Nat
  vi : Nat
  page : Page
  tasks : List (Nat × CmdKey × Nat)
deriving DecidableEq, Repr

/-- The Session Shelf: sessions, the cached descriptors, most recent first, with their counts (R336), the two queues
(R345), moves in flight, old locations. -/
structure Shelf where
  sessions : Sparse Session := []
  cache : List Nat := []
  hits : Nat := 0
  misses : Nat := 0
  promotions : List ShelfOp := []
  demotions : List ShelfOp := []
  moves : List PageMove := []
  retired : List Retired := []
  ready : Bool := false
  /-- T2 units of 32 KiB in use, of VI v at 2^32 v + unit (R335) -/
  t2 : Sparse Bool := []
deriving DecidableEq, Repr

/-! ### The Newen link (spec/15_the_newen_link.md) -/

/-- LINK_STATE (R430). -/
inductive LinkState where
  | down | training | up | retraining
deriving DecidableEq, Repr

/-- A transaction of the near proxy (R424): its link tag and the SRC and TAG of the intake entry it serves. -/
structure NearTxn where
  linkTag : Nat
  src : NodeId
  tag : BitVec 12
deriving DecidableEq, Repr

/-- An entry of the far proxy's remote table (R425): the link tag, the request, the slots its data still holds, and
its arrival. -/
structure FarTxn where
  linkTag : Nat
  pkt : Packet
  held : Nat
  arrival : Nat
deriving DecidableEq, Repr

/-- A Newen port with its two proxies. -/
structure NewenPort where
  link : LinkState := .down
  /-- the training phase, 1 to 4; 0 while the next attempt waits (R430) -/
  phase : Nat := 0
  gen : Nat := 0
  width : Nat := 0
  /-- the first of the active lanes (R409, R431) -/
  firstLane : Nat := 0
  flight : Nat := 0
  peerDevice : Nat := 255
  peerPort : Nat := 255
  peerParent : Bool := false
  /-- the peer's HELLO of this training has come -/
  helloSeen : Bool := false
  /-- the flight measured in phase 4 (R430) -/
  measured : Option Nat := none
  trainFail : Nat := 0
  /-- LINK_STATS and LAST_MARK, word i at i (R434) -/
  stats : Sparse Nat := []
  lastMark : Sparse Nat := []
  /-- sender: SEQ of the next new DATA frame, frames not acknowledged, what is still to be resent, consecutive replays
  without advance of ACK, the cycle of the last advance and of the last replay (R418, R420) -/
  nextSeq : Nat := 0
  replay : List Frame := []
  resend : List Frame := []
  replays : Nat := 0
  ackAt : Nat := 0
  replayAt : Option Nat := none
  /-- frames sent since link-up and alignment codewords sent (R411) -/
  sent : Nat := 0
  aligned : Nat := 0
  /-- bits of the frame stream that are not in a codeword yet, and the data of the codeword last formed (R411) -/
  stream : Nat := 0
  codeword : Nat := 0
  /-- credits: the peer's buffers, its latest counts, what has been used (R422) -/
  buffers : Nat × Nat × Nat := (0, 0, 0)
  counts : Nat × Nat × Nat := (0, 0, 0)
  used : Nat × Nat × Nat := (0, 0, 0)
  /-- packets to send, with the flits of the first already sent; lace messages, with the beats of the first -/
  reqOut : List Packet := []
  reqFlit : Nat := 0
  rspOut : List Packet := []
  rspFlit : Nat := 0
  laceOut : List (Nat × LaceMsg) := []
  laceBeat : Nat := 0
  /-- the context whose message went last (R236) -/
  laceLast : Nat := 31
  nakDue : Bool := false
  markDue : Bool := false
  helloDue : Bool := false
  /-- the frame last sent -/
  last : Option Frame := none
  /-- receiver: the SEQ expected, whether a discard has followed the last accepted frame (R419) -/
  expect : Nat := 0
  missing : Bool := false
  /-- codewords and frames received since link-up, consecutive uncorrectable codewords, frames with a bit in an
  uncorrectable codeword (R411, R412, R432) -/
  codewords : Nat := 0
  frames : Nat := 0
  badRun : Nat := 0
  badFrames : List Nat := []
  /-- slots and beats received, and freed (R422) -/
  received : Nat × Nat × Nat := (0, 0, 0)
  freed : Nat × Nat × Nat := (0, 0, 0)
  /-- the flits of the packet of each channel, and the beats of the message, that is arriving (R421) -/
  reqIn : List Flit := []
  rspIn : List Flit := []
  laceIn : List LaceBeat := []
  /-- requests received that wait for the remote table -/
  reqWait : List Packet := []
  near : List NearTxn := []
  far : List FarTxn := []
deriving DecidableEq, Repr

/-! ### Power, reset and boot (spec/20_power_reset_and_start_up.md) -/

/-- The state of a switched domain (R535). -/
inductive DomainState where
  | off | retain | waking | on | deepSleep
deriving DecidableEq, Repr

/-- A cause that holds a device reset, in the order in which RESET_CAUSE prefers them (R546). -/
inductive HoldCause where
  | thermal | resetPin | perst | dictionary
deriving DecidableEq, Repr

/-- Power control, resets and the boot: the domains D0 to D19 (R535) and, for each, the cycle since which it has been in its
state; pins and supplies; the boot; temperatures. -/
structure Power where
  domains : Sparse DomainState := []
  /-- the Calends at which a domain last came on or ceased to be on (R488) -/
  since : Sparse Nat := []
  /-- POR_N is low; the internal power-on reset is held; rails out of tolerance; the PLL is locked (R56, R533, R540) -/
  porLow : Bool := true
  porHeld : Bool := true
  railsBad : Bool := true
  locked : Bool := false
  /-- RESET_N is low, counts as held, is masked, is stuck; since when it has been held and for how long in ms (R541, R542) -/
  resetLow : Bool := false
  resetHeld : Bool := false
  pinMask : Bool := false
  pinStuck : Bool := false
  heldFrom : Nat := 0
  heldTime : Nat := 0
  /-- causes that hold a device reset (R541, R543, R545), and a device reset that DEVICE_RESET has asked for (R483) -/
  holds : List HoldCause := []
  asked : Bool := false
  thermTrip : Bool := false
  /-- RESET_CAUSE, straps, boot stage, state and failure (R483, R548) -/
  resetCause : Nat := 0
  bootSel : Nat := 0
  nodeSel : Nat := 0
  stage : Nat := 0
  bootState : Nat := 0
  bootFail : Nat := 0
  /-- the running boot follows a power-on reset; the firmware image is loaded and checked -/
  coldBoot : Bool := true
  /-- the ROM stage has opened CAN and Ethernet (R548, R577) -/
  opened : Bool := false
  imageDone : Bool := false
  /-- FW_VERSION and FW_IMAGE_CRC of the image that runs (R475) -/
  fwVersion : Nat := 0
  fwCrc : Nat := 0
  /-- boot-load registers of BOOT_SEL 1 (R552) -/
  imageAddr : Nat := 0
  imageLen : Nat := 0
  /-- sensors (R480, R484, R557): the hottest reading, its maximum, the clusters', THERMAL_DUTY, trips, whether a trip is on,
  since when every reading has found the target above the duty -/
  dieTemp : Int := 0
  dieTempMax : Int := -40
  clusterTemp : Sparse Int := []
  thermalDuty : Nat := 8
  trips : Nat := 0
  tripping : Bool := false
  aboveSince : Option Nat := none
deriving DecidableEq, Repr

/-! ### The object dictionary and its transports (spec/16_object_dictionary_and_field_networks.md) -/

/-- To whom a response goes: a requester, or a DICT command (R394). -/
inductive ReplyTo where
  | requester (r : Requester)
  | dict (k : CmdKey)
deriving DecidableEq, Repr

/-- A write in blocks that is arriving (R451, R452): the bytes here, the next segment number and when the last came. -/
structure BlockXfer where
  req : Requester
  tid : BitVec 8
  index : BitVec 16
  sub : BitVec 8
  total : Nat
  got : Nat
  data : Nat
  next : Nat
  cal : Nat
deriving DecidableEq, Repr

/-- A commit (R444 to R448): its number, its values by object key (index x 256 + sub), the clusters in scope and those that
have applied it, when it times out, and whom it answers. -/
structure Commit where
  no : Nat
  values : Sparse Nat
  scope : BitVec 8
  applied : BitVec 8 := 0
  force : Bool
  deadline : Nat
  reply : ReplyTo
  classical : Bool := false
  tid : BitVec 8
  /-- its answer has been given; it stays for clusters that have yet to apply it -/
  ended : Bool := false
  /-- epochs of the clusters that have applied it, as they stood after it -/
  epochs : List (Nat × Nat) := []
deriving DecidableEq, Repr

/-- The last response to a requester (R454). -/
structure LastResponse where
  req : Requester
  tid : BitVec 8
  type : BitVec 4
  index : BitVec 16
  sub : BitVec 8
  msgs : List OapMsg
  cal : Nat
deriving DecidableEq, Repr

/-- A message that waits to be sent on CAN (R456, R463, R464): its priority class, destination and message, the record it
publishes and that record's window, whether it is a round mark, and whether its request was classical. -/
structure CanOut where
  prio : Nat
  dest : Nat
  msg : OapMsg
  record : Option Nat := none
  mark : Bool := false
  classical : Bool := false
  /-- a record that did not fit waits for its window of the next round -/
  deferred : Bool := false
deriving DecidableEq, Repr

/-- Frames of a classical message that have arrived (R457): the source, the bytes here and the cycle of the last. -/
structure CanPart where
  node : BitVec 8
  n : Nat
  data : Nat
  cal : Nat
deriving DecidableEq, Repr

/-- A frame of the Ethernet port that is no OAP message (R466): the answer for an address of the device, an echo reply from
one, and the DHCPv4 request for an offered address. -/
inductive EthOut where
  | resolve (address : BitVec 128)
  | echo (address : BitVec 128) (n data : Nat)
  | dhcpRequest (address : BitVec 32)
deriving DecidableEq, Repr

/-- The dictionary (R437 to R470). Objects are kept by unit (0 to 7 a cluster's class B values in force, 8 the service
side): value at unit x 2^24 + index x 256 + sub, listed only where it differs from its default. -/
structure Dict where
  objs : Sparse (Option Nat) := []
  /-- the staging set: values by object key -/
  staged : Sparse (Option Nat) := []
  commitNo : Nat := 0
  commits : List Commit := []
  /-- LAST_COMMIT_RESULT: value and length -/
  lastResult : Nat × Nat := (0, 0)
  /-- requesters at level EXPERT, and the UDP requesters tracked, most recently heard first (R439) -/
  expert : List Requester := []
  udpHeard : List Requester := []
  blocks : List BlockXfer := []
  repeats : List LastResponse := []
  /-- segments of a response that wait in a mailbox (R467) -/
  more : List (Requester × OapMsg) := []
  /-- responses that have left by UDP -/
  out : List (Requester × OapMsg) := []
  /-- OAP_STATS (R468) -/
  stats : Sparse Nat := []
  /-- status of the last write command -/
  lastStatus : Status := .ok
  /-- the persistent store of the boot flash, whether a copy of it passes its CRC, values not yet written, PERSIST_STATE
  DEFAULTED and PERSIST_FAILS (R442) -/
  store : Sparse (Option Nat) := []
  storeOk : Bool := true
  /-- the copy that was written before it -/
  storeOld : Sparse (Option Nat) := []
  storeOldOk : Bool := true
  dirty : List Nat := []
  defaulted : Bool := false
  persistFails : Nat := 0
  /-- CAN: node number in force, frames to send and frames sent, classical messages in part, the round (R457 to R464) -/
  canNode : Nat := 0
  canQueue : List CanOut := []
  canSent : List CanFrame := []
  canParts : List CanPart := []
  round : Nat := 0
  roundAt : Option Nat := none
  roundLost : Bool := false
  nextMark : Nat := 0
  recSent : Sparse Nat := []
  recDeferred : Sparse Nat := []
  /-- Ethernet: the leased address, prefix and gateway, and answers sent (R466) -/
  lease : Option (BitVec 32 × Nat × BitVec 32) := none
  eth : List EthOut := []
deriving DecidableEq, Repr

/-- What a part is made with (R5, R59, R61): fixed for its life. DESIGN CHOICE (log entry 4): a GL8-288 with nothing fused
out. -/
structure PartInfo where
  /-- VARIANT: 0 GL8-128, 1 GL8-288 -/
  variant : Nat := 1
  fusedTiles : List Nat := []
  fusedLanes : List (Nat × Nat) := []
  /-- links and routers (cluster, row, column) that the fuse map marks failed (R246) -/
  fusedLinks : List LinkId := []
  fusedRouters : List (Nat × Nat × Nat) := []
deriving DecidableEq, Repr

/-- The memories of the die: every byte of HBM, of the slices (at its direct view address) and of the tiles' local
storage, in one canonical list; the condition of each stored 64-bit word; pending write-backs and marks (R302, R303). -/
structure Memory where
  cells : List Host.Cell := []
  cond : Sparse WordCond := []
  writebacks : List Nat := []
  marks : List Nat := []
  errorLog : List (BitVec 64 × BitVec 64) := []
deriving DecidableEq, Repr

/-- A freeze that Vigil has taken up (R509 to R521): its number, trigger code, scope, detail word, t_F and, once latched,
t_S. -/
structure Freeze where
  no : Nat
  code : Nat
  scope : Nat
  detail : Nat
  tF : Nat
  tS : Option Nat := none
deriving DecidableEq, Repr

/-- Vigil (spec/19_vigil_and_the_almanac_port.md). The snapshot of a freeze is kept section by section: its header words and
the body as a number (R515). -/
structure Vigil where
  /-- triggers that wait to be taken up: trigger code of R507, scope (a partition, or 8 for the device), detail (R514) -/
  triggers : List (Nat × Nat × Nat) := []
  /-- VIGIL_STATE, VIGIL_SCOPE, VIGIL_COUNT (R479) -/
  state : Nat := 0
  scope : Nat := 255
  count : Nat := 0
  /-- freezes not yet dumped, the one that is dumped first -/
  freezes : List Freeze := []
  /-- sections latched: kind, instance, body bytes, body (R511, R515) -/
  snapshot : List (Nat × Nat × Nat × Nat) := []
  /-- a freeze of device scope holds the device HUNG (R476, R520) -/
  hung : Bool := false
  /-- partition resets and VI resets that wait for DONE (R520, R530) -/
  waitingParts : List Nat := []
  waitingVis : List Nat := []
deriving DecidableEq, Repr

/-- A trace record (R524): its type and its words, the header first. -/
structure TraceRecord where
  kind : Nat
  cal : Nat
  node : Nat
  words : List Nat
deriving DecidableEq, Repr

/-- A frame of the Almanac port (R523): type, DOMAIN_DEVICE, sequence number, DROPPED, Calends, records, and the offset,
number and value of its dump bytes. -/
structure AlmanacFrame where
  kind : Nat
  seq : Nat
  dropped : Nat
  cal : Nat
  device : Nat
  records : List TraceRecord := []
  offset : Nat := 0
  bytes : Nat := 0
  data : Nat := 0
deriving DecidableEq, Repr

/-- The Almanac port (spec/19_vigil_and_the_almanac_port.md): the collector's counters (R526, word i at offset
0x0200 + 8i), whether a test runs on it, mark and VIGIL records on their way, the three buffers (R525), the frame
sequence, records dropped since the last TRACE frame, frames since the last ALIGN, whether the last of TRACE and DUMP was
TRACE, and the dumps that stream: slot address, total bytes and offset (R528). -/
structure Almanac where
  counts : Sparse Nat := []
  test : Bool := false
  coming : List TraceRecord := []
  events : List TraceRecord := []
  marks : List TraceRecord := []
  vigils : List TraceRecord := []
  frameSeq : Nat := 0
  dropped : Nat := 0
  sinceAlign : Nat := 0
  traceLast : Bool := false
  streams : List (Nat × Nat × Nat) := []
  last : Option AlmanacFrame := none
  /-- the blocks last sent (R522): lane, sync header, content -/
  blocks : List (Nat × Nat × Nat) := []
deriving DecidableEq, Repr

/-- A frame that a loopback test builds (R566): on CAN its kind, identifier and data; on Ethernet its addresses, EtherType and
data; a TLP with its payload. -/
inductive TestFrame where
  | can (fd : Bool) (id : BitVec 29) (n data : Nat)
  | eth (dst src : BitVec 48) (etherType : BitVec 16) (n data : Nat)
  | tlp (n data : Nat)
deriving DecidableEq, Repr

/-- The test engine (R482, R560 to R563): LB_STATE, when the test started, when the checker locked, the four words of
LB_RESULT, the domains it powered on, and the rate of the PCIe link it took (R563). -/
structure Test where
  state : Nat := 0
  start : Nat := 0
  locked : Option Nat := none
  result : Nat × Nat × Nat × Nat := (0, 0, 0, 0)
  powered : List Nat := []
  speed : Nat := 0
  /-- links that failed a NOC test and that route tables are to leave out from the next join or reset on (R570) -/
  badLinks : List LinkId := []
  /-- the generator of every lane, wire or data path of the target (R561): the shift register of a PRBS, the bit position in the
  8 bytes of FIXED -/
  generator : Nat := 0
  /-- the frame that the test carries (R566) -/
  frame : Option TestFrame := none
  /-- the HBM stack that is in its loopback mode, and the refreshes for which it has been left (R569) -/
  looping : Option Nat := none
  pauses : Nat := 0
deriving DecidableEq, Repr

/-- The test access port (R544, R572, R573): TRST_N low, the instruction code in force, and the boundary register: the cells
that hold a 1, and those whose last capture was a 1. -/
structure Tap where
  trstLow : Bool := true
  code : BitVec 8 := 1
  cells : List ScanPin := []
  captured : List ScanPin := []
deriving DecidableEq, Repr

/-- The state of the block. -/
structure State where
  /-- the commands that wait, first in, first out -/
  pending : List Instr := []
  /-- CALENDS (R57) -/
  calends : Nat := 0
  /-- Calends at the last power-on or device reset, from which engine counters count (R486) -/
  countersFrom : Nat := 0
  /-- the model's own counter of free values (log entry 6) -/
  free : Nat := 0
  part : PartInfo := {}
  mem : Memory := {}
  tiles : Sparse Tile := []
  seqs : Sparse Sequencer := []
  lacing : Lacing := {}
  net : Net := {}
  dict : Dict := {}
  /-- light counter sets: word w of cluster c at 8c + w (R491) -/
  light : Sparse Nat := []
  /-- event rings of the service nodes, by service number (R494) -/
  rings : Sparse EventRing := []
  parts : Sparse Partition := []
  /-- tiles that failed the self-test, and tiles whose disabling is in force (R59, R62) -/
  selfTestFail : List Nat := []
  disabledTiles : List Nat := []
  /-- Welt lanes marked failed beside the fused ones: direction (0 W to E, 1 E to W) and physical lane (R38, R39) -/
  weltFailed : List (Nat × Nat) := []
  /-- per-stack counts of R325: count k of stack s at 8s + k -/
  hbmCounts : Sparse Nat := []
  /-- HBM ports by number (R309, R314); stacks whose training failed; the last temperature read of each stack (R311) -/
  hbm : Sparse HbmPortState := []
  hbmFailed : List Nat := []
  hbmTemp : Sparse Int := []
  /-- patrol scrubbers by node id (R305) -/
  scrubs : Sparse Scrub := []
  /-- MEM_ECC word w of cluster c at 6c + w (R325) -/
  memEcc : Sparse Nat := []
  engines : Sparse CopyEngine := []
  /-- validated copy descriptors that wait for a queue (R322) -/
  copyWait : List CopyDesc := []
  /-- the model's own serial number of copy descriptors and page moves -/
  serial : Nat := 0
  host : HostPort := {}
  newen : Sparse NewenPort := []
  loads : List Load := []
  shelf : Shelf := {}
  power : Power := {}
  vigil : Vigil := {}
  almanac : Almanac := {}
  test : Test := {}
  tap : Tap := {}
  /-- ENGINE_COUNTERS (R486, R489): word w of service number k at 16k + w; the idle word follows from the others -/
  engineCounts : Sparse Nat := []
deriving DecidableEq, Repr

/-- Why the block stops. -/
inductive Fault where
  /-- A command names a network node id that R45 reserves. Raised by the commands of the network and of Vigil that take a
  node id. Safe: no unit has that number, so nothing could act. -/
  | noSuchUnit
deriving DecidableEq, Repr

/-- Why a command has no meaning. -/
inductive Refusal where
  /-- A row of the command table whose meaning is not written. Raised by `exec` alone. Safe: the block stops. -/
  | notModelled (mnemonic : String)
deriving DecidableEq, Repr

/-- The state right after reset: the part is held in power-on reset (R532, R540). -/
def State.reset : State := {}

end Sys2Proof.Machine
end

