-- ==== Sys2Proof/Machine/Ops.lean ====
section
/-! DEFINITION. The named operations over the state: sparse maps, memory with its word conditions (R302 to R306), the
address map (R44 to R54), node ids (R45), event rings (R494 to R496), counters (R486), units by number. -/

namespace Sys2Proof.Machine

/-! ### Sparse maps -/

/-- The value at a key; the default where the list has no entry. -/
def Sparse.get (d : α) (m : Sparse α) (k : Nat) : α :=
  match m with
  | [] => d
  | (j, v) :: r => if j = k then v else Sparse.get d r k

/-- An entry put before the first entry of a greater key. -/
def Sparse.insert (m : Sparse α) (k : Nat) (v : α) : Sparse α :=
  match m with
  | [] => [(k, v)]
  | (j, w) :: r => if j < k then (j, w) :: Sparse.insert r k v else (k, v) :: (j, w) :: r

/-- The map with a new value at a key; a value equal to the default is not listed. -/
def Sparse.set [DecidableEq α] (d : α) (m : Sparse α) (k : Nat) (v : α) : Sparse α :=
  let r := m.filter (fun e => !(e.1 == k))
  if v = d then r else Sparse.insert r k v

/-- The canonical form: rising keys and no entry equal to the default. -/
abbrev Sparse.wf [DecidableEq α] (d : α) (m : Sparse α) : Prop :=
  m.Pairwise (fun x y => x.1 < y.1) ∧ ∀ x ∈ m, x.2 ≠ d

/-- One more in a counter. -/
def Sparse.bump (m : Sparse Nat) (k n : Nat) : Sparse Nat := Sparse.set 0 m k (Sparse.get 0 m k + n)

/-- One more in a 48-bit counter, which wraps (R486). -/
def Sparse.bump48 (m : Sparse Nat) (k n : Nat) : Sparse Nat :=
  Sparse.set 0 m k ((Sparse.get 0 m k + n) % 2 ^ 48)

/-! ### Memory cells -/

/-- The listed cells of the `n` bytes at `a`. -/
def memSlice (m : List Host.Cell) (a n : Nat) : List Host.Cell :=
  m.filter (fun c => decide (a ≤ c.1) && decide (c.1 < a + n))

/-- The `n` bytes at `a` as a little-endian number (R9). An unlisted byte reads as 0 (log entry 5). -/
def memNat (m : List Host.Cell) (a n : Nat) : Nat :=
  (memSlice m a n).foldl (fun acc c => acc + c.2.toNat * 2 ^ (8 * (c.1 - a))) 0

/-- The byte at `a`. -/
def memByte (m : List Host.Cell) (a : Nat) : BitVec 8 := Sparse.get 0 m a

/-- The cells of `n` bytes at `a` that hold the little-endian number `v`; zero bytes are not listed. -/
def cellsOf (a n v : Nat) : List Host.Cell :=
  (List.range n).filterMap
    (fun i => let b := BitVec.ofNat 8 (v >>> (8 * i)); if b = 0 then none else some (a + i, b))

/-- Memory with `n` bytes at `a` replaced. -/
def memWrite (m : List Host.Cell) (a n v : Nat) : List Host.Cell :=
  m.filter (fun c => decide (c.1 < a)) ++ cellsOf a n v ++ m.filter (fun c => decide (a + n ≤ c.1))

/-- Memory with `n` bytes at `a` zeroed. -/
def memZero (m : List Host.Cell) (a n : Nat) : List Host.Cell :=
  m.filter (fun c => decide (c.1 < a) || decide (a + n ≤ c.1))

/-- The canonical form of memory: rising addresses and no zero byte listed. -/
abbrev Memory.wf (m : List Host.Cell) : Prop := Sparse.wf (0 : BitVec 8) m

/-- Lane `l` of width `w` of a number. -/
def laneNat (v w l : Nat) : Nat := (v >>> (w * l)) % 2 ^ w

/-- A number from its lanes of width `w`, lane 0 lowest. -/
def ofLanes (w : Nat) (ls : List Nat) : Nat :=
  ls.foldr (fun x acc => x % 2 ^ w + acc * 2 ^ w) 0

/-- Bit list to number, bit 0 first. -/
def ofBits (bs : List Bool) : Nat := bs.foldr (fun b acc => b.toNat + 2 * acc) 0

/-- `n` contiguous bits of a number from bit `lo`. -/
def bitsAt (v lo n : Nat) : Nat := (v >>> lo) % 2 ^ n

/-! ### Status codes -/

/-- The code of a status (R17). -/
def Status.code (st : Status) : Nat :=
  match st with
  | .ok => 0x00 | .cancelled => 0x01 | .timeout => 0x02 | .targetIsolated => 0x03 | .eccUncorrected => 0x04
  | .badDescriptor => 0x05 | .outOfRange => 0x06 | .accessLevel => 0x07 | .busyStopClass => 0x08 | .noSpace => 0x09
  | .fitExceeded => 0x0A | .illegalEncoding => 0x0B | .viReset => 0x0C | .partialApplied => 0x0D | .hung => 0x0E
  | .linkDown => 0x0F | .epochWaitTimeout => 0x10 | .notFound => 0x11 | .aborted => 0x12 | .badValue => 0x13
  | .laceTimeout => 0x14

/-- The status a code names; `none` for a code R17 reserves. -/
def Status.ofCode (c : Nat) : Option Status :=
  [Status.ok, .cancelled, .timeout, .targetIsolated, .eccUncorrected, .badDescriptor, .outOfRange, .accessLevel,
    .busyStopClass, .noSpace, .fitExceeded, .illegalEncoding, .viReset, .partialApplied, .hung, .linkDown,
    .epochWaitTimeout, .notFound, .aborted, .badValue, .laceTimeout][c]?

/-! ### The address map (R46) and node ids (R45) -/

/-- Base of the slice window's direct view (R46). -/
def sliceBase : Nat := 0x008000000000
/-- Base of the striped view (R46). -/
def stripedBase : Nat := 0x008800000000
/-- Base of the tile local spaces (R46). -/
def tileBase : Nat := 0x009000000000
/-- Base of the control space (R46). -/
def controlBase : Nat := 0x00A000000000
/-- Base of the host region (R46). -/
def hostBase : Nat := 0x400000000000
/-- Bytes of one slice (R47). -/
def sliceBytes : Nat := 0xC0000

/-- Device address of offset `o` of the local space of tile `t` (R51). -/
def tileAddr (t o : Nat) : Nat := tileBase + t * 0x20000 + o

/-- Device address, in the direct view, of byte `b` of slice `sl` (R47). -/
def sliceAddr (sl b : Nat) : Nat := sliceBase + sl * sliceBytes + b

/-- Fitted HBM capacity in bytes (R5, R46). -/
def hbmBytes (s : State) : Nat := if s.part.variant = 0 then 0x2000000000 else 0x4800000000

/-- Node id of slice `sl` (R45). -/
def sliceNode (sl : Nat) : Nat := 0x1000 + sl
/-- Node id of the sequencer of cluster `c` (R45). -/
def seqNode (c : Nat) : Nat := 0x2000 + c
/-- Node id of copy engine `e` (R45). -/
def ceNode (e : Nat) : Nat := 0x2010 + e
/-- Node id of HBM port `p` = 4s + q (R45). -/
def hbmNode (p : Nat) : Nat := 0x2020 + p
/-- Node id of the management core (R45). -/
def mgmtNode : Nat := 0x2040
/-- Node id of the PCIe/CXL port (R45). -/
def pcieNode : Nat := 0x2041
/-- Node id of Newen port `n` (R45). -/
def newenNode (n : Nat) : Nat := 0x2048 + n
/-- Node id of the Almanac port (R45). -/
def almanacNode : Nat := 0x2050
/-- Node id of Vigil (R45). -/
def vigilNode : Nat := 0x2051

/-- What a node id names (R45). -/
inductive NodeKind where
  | tile (t : Nat) | slice (sl : Nat) | sequencer (c : Nat) | copyEngine (e : Nat) | hbmPort (p : Nat)
  | mgmt | pcie | newen (n : Nat) | almanac | vigil
deriving DecidableEq, Repr

/-- The node an id names; `none` for a reserved id (R45). -/
def nodeKind (n : Nat) : Option NodeKind :=
  if n < 0x1000 then some (.tile n)
  else if n < 0x1200 then some (.slice (n - 0x1000))
  else if 0x2000 ≤ n ∧ n < 0x2008 then some (.sequencer (n - 0x2000))
  else if 0x2010 ≤ n ∧ n < 0x2020 then some (.copyEngine (n - 0x2010))
  else if 0x2020 ≤ n ∧ n < 0x2040 then some (.hbmPort (n - 0x2020))
  else if n = 0x2040 then some .mgmt
  else if n = 0x2041 then some .pcie
  else if 0x2048 ≤ n ∧ n < 0x2050 then some (.newen (n - 0x2048))
  else if n = 0x2050 then some .almanac
  else if n = 0x2051 then some .vigil
  else none

/-- The HBM port of a device address and the offset within the port (R308). -/
def hbmTarget (a : Nat) : Nat × Nat :=
  let g := a >>> 12
  let p := (g ^^^ (g >>> 5) ^^^ (g >>> 10)) % 32
  (p, (g >>> 5) * 4096 + a % 4096)

/-- Where a device address lies. -/
inductive Region where
  | hbm | sliceDirect (sl b : Nat) | sliceStriped (o : Nat) | tile (t o : Nat) | control (svc o : Nat)
  | host (a : Nat) | none
deriving DecidableEq, Repr

/-- The region of R46 that holds an address. -/
def regionOf (s : State) (a : Nat) : Region :=
  if a < hbmBytes s then .hbm
  else if sliceBase ≤ a ∧ a < sliceBase + 512 * sliceBytes then
    .sliceDirect ((a - sliceBase) / sliceBytes) ((a - sliceBase) % sliceBytes)
  else if stripedBase ≤ a ∧ a < stripedBase + 512 * sliceBytes then .sliceStriped (a - stripedBase)
  else if tileBase ≤ a ∧ a < tileBase + 4096 * 0x20000 then
    .tile ((a - tileBase) / 0x20000) ((a - tileBase) % 0x20000)
  else if controlBase ≤ a ∧ a < controlBase + 0x100000000 then
    .control ((a - controlBase) / 0x1000000) ((a - controlBase) % 0x1000000)
  else if hostBase ≤ a ∧ a < 0x800000000000 then .host (a - hostBase)
  else .none

/-! ### Units -/

/-- Tile `t`. -/
def State.tile (s : State) (t : TileId) : Tile := Sparse.get {} s.tiles t.val
/-- The state with tile `t` replaced. -/
def State.setTile (s : State) (t : TileId) (x : Tile) : State := { s with tiles := Sparse.set {} s.tiles t.val x }
/-- Sequencer of cluster `c`. -/
def State.seq (s : State) (c : Nat) : Sequencer := Sparse.get {} s.seqs c
/-- The state with the sequencer of cluster `c` replaced. -/
def State.setSeq (s : State) (c : Nat) (x : Sequencer) : State := { s with seqs := Sparse.set {} s.seqs c x }
/-- Partition `p`. -/
def State.partition (s : State) (p : Nat) : Partition := Sparse.get {} s.parts p
/-- The state with partition `p` replaced. -/
def State.setPartition (s : State) (p : Nat) (x : Partition) : State := { s with parts := Sparse.set {} s.parts p x }
/-- Initiator by node id. -/
def State.initiator (s : State) (n : Nat) : Initiator := Sparse.get {} s.net.initiators n
/-- The state with an initiator replaced. -/
def State.setInitiator (s : State) (n : Nat) (x : Initiator) : State :=
  { s with net := { s.net with initiators := Sparse.set {} s.net.initiators n x } }
/-- Target by node id. -/
def State.target (s : State) (n : Nat) : Target := Sparse.get {} s.net.targets n
/-- The state with a target replaced. -/
def State.setTarget (s : State) (n : Nat) (x : Target) : State :=
  { s with net := { s.net with targets := Sparse.set {} s.net.targets n x } }

/-- Copy engine `e`. -/
def State.engine (s : State) (e : Nat) : CopyEngine := Sparse.get {} s.engines e
/-- The state with a copy engine replaced. -/
def State.setEngine (s : State) (e : Nat) (x : CopyEngine) : State := { s with engines := Sparse.set {} s.engines e x }
/-- Virtual instance `v`. -/
def State.vi (s : State) (v : Nat) : Vi := Sparse.get {} s.host.vis v
/-- The state with a virtual instance replaced. -/
def State.setVi (s : State) (v : Nat) (x : Vi) : State :=
  { s with host := { s.host with vis := Sparse.set {} s.host.vis v x } }
/-- HOST_STATS word `w` grows by one (R405). -/
def State.hostStat (s : State) (w : Nat) : State :=
  { s with host := { s.host with stats := Sparse.bump s.host.stats w 1 } }

/-- The cluster of a tile (R44). -/
def clusterOfTile (t : Nat) : Nat := t / 512

/-- The partition that holds cluster `c` (R356). -/
def State.partOfCluster (s : State) (c : Nat) : Option Nat :=
  (List.range 8).find? (fun p => (s.partition p).clusters.getLsbD c)

/-- The partition that holds the cluster of tile `t`. -/
def State.partOfTile (s : State) (t : Nat) : Option Nat := s.partOfCluster (clusterOfTile t)

/-- The clusters of partition `p`, ascending (R48). -/
def State.clustersOf (s : State) (p : Nat) : List Nat :=
  (List.range 8).filter (fun c => (s.partition p).clusters.getLsbD c)

/-- The partition of cluster `c` is HUNG (R509). -/
def State.hungCluster (s : State) (c : Nat) : Bool :=
  match s.partOfCluster c with
  | some p => (s.partition p).state = .hung
  | none => false

/-- A tile is enabled (R59). -/
def State.enabled (s : State) (t : Nat) : Bool :=
  !(s.part.fusedTiles.contains t) && !(s.selfTestFail.contains t) && !(s.disabledTiles.contains t)

/-- The slice and byte that an offset of the striped view names in partition `p` (R48); `none` is OUT_OF_RANGE. -/
def State.striped (s : State) (p o : Nat) : Option (Nat × Nat) :=
  let cl := s.clustersOf p
  let n := 64 * cl.length
  if o < n * sliceBytes then
    let g := o / 4096
    let i := g % n
    match cl[i / 64]? with
    | some c => some (c * 64 + i % 64, g / n * 4096 + o % 4096)
    | none => none
  else none

/-! ### Power domains (R535) -/

/-- The switched domain of a node; `none` for a node of the always-on domain (R292, R535). -/
def domainOf (n : Nat) : Option Nat :=
  match nodeKind n with
  | some (.tile t) => some (clusterOfTile t)
  | some (.slice sl) => some (8 + sl / 64)
  | some (.hbmPort p) => some (16 + p / 16)
  | some (.newen _) => some 18
  | some .almanac => some 19
  | _ => none

/-- The state of a domain. -/
def State.domain (s : State) (d : Nat) : DomainState := Sparse.get .off s.power.domains d

/-- A domain changes its state. -/
def State.setDomain (s : State) (d : Nat) (x : DomainState) : State :=
  { s with power := { s.power with
      domains := Sparse.set .off s.power.domains d x
      since := if x = .on ∨ s.domain d = .on then Sparse.set 0 s.power.since d s.calends else s.power.since } }

/-! ### Objects of the dictionary -/

/-- The value in force of an object held by the service side, or its default. -/
def State.obj (s : State) (index sub dflt : Nat) : Nat :=
  (Sparse.get none s.dict.objs (8 * 2 ^ 24 + index * 256 + sub)).getD dflt

/-- The value in force in cluster `c` of an object of change class B (R19, R204). -/
def State.objIn (s : State) (c index sub dflt : Nat) : Nat :=
  (Sparse.get none s.dict.objs (c * 2 ^ 24 + index * 256 + sub)).getD dflt

/-- A value of unit `u` (a cluster, or 8 for the service side) of an object; a value equal to its default is not listed. -/
def State.setObjOf (s : State) (u index sub dflt v : Nat) : State :=
  let k := u * 2 ^ 24 + index * 256 + sub
  { s with dict := { s.dict with objs := Sparse.set none s.dict.objs k (if v = dflt then none else some v) } }

/-- The service side's value of an object. -/
def State.setObj (s : State) (index sub dflt v : Nat) : State := s.setObjOf 8 index sub dflt v

/-- Objects of indices `lo` to `hi` return to their defaults, in every unit. -/
def State.clearObjs (s : State) (lo hi : Nat) : State :=
  { s with dict := { s.dict with objs := s.dict.objs.filter (fun e =>
      decide (e.1 % 2 ^ 24 / 256 < lo) || decide (hi < e.1 % 2 ^ 24 / 256)) } }

/-! ### Event rings (R494 to R496) -/

/-- Entry `e` written to the next slot, and on its way to the Almanac collector (R494, R525). -/
def EventRing.write (r : EventRing) (cal : Nat) (e : BitVec 64) : EventRing :=
  { r with slots := Sparse.set 0 r.slots (r.written % 64) e, cond := Sparse.set .clean r.cond (r.written % 64) .clean
           written := (r.written + 1) % 2 ^ 48, lastWrite := some cal, coming := r.coming ++ [e] }

/-- Insertion of an entry among those that wait: entries of one cycle in ascending code order (R496). -/
def EventRing.insert (e : BitVec 64) : List (BitVec 64) → List (BitVec 64)
  | [] => [e]
  | x :: xs =>
    if x.extractLsb' 32 32 = e.extractLsb' 32 32 ∧ (e.extractLsb' 24 8).toNat < (x.extractLsb' 24 8).toNat
    then e :: x :: xs else x :: EventRing.insert e xs

/-- An event occurs (R496): written at once where nothing waits and nothing was written this cycle, else it waits, and
beside 4 that wait it is dropped and counted. -/
def EventRing.event (r : EventRing) (cal code payload : Nat) : EventRing :=
  let e : BitVec 64 := BitVec.ofNat 64 ((cal % 2 ^ 32) * 2 ^ 32 + (code % 256) * 2 ^ 24 + payload % 2 ^ 24)
  if r.waiting = [] ∧ r.lastWrite ≠ some cal then r.write cal e
  else if r.waiting.length < 4 then { r with waiting := EventRing.insert e r.waiting }
  else { r with dropped := (r.dropped + 1) % 2 ^ 48 }

/-- A reset empties the ring: waiting entries count as dropped, the entry number is kept (R494, R496). -/
def EventRing.empty (r : EventRing) : EventRing :=
  { r with slots := [], cond := [], waiting := [], dropped := (r.dropped + r.waiting.length) % 2 ^ 48 }

/-- An event of a tile. -/
def Tile.event (x : Tile) (cal code payload : Nat) : Tile := { x with ring := x.ring.event cal code payload }

/-- An event of a service node, by node id. -/
def State.svcEvent (s : State) (node code payload : Nat) : State :=
  let k := node % 4096
  { s with rings := Sparse.set {} s.rings k ((Sparse.get {} s.rings k).event s.calends code payload) }

/-- An event of any node: a tile's ring, or a service node's (R494). -/
def State.nodeEvent (s : State) (node code payload : Nat) : State :=
  if h : node < 4096 then s.setTile ⟨node, h⟩ ((s.tile ⟨node, h⟩).event s.calends code payload)
  else s.svcEvent node code payload

/-- One more in word `w` of the light set of cluster `c` (R491). -/
def State.lightBump (s : State) (c w n : Nat) : State := { s with light := Sparse.bump48 s.light (8 * c + w) n }

/-- A fresh free byte (log entry 6). -/
def State.freeByte (s : State) : BitVec 8 × State := (Config.freeByte s.free, { s with free := s.free + 1 })

/-! ### Word conditions (R302 to R306) -/

/-- A word that every read returns poisoned. -/
def WordCond.bad (c : WordCond) : Bool :=
  match c with
  | .uncorrectable | .marked => true
  | _ => false

/-- The condition of the word that holds address `a`. -/
def State.condAt (s : State) (a : Nat) : WordCond := Sparse.get .clean s.mem.cond (a / 8)

/-- The kind of storage of an address in the error log and the cluster it lies in (R306, R491). -/
def storageOf (s : State) (a : Nat) : Nat × Option Nat :=
  match regionOf s a with
  | .sliceDirect sl _ => (0, some (sl / 64))
  | .tile t _ => (1, some (clusterOfTile t))
  | _ => (2, none)

/-- A new uncorrectable error is entered in the error log, oldest overwritten first (R306). -/
def State.logError (s : State) (a finder : Nat) : State :=
  let kind := (storageOf s a).1
  let e : BitVec 64 := BitVec.ofNat 64 (kind * 2 ^ 62 + finder * 2 ^ 60 + a / 8 * 8)
  let l := s.mem.errorLog ++ [(BitVec.ofNat 64 s.calends, e)]
  { s with mem := { s.mem with errorLog := l.drop (l.length - 16) } }

/-- A new uncorrectable error is counted, logged and, in HBM, written as an event (R303, R306, R325, R495). -/
def State.countUncorrected (s : State) (a finder : Nat) : State :=
  let s := s.logError a finder
  match storageOf s a with
  | (k, some c) =>
    ({ s with memEcc := Sparse.bump s.memEcc (6 * c + 2 * k + 1) 1 }).lightBump c 5 1
  | (_, none) =>
    let (p, off) := hbmTarget a
    let s := { s with hbmCounts := Sparse.bump s.hbmCounts (8 * (p / 4) + 1) 1 }
    s.svcEvent (hbmNode p) 0x50 (bitsAt off 6 24)

/-- A corrected error is counted (R303, R325, R491). -/
def State.countCorrected (s : State) (a : Nat) : State :=
  match storageOf s a with
  | (k, some c) => ({ s with memEcc := Sparse.bump s.memEcc (6 * c + 2 * k) 1 }).lightBump c 4 1
  | (_, none) => { s with hbmCounts := Sparse.bump s.hbmCounts (8 * ((hbmTarget a).1 / 4)) 1 }

/-- What a demand read does to one word it meets (R303). -/
def State.readWord (s : State) (w : Nat) (c : WordCond) : State :=
  match c with
  | .single =>
    if s.mem.writebacks.contains w then s
    else ({ s with mem := { s.mem with writebacks := s.mem.writebacks ++ [w] } }).countCorrected (8 * w)
  | .uncorrectable =>
    if s.mem.marks.contains w then s
    else ({ s with mem := { s.mem with marks := s.mem.marks ++ [w] } }).countUncorrected (8 * w) 0
  | _ => s

/-- Data read from memory: the bytes as a number and one poison bit per byte. -/
structure Loaded where
  val : Nat
  poison : Nat
deriving DecidableEq, Repr

/-- The words of ECC storage that `n` bytes at `a` touch and whose condition is not clean. -/
def State.condsIn (s : State) (a n : Nat) : List (Nat × WordCond) :=
  s.mem.cond.filter (fun e => decide (a < 8 * e.1 + 8) && decide (8 * e.1 < a + n))

/-- One bit per byte for the bytes of `[a, a + n)` that lie in word `w`. -/
def wordMask (a n w : Nat) : Nat :=
  ofBits ((List.range n).map (fun i => decide ((a + i) / 8 = w)))

/-- A read of `n` bytes at `a` (R303): bytes as stored, poison where a word is uncorrectable or marked, and what the read
leaves to be written back, marked, counted and logged. -/
def State.load (s : State) (a n : Nat) : Loaded × State :=
  let ws := s.condsIn a n
  let p := ws.foldl (fun acc e => if e.2.bad then acc ||| wordMask a n e.1 else acc) 0
  (⟨memNat s.mem.cells a n, p⟩, ws.foldl (fun s e => s.readWord e.1 e.2) s)

/-- The condition of one word after a write of `n` bytes at `a` with poison bits `p` (R304). -/
def condAfter (old : WordCond) (a n p w : Nat) : WordCond :=
  let whole := decide (a ≤ 8 * w ∧ 8 * w + 8 ≤ a + n)
  let bad := decide (p &&& wordMask a n w ≠ 0)
  if bad then .marked else if whole then .clean else if old.bad then .marked else .clean

/-- What a write does to the condition of one word it touches: a merge that finds a new uncorrectable word is logged, and
a write-back or a mark that waits for the word is dropped (R303, R304). -/
def State.storeWord (s : State) (a n p w : Nat) : State :=
  let old := Sparse.get .clean s.mem.cond w
  let whole := decide (a ≤ 8 * w ∧ 8 * w + 8 ≤ a + n)
  let s := if !whole && old = .uncorrectable && !(s.mem.marks.contains w) then s.countUncorrected (8 * w) 2 else s
  { s with mem := { s.mem with cond := Sparse.set .clean s.mem.cond w (condAfter old a n p w),
                               writebacks := s.mem.writebacks.erase w, marks := s.mem.marks.erase w } }

/-- A write of `n` bytes at `a` with poison bits `p` (R304). -/
def State.store (s : State) (a n v p : Nat) : State :=
  if n = 0 then s
  else
    let ws := (List.range ((a + n - 1) / 8 - a / 8 + 1)).map (· + a / 8)
    let s := if p = 0 ∧ s.mem.cond = [] then s else ws.foldl (fun s w => s.storeWord a n p w) s
    { s with mem := { s.mem with cells := memWrite s.mem.cells a n v } }

/-- `n` bytes at `a` are zeroed and their words made clean, as a reset or a zeroing does (R148, R335). -/
def State.zero (s : State) (a n : Nat) : State :=
  { s with mem := { s.mem with
      cells := memZero s.mem.cells a n
      cond := s.mem.cond.filter (fun e => decide (8 * e.1 + 8 ≤ a) || decide (a + n ≤ 8 * e.1))
      writebacks := s.mem.writebacks.filter (fun w => decide (8 * w + 8 ≤ a) || decide (a + n ≤ 8 * w))
      marks := s.mem.marks.filter (fun w => decide (8 * w + 8 ≤ a) || decide (a + n ≤ 8 * w)) } }

/-- Bytes of a run as a list, ascending. -/
def bytesOf (v n : Nat) : List Nat := (List.range n).map (fun i => bitsAt v (8 * i) 8)

end Sys2Proof.Machine
end

