-- ==== Sys2Proof/Machine/Flags.lean ====
section
/-! DEFINITION. What an operation leaves beside its result: the sticky flags of R133 with their event, the overflow count
and event of R490 and R495, the counters of a tile (R486, R490) and the tile status register. -/

namespace Sys2Proof.Machine

/-- Word of the counter block (R490): busy, stalled, the first stall reason, DUTY_HOLD, MMA_STEPS, LACE_OPS,
CONV_OVERFLOWS. -/
def wBusy : Nat := 1
def wStalled : Nat := 2
def wReason0 : Nat := 4
def wDutyHold : Nat := 12
def wMmaSteps : Nat := 13
def wLaceOps : Nat := 14
def wConvOverflows : Nat := 15

/-- Counter word `w` of a tile grows by `n`, modulo 2^48 (R486). -/
def Tile.count (x : Tile) (w n : Nat) : Tile := { x with counters := Sparse.bump48 x.counters w n }

/-- A cycle in which the tile holds an instruction that cannot issue, for a stall reason (R151, R487). -/
def Tile.stall (x : Tile) (reason : Nat) : Tile :=
  { (x.count wStalled 1).count (wReason0 + reason) 1 with held := some reason }

/-- CONV_OVF_EVENT in force in the cluster of the tile (R477). -/
def State.convOvfEvent (s : State) (c : Nat) : Bool := s.objIn c 0x3001 0 0 = 1

/-- STRICT_FLAG_EVENT in force in the cluster of the tile (R477). -/
def State.strictFlagEvent (s : State) (c : Nat) : Bool := s.objIn c 0x3001 1 0 = 1

/-- A unit writes `n` equal events (R495, R496): beyond the five a unit can hold, the rest are dropped and counted. -/
def EventRing.events (r : EventRing) (cal code payload n : Nat) : EventRing :=
  let r' := (List.range (min n 6)).foldl (fun r _ => r.event cal code payload) r
  { r' with dropped := (r'.dropped + (n - 6)) % 2 ^ 48 }

/-- `n` equal events of a service node, by node id. -/
def State.svcEvents (s : State) (node code payload n : Nat) : State :=
  let k := node % 4096
  { s with rings := Sparse.set {} s.rings k ((Sparse.get {} s.rings k).events s.calends code payload n) }

/-- `n` element conversions of the tile overflowed (R490): counted one each, with one event each where the object asks
(R477, R495). `entry` is the conversion entry, 0xFF for VCVT or a drain; `fmt` the code of the output format. -/
def Tile.overflows (x : Tile) (evt : Bool) (cal entry fmt n : Nat) : Tile :=
  let x := x.count wConvOverflows n
  if evt then { x with ring := x.ring.events cal 0x04 (entry * 65536 + fmt) n } else x

/-- Sticky flags are set (R133); a flag that goes from 0 to 1 is reported where the object asks (R477, R495). -/
def Tile.raise (x : Tile) (evt : Bool) (cal : Nat) (f : IeeeFlags) : Tile :=
  let new := f.toNat &&& (31 - x.flags.toNat)
  let x := { x with flags := x.flags ||| BitVec.ofNat 5 f.toNat }
  if evt && new ≠ 0 then x.event cal 0x05 new else x

/-- The code of an accumulator kind (R133). -/
def AccKind.code : AccKind → Nat
  | .int => 0 | .fp => 1 | .strict => 2

/-- The kind a code names; 3 is reserved (R133). -/
def AccKind.ofCode (c : Nat) : Option AccKind :=
  match c with
  | 0 => some .int | 1 => some .fp | 2 => some .strict | _ => none

/-- The tile status register (R133). -/
def Tile.statusReg (x : Tile) : Nat :=
  x.flags.toNat + x.early0.toNat * 2 ^ 6 + x.kind0.code * 2 ^ 7 + x.early1.toNat * 2 ^ 9 + x.kind1.code * 2 ^ 10
    + (if x.role = .v then 2 ^ 12 else 0) + x.progLen * 2 ^ 32

/-- A store of `n` bytes at byte offset `o` of the status register (R133): `none` is ILLEGAL_ENCODING. Flags written 1
are cleared, KIND and EARLY replaced, read-only fields kept. -/
def Tile.writeStatusReg (x : Tile) (o n v : Nat) : Option Tile :=
  let mask := (2 ^ (8 * n) - 1) * 2 ^ (8 * o)
  let w := (v % 2 ^ (8 * n)) * 2 ^ (8 * o)
  -- reserved: [63:48], [31:13], [5]
  let reserved := (2 ^ 16 - 1) * 2 ^ 48 + (2 ^ 19 - 1) * 2 ^ 13 + 2 ^ 5
  let merged := (x.statusReg &&& (2 ^ 64 - 1 - mask)) ||| w
  if w &&& reserved ≠ 0 then none
  else
    match AccKind.ofCode (bitsAt merged 7 2), AccKind.ofCode (bitsAt merged 10 2) with
    | some k0, some k1 =>
      some { x with kind0 := k0, kind1 := k1, early0 := merged.testBit 6, early1 := merged.testBit 9,
                    flags := x.flags &&& ~~~(BitVec.ofNat 5 (w % 32)) }
    | _, _ => none

end Sys2Proof.Machine
end

