-- ==== Sys2Proof/Machine/Convert.lean ====
section
/-! DEFINITION. Conversion descriptors (R87 to R92) and the conversion of a run of elements (R79, R91). -/

namespace Sys2Proof.Machine

/-- The fields of a conversion descriptor; `none` for a reserved format (R87). -/
def convFields (e : Nat) : Option ConvOpts :=
  match NumFmt.ofCode (bitsAt e 0 4), NumFmt.ofCode (bitsAt e 4 4) with
  | some src, some dst =>
    some { src := src, dst := dst, rnd := if bitsAt e 8 2 = 0 then .rne else .rtz,
           ovf := if bitsAt e 10 2 = 0 then .sat else .special, strict := e.testBit 12,
           scale := signedOf 8 (bitsAt e 16 8) }
  | _, _ => none

/-- R89: what a write of a descriptor is answered. -/
def checkDescriptor (e : Nat) : Status :=
  if bitsAt e 24 7 ≠ 0 ∨ bitsAt e 13 3 ≠ 0 then .illegalEncoding
  else if 2 ≤ bitsAt e 8 2 ∨ 2 ≤ bitsAt e 10 2 then .badValue
  else
    match convFields e with
    | some o => if convRefused o.src o.dst o.ovf o.strict then .badValue else .ok
    | none => .badValue

/-- The conversion an entry makes: raw for entry 0, none for an entry that is not VALID (R88). -/
inductive ConvMode where
  | raw
  | opts (o : ConvOpts)
deriving DecidableEq, Repr

/-- Entry `id` with value `e` as a conversion; `none` where it is not VALID (R87, R88). -/
def convMode (id e : Nat) : Option ConvMode :=
  if id = 0 then some .raw
  else if e.testBit 31 then (convFields e).map .opts else none

/-- The value in force in cluster `c` of entry `id` of the table of partition `p` (R92, R95). -/
def State.convEntry (s : State) (c p id : Nat) : Nat := if id = 0 then 0 else s.objIn c (0x5010 + 0x100 * p) id 0

/-- Output bytes of `n` source bytes; `none` is BAD_DESCRIPTOR (R91). -/
def convBytes (m : ConvMode) (n : Nat) : Option Nat :=
  match m with
  | .raw => some n
  | .opts o =>
    if 8 * n % o.src.width ≠ 0 then none
    else
      let bits := 8 * n / o.src.width * o.dst.width
      if bits % 8 ≠ 0 then none else some (bits / 8)

/-- Source and output bytes of the smallest group of elements that fills whole bytes on both sides. -/
def convGroup (m : ConvMode) : Nat × Nat :=
  match m with
  | .raw => (1, 1)
  | .opts o =>
    let g := if o.src.width = 4 ∨ o.dst.width = 4 then 2 else 1
    (g * o.src.width / 8, g * o.dst.width / 8)

/-- A converted run: bytes, poison bits per byte, elements that overflowed, flags of strict conversions. -/
structure Converted where
  val : Nat
  poison : Nat
  overflows : Nat
  flags : IeeeFlags

/-- `n` source bytes converted (R79, R91, R165): an element of a poisoned byte marks its output bytes poisoned. -/
def convertRun (m : ConvMode) (n val poison : Nat) : Converted :=
  match m with
  | .raw => ⟨val, poison, 0, {}⟩
  | .opts o =>
    let k := 8 * n / o.src.width
    let els := (List.range k).map (fun i => convertCode o (laneNat val o.src.width i))
    let bad := fun i => decide (bitsAt poison (i * o.src.width / 8) ((o.src.width + 7) / 8) ≠ 0)
    ⟨ofLanes o.dst.width (els.map (fun e => e.1.code)),
     (List.range k).foldl (fun acc i =>
       if bad i then acc ||| ((2 ^ ((o.dst.width + 7) / 8) - 1) <<< (i * o.dst.width / 8)) else acc) 0,
     (els.filter (fun e => e.1.overflow)).length,
     els.foldl (fun f e => f.or e.2) {}⟩

/-- What a conversion in a tile leaves: overflow counts and events, sticky flags (R86, R490, R495). -/
def Tile.converted (x : Tile) (s : State) (c id : Nat) (m : ConvMode) (r : Converted) : Tile :=
  match m with
  | .raw => x
  | .opts o =>
    let fmt := (List.range 12).findIdx (fun k => NumFmt.ofCode k = some o.dst)
    (x.overflows (s.convOvfEvent c) s.calends id fmt r.overflows).raise (s.strictFlagEvent c) s.calends r.flags

end Sys2Proof.Machine
end

