-- ==== Sys2Proof/Machine/Operands.lean ====
section
/-! DEFINITION. Registers and operand forms of tile instructions (R152 to R155, R599), and the one way a tile
instruction issues, waits or faults (R149 to R153, R158, R160, R189). -/

namespace Sys2Proof.Machine

/-! ### Registers -/

/-- Gn. -/
def Tile.greg (x : Tile) (n : BitVec 4) : GReg := Sparse.get {} x.g n.toNat
/-- VQn. -/
def Tile.vreg (x : Tile) (n : BitVec 4) : VReg := Sparse.get {} x.vq n.toNat
/-- Mn. -/
def Tile.mreg (x : Tile) (n : Nat) : MReg := Sparse.get {} x.m (n % 4)
/-- Gn written. -/
def Tile.setG (x : Tile) (n : BitVec 4) (v : GReg) : Tile := { x with g := Sparse.set {} x.g n.toNat v }
/-- VQn written. -/
def Tile.setV (x : Tile) (n : BitVec 4) (v : VReg) : Tile := { x with vq := Sparse.set {} x.vq n.toNat v }
/-- Mn written. -/
def Tile.setM (x : Tile) (n : Nat) (v : MReg) : Tile := { x with m := Sparse.set {} x.m (n % 4) v }

/-- Lane `l` of a VQ register. -/
def VReg.lane (v : VReg) (l : Nat) : Nat := laneNat v.val.toNat 32 l
/-- Poison of lane `l`. -/
def VReg.lanePoison (v : VReg) (l : Nat) : Bool := v.poison.getLsbD l

/-- The immediate of format R sign-extended to 64 bits. -/
def immSext (i : BitVec 32) : BitVec 64 := i.signExtend 64

/-- Operand B of a scalar instruction: Gb, or the sign-extended immediate (R157). -/
def Tile.scalarB (x : Tile) (f : FmtR) : GReg :=
  if f.i then ⟨immSext f.imm, false⟩ else x.greg f.b

/-- Operand B of a vector instruction: VQb, or the raw immediate in every lane (R157). -/
def Tile.vectorB (x : Tile) (f : FmtR) : VReg :=
  if f.i then ⟨BitVec.ofNat 1024 (ofLanes 32 (List.replicate 32 f.imm.toNat)), 0⟩ else x.vreg f.b

/-- The lanes a MSK field makes active, and the poison of the governing mask bits (R155, R599). -/
def Tile.active (x : Tile) (msk : BitVec 3) : BitVec 32 × BitVec 32 :=
  if msk.getLsbD 2 then
    let r := x.mreg (msk.toNat % 4)
    (r.val, r.poison)
  else (BitVec.allOnes 32, 0)

/-- MSK[37:36] is reserved while MSK[38] is 0 (R155). -/
def mskLegal (msk : BitVec 3) : Bool := msk.getLsbD 2 || msk.toNat % 4 = 0

/-- A VQ register from 32 lanes and their poison. -/
def VReg.ofLanes (ls : List Nat) (ps : List Bool) : VReg :=
  ⟨BitVec.ofNat 1024 (Machine.ofLanes 32 ls), BitVec.ofNat 32 (ofBits ps)⟩

/-- The destination of a lane-wise instruction (R155, R599): an active lane takes its result, an inactive lane keeps its
value, and a lane whose mask bit is poisoned is written poisoned. -/
def VReg.update (old : VReg) (act : BitVec 32 × BitVec 32) (res : Nat → Nat) (resP : Nat → Bool) : VReg :=
  VReg.ofLanes
    ((List.range 32).map (fun l => if act.1.getLsbD l then res l else old.lane l))
    ((List.range 32).map (fun l =>
      (if act.1.getLsbD l then resP l else old.lanePoison l) || act.2.getLsbD l))

/-! ### Issue -/

/-- What an instruction does at issue: it waits for a stall reason, faults with a status, or has its effect and passes
control to the next instruction, to a branch target, or past a skipped loop body, or ends the program. -/
inductive Issue where
  | hold (reason : Nat)
  /-- waits, with a message or a mark left by the waiting itself -/
  | holdWith (s : State) (reason : Nat)
  | fault (st : Status)
  /-- faults, with what a read before the fault left -/
  | faultWith (s : State) (st : Status)
  | done (s : State)
  | jump (s : State) (target : Nat)
  | skip (s : State) (last : Nat)
  | halt (s : State)

/-- Instructions of the held program (R153). -/
def Tile.progN (x : Tile) : Nat := x.progLen / 8

/-- The tile is ready to issue the instruction at PC: it runs a task whose program is loaded, has not ended, and no fault
or stop waits (R149, R153, R169, R189, R205). -/
def Tile.canIssue (x : Tile) : Bool :=
  x.task.isSome && !x.ended && !x.stopped && x.fault.isNone && x.asyncFaults.isEmpty && x.bcast.isNone
    && decide (x.pc < x.progN)

/-- The effective duty slot of cluster `c` is an off-slot (R207). -/
def State.offSlot (s : State) (c : Nat) : Bool := decide ((s.seq c).duty ≤ (s.calends / 2000 + c) % 8)

/-- PC and loops after sequential execution passes instruction `pc` (R160): the last body instruction of a loop with
iterations left returns to the first; a loop that is over passes to the one around it. -/
def seqNext (pc : Nat) : List LoopState → Nat × List LoopState
  | [] => (pc + 1, [])
  | l :: ls =>
    if pc = l.last then
      if 1 < l.left then (l.first, { l with left := l.left - 1 } :: ls) else seqNext pc ls
    else (pc + 1, l :: ls)

/-- The tile after PC becomes `pc`; reaching N ends the program (R153). -/
def Tile.goto (x : Tile) (pc : Nat) (loops : List LoopState) : Tile :=
  { x with pc := pc, loops := loops, held := none, ended := x.ended || decide (x.progN ≤ pc) }

/-- A VQ register awaits a Lacing result (R149). -/
def Tile.awaitsLace (x : Tile) (vqs : List (BitVec 4)) : Bool :=
  x.laces.any (fun l => l.op ≠ 11 && vqs.any (fun v => v.toNat = l.dst))

/-- A strict MMA occupies the vector unit (R139). -/
def Tile.strictRunning (x : Tile) : Bool :=
  match x.mmaRun with
  | some o => o.f.strict
  | none => false

/-- The vector unit quantises under the key of a SUM.R in this cycle (R227). -/
def State.keyCycle (s : State) (t : TileId) : Bool := decide ((s.tile t).keyAt = some s.calends)

/-- The instruction at PC faults (R189): nothing further issues. -/
def State.faultAt (s : State) (t : TileId) (st : Status) : State :=
  let x := s.tile t
  s.setTile t { x with fault := some (x.pc, st), held := none }

/-- The state after an instruction of tile `t` did `r` at issue. -/
def finishIssue (t : TileId) (s : State) (r : Issue) : State :=
  match r with
  | .hold k => s.setTile t ((s.tile t).stall k)
  | .holdWith s k => s.setTile t ((s.tile t).stall k)
  | .fault st => s.faultAt t st
  | .faultWith s st => s.faultAt t st
  | .done s =>
    let x := (s.tile t).count wBusy 1
    let (pc, ls) := seqNext x.pc x.loops
    s.setTile t (x.goto pc ls)
  | .jump s target =>
    let x := (s.tile t).count wBusy 1
    s.setTile t (x.goto target (x.loops.filter (fun l => decide (l.first ≤ target) && decide (target ≤ l.last))))
  | .skip s last =>
    let x := (s.tile t).count wBusy 1
    let (pc, ls) := seqNext last x.loops
    s.setTile t (x.goto pc ls)
  | .halt s =>
    let x := (s.tile t).count wBusy 1
    s.setTile t { x with ended := true, held := none }

/-- One issue attempt of an instruction of tile `t` (R149, R150, R155, R156, R188, R207, R510): `legal` is the check of its
encoding, `vec` tells that it needs the vector unit, `vqs` are the VQ registers it reads or writes, `unit` the stall reason of
another unit that cannot accept it. The waits come first: an instruction makes its checks when it issues (R149, R150). A tile
that cannot issue is left as it is. -/
def issueTo (t : TileId) (s : State) (unit : Tile → Option Nat) (legal vec : Bool) (vqs : List (BitVec 4)) (body : Tile → Issue) :
    State :=
  let x := s.tile t
  if !x.canIssue ∨ s.hungCluster (clusterOfTile t.val) then s
  else if s.offSlot (clusterOfTile t.val) then s.setTile t (x.count wDutyHold 1)
  else if (s.condAt (tileAddr t.val (8 * x.pc))).bad then
    ((s.load (tileAddr t.val (8 * x.pc)) 8).2).faultAt t .eccUncorrected
  else if x.awaitsLace vqs || (vec && s.keyCycle t) then finishIssue t s (.hold 3)
  else if vec && x.strictRunning then finishIssue t s (.hold 4)
  else
    match unit x with
    | some reason => finishIssue t s (.hold reason)
    | none => if !legal then s.faultAt t .illegalEncoding else finishIssue t s (body x)

/-- An issue attempt of an instruction that needs no unit but its tile's sequencer and, where `vec` says so, its vector unit. -/
def issue (t : TileId) (s : State) (legal vec : Bool) (vqs : List (BitVec 4)) (body : Tile → Issue) : State :=
  issueTo t s (fun _ => none) legal vec vqs body

/-- Fields of format R that an opcode leaves unused are zero (R155): `useB`, `useC`, `useI`, `useMsk`, `useS`, `useSub`
tell which are used; with I = 0, or where I is not used, IMM is reserved unless `useImm`. -/
def legalR (f : FmtR) (useD useA useB useC useI useMsk useS useSub useImm : Bool) : Bool :=
  (useD || f.d = 0) && (useA || f.a = 0) && (if useB then !(useI && f.i) || f.b = 0 else f.b = 0)
    && (useC || f.c = 0) && (useI || !f.i) && (if useMsk then mskLegal f.msk else f.msk = 0)
    && (useS || !f.s) && (useSub || f.sub = 0) && (useImm || (useI && f.i) || f.imm = 0)

/-- A scalar two-operand instruction (R163). -/
def legalScalar (f : FmtR) : Bool := legalR f true true true false true false false false false

/-- A poisoned control operand faults with ECC_UNCORRECTED (R599), before every other check of the instruction. -/
def guardPoison (ps : List Bool) (k : Issue) : Issue := if ps.any id then .fault .eccUncorrected else k

end Sys2Proof.Machine
end

