-- ==== Sys2Proof/Machine/Stats.lean ====
section
/-! DEFINITION. Tensor statistics and digests (R498 to R502). -/

namespace Sys2Proof.Machine

/-- SUM of a block (R501): rne32 of SUM_EXACT in units of 2^-149; +0 without a finite element. -/
def StatsBlock.sum (b : StatsBlock) : Nat :=
  let v := b.sumExact.toInt
  rne32 (.fin (decide (v < 0)) v.natAbs (-149))

/-- The sixteen words of a block (R501). -/
def StatsBlock.words (b : StatsBlock) : List Nat :=
  [b.digest % 2 ^ 64, b.bytes, b.segments, b.elements, b.nans, b.infs, b.zeros, b.subnormals,
    b.max.toNat * 2 ^ 32 + b.min.toNat, b.sum]
    ++ (List.range 6).map (fun i => bitsAt b.sumExact.toNat (64 * i) 64)

/-- The lesser of two FP32 codes, with 0x7FC0_0000 ignored (R501, R502). -/
def minIgnoring (a b : Nat) : Nat := if a = nan32 then b else if b = nan32 then a else fpMin a b

/-- The greater of two FP32 codes, with 0x7FC0_0000 ignored (R501, R502). -/
def maxIgnoring (a b : Nat) : Nat := if a = nan32 then b else if b = nan32 then a else fpMax a b

/-- An exact finite value in units of 2^-149. Every element of a format of R64 is a whole number of these units, or its
product by a power of two is. -/
def unitsOf149 (neg : Bool) (m : Nat) (e : Int) : Int :=
  let k := e + 149
  let v : Int := if 0 ≤ k then ((m * 2 ^ k.toNat : Nat) : Int) else ((m / 2 ^ (-k).toNat : Nat) : Int)
  if neg then -v else v

/-- The statistics unit takes one element (R501); a poisoned element counts as NaN. -/
def StatsBlock.element (b : StatsBlock) (f : NumFmt) (code : Nat) (poisoned : Bool) : StatsBlock :=
  let b := { b with elements := (b.elements + 1) % 2 ^ 48 }
  if poisoned then { b with nans := (b.nans + 1) % 2 ^ 48 }
  else
    let b := match classOf f code with
      | .nan => { b with nans := (b.nans + 1) % 2 ^ 48 }
      | .infinite => { b with infs := (b.infs + 1) % 2 ^ 48 }
      | .zero => { b with zeros := (b.zeros + 1) % 2 ^ 48 }
      | .subnormal => { b with subnormals := (b.subnormals + 1) % 2 ^ 48 }
      | .normal => b
    match decode f code with
    | .nan => b
    | .inf s =>
      let v := rne32 (.inf s)
      { b with max := BitVec.ofNat 32 (maxIgnoring b.max.toNat v), min := BitVec.ofNat 32 (minIgnoring b.min.toNat v) }
    | .fin s m e =>
      let v := rne32 (.fin s m e)
      { b with max := BitVec.ofNat 32 (maxIgnoring b.max.toNat v), min := BitVec.ofNat 32 (minIgnoring b.min.toNat v),
               sumExact := b.sumExact + BitVec.ofInt 384 (unitsOf149 s m e) }

/-- A segment of `n` bytes whose CRC is `crc` is gathered (R500). -/
def StatsBlock.segment (b : StatsBlock) (crc n : Nat) : StatsBlock :=
  { b with digest := (b.digest + crc) % 2 ^ 64, bytes := (b.bytes + n) % 2 ^ 48,
           segments := (b.segments + 1) % 2 ^ 48 }

/-- Combination of two blocks (R502). -/
def StatsBlock.combine (a b : StatsBlock) : StatsBlock :=
  { digest := (a.digest + b.digest) % 2 ^ 64, bytes := (a.bytes + b.bytes) % 2 ^ 48,
    segments := (a.segments + b.segments) % 2 ^ 48, elements := (a.elements + b.elements) % 2 ^ 48,
    nans := (a.nans + b.nans) % 2 ^ 48, infs := (a.infs + b.infs) % 2 ^ 48, zeros := (a.zeros + b.zeros) % 2 ^ 48,
    subnormals := (a.subnormals + b.subnormals) % 2 ^ 48,
    max := BitVec.ofNat 32 (maxIgnoring a.max.toNat b.max.toNat),
    min := BitVec.ofNat 32 (minIgnoring a.min.toNat b.min.toNat), sumExact := a.sumExact + b.sumExact }

end Sys2Proof.Machine
end

