-- ==== Sys2Proof/Machine/LocalMem.lean ====
section
/-! DEFINITION. A tile's local space (R127 to R133) and the local loads and stores LD, ST, VLD, VST (R164, R165). -/

namespace Sys2Proof.Machine

/-- The rows of the table of R127. -/
inductive LocalRow where
  | store
  | acc (n comp : Bool)
  | tables | scales | zeroPoints
  | ring | counters | status
deriving DecidableEq, Repr

/-- The row that holds all of `n >= 1` bytes at offset `o`; `none` where the access touches a reserved offset or spans
two rows (R130). -/
def localRow (o n : Nat) : Option LocalRow :=
  let within := fun (lo hi : Nat) => decide (lo ≤ o) && decide (o + n ≤ hi)
  if within 0 0x18000 then some .store
  else if within 0x18000 0x18800 then some (.acc false false)
  else if within 0x18800 0x19000 then some (.acc false true)
  else if within 0x19000 0x19800 then some (.acc true false)
  else if within 0x19800 0x1A000 then some (.acc true true)
  else if within 0x1A000 0x1A200 then some .tables
  else if within 0x1A200 0x1AA00 then some .scales
  else if within 0x1AA00 0x1AC00 then some .zeroPoints
  else if within 0x1B000 0x1B200 then some .ring
  else if within 0x1C000 0x1E000 then some .counters
  else if within 0x1E000 0x1E008 then some .status
  else none

/-- Value base of an accumulator (R124, R127). -/
def accBase (n comp : Bool) : Nat := 0x18000 + (if n then 0x1000 else 0) + (if comp then 0x800 else 0)

/-- Key of cell `i` of an accumulator among the poison marks. -/
def accKey (n : Bool) (i : Nat) : Nat := (if n then 512 else 0) + i

/-- A drain holds its accumulator until step 1 has read its last row: ROWS cycles after its start, or until every row is
written (R126). -/
def DrainOp.holds (o : DrainOp) (cal : Nat) : Bool :=
  let rows := bitsAt o.w0.toNat 30 5
  decide (cal < o.start + rows) && decide (o.row < rows)

/-- An accumulator is the target of an MMA or of a drain issued earlier that has not released it (R120). -/
def Tile.accBusy (x : Tile) (cal : Nat) (n : Bool) : Bool :=
  (match x.mmaRun with | some o => o.f.acc = n | none => false)
  || (match x.mmaQueue with | some o => o.f.acc = n | none => false)
  || (match x.drainRun with | some o => o.acc = n && o.holds cal | none => false)
  || (match x.drainQueue with | some o => o.acc = n | none => false)

/-- For a NoC request: the accumulator is the target of a running MMA or held by a drain (R131). -/
def Tile.accHeld (x : Tile) (cal : Nat) (n : Bool) : Bool :=
  (match x.mmaRun with | some o => o.f.acc = n | none => false)
  || (match x.drainRun with | some o => o.acc = n && o.holds cal | none => false)

/-- Poison bits, one per byte, of `n` bytes at offset `o` of an accumulator row that starts at `base` (R132). -/
def Tile.accPoisonMask (x : Tile) (acc : Bool) (base o n : Nat) : Nat :=
  ofBits ((List.range n).map (fun i => Sparse.get false x.accPoison (accKey acc ((o + i - base) / 4))))

/-- The poison marks of the cells that a store of `n` bytes with poison bits `p` touches (R132). -/
def Tile.storeAccPoison (x : Tile) (acc : Bool) (base o n p : Nat) : Tile :=
  let cells := (List.range ((o + n - 1) / 4 - o / 4 + 1)).map (· + o / 4)
  cells.foldl (fun x w =>
    let k := accKey acc (w - base / 4)
    let whole := decide (o ≤ 4 * w ∧ 4 * w + 4 ≤ o + n)
    let bad := (List.range n).any (fun i => p.testBit i && decide ((o + i) / 4 = w))
    let now := bad || (!whole && Sparse.get false x.accPoison k)
    { x with accPoison := Sparse.set false x.accPoison k now }) x

/-- Idle cycles: those since the last reset that were neither busy nor stalled (R486, R488). -/
def Tile.idle (x : Tile) (s : State) : Nat :=
  ((s.calends + 2 ^ 64 - s.countersFrom) % 2 ^ 64 + 2 ^ 49 - Sparse.get 0 x.counters wBusy
    - Sparse.get 0 x.counters wStalled) % 2 ^ 48

/-- Word `w` of the counter block (R490). -/
def State.counterWord (s : State) (t : TileId) (w : Nat) : Nat :=
  let x := s.tile t
  if w = 0 then s.calends
  else if !(s.enabled t.val) then 0
  else if w = 3 then x.idle s
  else if w ≤ wConvOverflows then Sparse.get 0 x.counters w
  else if w = 16 then x.ring.written
  else if w = 17 then x.ring.dropped
  else if 32 ≤ w ∧ w < 62 then Sparse.get 0 (s.initiator t.val).stats (w - 32)
  else if 64 ≤ w ∧ w < 80 then x.block.words.getD (w - 64) 0
  else 0

/-- `n` bytes of a space of 8-byte words given by a function, at byte offset `o`. -/
def wordsNat (f : Nat → Nat) (o n : Nat) : Nat :=
  let first := o / 8
  let last := (o + n - 1) / 8
  let v := ofLanes 64 ((List.range (last - first + 1)).map (fun i => f (first + i)))
  bitsAt v (8 * (o % 8)) (8 * n)

/-- A read of `n >= 1` bytes of a tile's event ring at offset `o` of the ring (R302, R303): words with a single-bit error are
corrected, a new uncorrectable word is counted, logged and marked, and a bad word is returned as stored, poisoned. -/
def State.readRing (s : State) (t : TileId) (o n : Nat) : Loaded × State :=
  let r := (s.tile t).ring
  let met := r.cond.filter (fun e => decide (o < 8 * e.1 + 8 ∧ 8 * e.1 < o + n))
  let poison := met.foldl (fun m e => if e.2.bad then m ||| wordMask o n e.1 else m) 0
  let after := fun (c : WordCond) => if c.bad then WordCond.marked else .clean
  let s := if met = [] then s else
    s.setTile t { s.tile t with ring := { r with cond := met.foldl (fun m e => Sparse.set .clean m e.1 (after e.2)) r.cond } }
  let s := met.foldl (fun s e =>
    match e.2 with
    | .single => s.countCorrected (tileAddr t.val (0x1B000 + 8 * e.1))
    | .uncorrectable => s.countUncorrected (tileAddr t.val (0x1B000 + 8 * e.1)) 0
    | _ => s) s
  (⟨wordsNat (fun w => (Sparse.get 0 r.slots w).toNat) o n, poison⟩, s)

/-- A read of `n >= 1` bytes of a row of the local space at offset `o`. -/
def State.readLocal (s : State) (t : TileId) (row : LocalRow) (o n : Nat) : Loaded × State :=
  let x := s.tile t
  match row with
  | .ring => s.readRing t (o - 0x1B000) n
  | .counters => (⟨wordsNat (s.counterWord t) (o - 0x1C000) n, 0⟩, s)
  | .status => (⟨bitsAt x.statusReg (8 * (o - 0x1E000)) (8 * n), 0⟩, s)
  | .acc a comp =>
    let (r, s) := s.load (tileAddr t.val o) n
    (⟨r.val, r.poison ||| x.accPoisonMask a (accBase a comp) o n⟩, s)
  | _ => s.load (tileAddr t.val o) n

/-- The marked words of an accumulator that hold cells of a store of `n` bytes at offset `o`, or their other halves, pass their
poison to the marks of their cells: poison of an accumulator is the cells' (R132). -/
def State.settleAcc (s : State) (t : TileId) (a comp : Bool) (o n : Nat) : State :=
  let w0 := (o - accBase a comp) / 8
  ((List.range ((o + n - 1 - accBase a comp) / 8 - w0 + 1)).map (· + w0)).foldl (fun s w =>
    [accBase a false, accBase a true].foldl (fun s base =>
      let k := (tileAddr t.val (base + 8 * w)) / 8
      if Sparse.get .clean s.mem.cond k = .marked then
        let x := s.tile t
        ({ s with mem := { s.mem with cond := Sparse.set .clean s.mem.cond k .clean } } : State).setTile t
          { x with accPoison := Sparse.set false (Sparse.set false x.accPoison (accKey a (2 * w)) true) (accKey a (2 * w + 1)) true }
      else s) s) s

/-- A write of `n >= 1` bytes with poison bits `p` into a row that is memory. -/
def State.writeLocal (s : State) (t : TileId) (row : LocalRow) (o n v p : Nat) : State :=
  match row with
  | .acc a comp =>
    let s := (s.store (tileAddr t.val o) n v 0).settleAcc t a comp o n
    s.setTile t ((s.tile t).storeAccPoison a (accBase a comp) o n p)
  | _ => s.store (tileAddr t.val o) n v p

/-- The accumulator wait of an access, for a row (R120). -/
def Tile.rowBusy (x : Tile) (cal : Nat) (row : LocalRow) : Bool :=
  match row with
  | .acc a _ => x.accBusy cal a
  | _ => false

/-- Encoding of LD, ST, VLD and VST (R154, R155, R164). -/
def legalLoad (f : FmtM) (st : Bool) : Bool := f.r1 = 0 && f.msk = 0 && !f.r2 && (!st || !f.sx)
def legalVector (f : FmtM) : Bool := f.r1 = 0 && mskLegal f.msk && f.size = 0 && !f.sx && !f.r2

/-- The address of a local access: Ga + OFF in 64 bits (R164). -/
def localAddr (x : Tile) (f : FmtM) : Nat := ((x.greg f.a).val + f.off.signExtend 64).toNat

/-- LD (R164, R165). -/
def execLd (t : TileId) (f : FmtM) (s : State) : Host.Outcome State Fault Refusal :=
  .next (issue t s (legalLoad f false) false [] (fun x =>
    guardPoison [(x.greg f.a).poison] (
      let o := localAddr x f
      let n := 2 ^ f.size.toNat
      match localRow o n with
      | none => .fault .outOfRange
      | some row =>
        if o % n ≠ 0 then .fault .outOfRange
        else if x.rowBusy s.calends row then .hold 4
        else
          let (r, s) := s.readLocal t row o n
          let v : BitVec 64 :=
            if f.sx then BitVec.ofInt 64 (signedOf (8 * n) r.val) else BitVec.ofNat 64 r.val
          .done (s.setTile t ((s.tile t).setG f.d ⟨v, r.poison ≠ 0⟩)))))

/-- The outcome of a store to a row (R129, R133, R164); a poisoned store makes the command complete ECC_UNCORRECTED. -/
def storeRow (t : TileId) (s : State) (x : Tile) (row : LocalRow) (o n v p : Nat) : Issue :=
  match row with
  | .ring | .counters => .fault .accessLevel
  | .status =>
    match x.writeStatusReg (o - 0x1E000) n v with
    | some x' => .done (s.setTile t { x' with eccSeen := x'.eccSeen || decide (p ≠ 0) })
    | none => .fault .illegalEncoding
  | row =>
    if row = .store ∧ o < x.progLen then .fault .outOfRange
    else if x.rowBusy s.calends row then .hold 4
    else
      let s := s.writeLocal t row o n v p
      .done (s.setTile t { s.tile t with eccSeen := (s.tile t).eccSeen || decide (p ≠ 0) })

/-- ST (R164, R165). -/
def execSt (t : TileId) (f : FmtM) (s : State) : Host.Outcome State Fault Refusal :=
  .next (issue t s (legalLoad f true) false [] (fun x =>
    guardPoison [(x.greg f.a).poison] (
      let o := localAddr x f
      let n := 2 ^ f.size.toNat
      match localRow o n with
      | none => .fault .outOfRange
      | some row =>
        if o % n ≠ 0 then .fault .outOfRange
        else
          let g := x.greg f.d
          storeRow t s x row o n (g.val.toNat % 2 ^ (8 * n)) (if g.poison then 2 ^ n - 1 else 0))))

/-- VLD (R164, R165, R599). -/
def execVld (t : TileId) (f : FmtM) (s : State) : Host.Outcome State Fault Refusal :=
  .next (issue t s (legalVector f) false [f.d] (fun x =>
    guardPoison [(x.greg f.a).poison] (
      let o := localAddr x f
      match localRow o 128 with
      | none => .fault .outOfRange
      | some row =>
        if o % 4 ≠ 0 then .fault .outOfRange
        else if x.rowBusy s.calends row then .hold 4
        else
          let (r, s) := s.readLocal t row o 128
          .done (s.setTile t ((s.tile t).setV f.d ((x.vreg f.d).update (x.active f.msk)
            (fun l => laneNat r.val 32 l) (fun l => laneNat r.poison 4 l ≠ 0)))))))

/-- The runs of neighbouring lanes among those a mask selects: first lane and count. -/
def laneRuns (m : BitVec 32) : List (Nat × Nat) :=
  (List.range 32).foldr (fun l acc =>
    if m.getLsbD l then
      match acc with
      | (a, k) :: r => if a = l + 1 then (l, k + 1) :: r else (l, 1) :: acc
      | [] => [(l, 1)]
    else acc) []

/-- VST (R164, R165, R599): active lanes, and lanes whose mask bit is poisoned, which keep their bytes and are marked. The checks of
R164 are made on the whole 128 bytes, also where inactive lanes alone reach [0, PROG_LEN), the ring or the counters (log
entry 81). -/
def execVst (t : TileId) (f : FmtM) (s : State) : Host.Outcome State Fault Refusal :=
  .next (issue t s (legalVector f) false [f.d] (fun x =>
    guardPoison [(x.greg f.a).poison] (
      let o := localAddr x f
      match localRow o 128 with
      | none => .fault .outOfRange
      | some row =>
        if o % 4 ≠ 0 then .fault .outOfRange
        else
          match row with
          | .ring | .counters => .fault .accessLevel
          | row =>
            if row = .store ∧ o < x.progLen then .fault .outOfRange
            else if x.rowBusy s.calends row then .hold 4
            else
              let v := x.vreg f.d
              let act := x.active f.msk
              let old := memNat s.mem.cells (tileAddr t.val o) 128
              let lanes := act.1 ||| act.2
              let val := ofLanes 32 ((List.range 32).map
                (fun l => if act.1.getLsbD l then v.lane l else laneNat old 32 l))
              let poi := ofLanes 4 ((List.range 32).map
                (fun l => if (act.1.getLsbD l && v.lanePoison l) || act.2.getLsbD l then 15 else 0))
              let s := (laneRuns lanes).foldl (fun s r =>
                s.writeLocal t row (o + 4 * r.1) (4 * r.2) (bitsAt val (32 * r.1) (32 * r.2))
                  (bitsAt poi (4 * r.1) (4 * r.2))) s
              let wrotePoison := lanes.toNat &&& ((v.poison &&& act.1) ||| act.2).toNat ≠ 0
              .done (s.setTile t { s.tile t with eccSeen := (s.tile t).eccSeen || wrotePoison }))))

end Sys2Proof.Machine
end

