-- ==== Sys2Proof/Machine/Wire.lean ====
section
/-! DEFINITION. What travels on the links bit by bit: the header, HDR_CRC and flits of a packet (R250, R251, R274), the
beats of a Lacing message (R216, R217), and the frames of a Newen link with their CRC-32 (R414 to R416). -/

namespace Sys2Proof

open Machine

/-! ### Packets (R250, R251, R274) -/

/-- Header bits [191:0] (R251): every field that HDR_CRC covers. -/
def Packet.covered (p : Packet) : Nat :=
  p.rsv.toNat + p.entry.toNat * 2 ^ 38 + p.vc.toNat * 2 ^ 43 + p.priority.toNat * 2 ^ 45 + p.part.toNat * 2 ^ 47
    + p.vi.toNat * 2 ^ 50 + p.status.toNat * 2 ^ 56 + p.bulk.toNat * 2 ^ 64 + p.ext.isSome.toNat * 2 ^ 65
    + p.poison.toNat * 2 ^ 66 + p.flagsRsv.toNat * 2 ^ 67 + p.conv.toNat * 2 ^ 72 + p.bytes.toNat * 2 ^ 80
    + p.length.toNat * 2 ^ 92 + p.cmd.toNat * 2 ^ 98 + p.tag.toNat * 2 ^ 104 + p.src.toNat * 2 ^ 116
    + p.dest.toNat * 2 ^ 130 + p.address.toNat * 2 ^ 144

/-- CRC-16/IBM-3740 over header bytes 0 to 23 in ascending order (R251). -/
def headerCrc (covered : Nat) : Nat := (bytesOf covered 24).foldl (crcByte 16 0x1021) 0xFFFF

/-- The header with HDR_CRC computed over it, as its sender forms it. -/
def Packet.seal (p : Packet) : Packet := { p with crc := BitVec.ofNat 16 (headerCrc (Packet.covered p)) }

/-- HDR_CRC checks (R252). -/
def Packet.crcOk (p : Packet) : Bool := p.crc.toNat = headerCrc (Packet.covered p)

/-- The 256 header bits (R251). -/
def Packet.header (p : Packet) : Nat := Packet.covered p + p.route.toNat * 2 ^ 192 + p.crc.toNat * 2 ^ 240

/-- The extension flit (R274). -/
def PacketExt.bits (e : PacketExt) : Nat :=
  e.device.toNat + e.rsv7.toNat * 2 ^ 6 + e.node.toNat * 2 ^ 8 + e.rsv31.toNat * 2 ^ 22 + e.responder.toNat * 2 ^ 32
    + e.rsv511.toNat * 2 ^ 38

/-- The extension flit that 512 bits spell (R274). -/
def extOf (v : Nat) : PacketExt :=
  { device := BitVec.ofNat 6 v, rsv7 := BitVec.ofNat 2 (v >>> 6), node := BitVec.ofNat 14 (v >>> 8)
    rsv31 := BitVec.ofNat 10 (v >>> 22), responder := BitVec.ofNat 6 (v >>> 32), rsv511 := BitVec.ofNat 474 (v >>> 38) }

/-- Every reserved bit of the extension flit is zero (R274). -/
def PacketExt.clean (e : PacketExt) : Bool := e.rsv7 = 0 && e.rsv31 = 0 && e.rsv511 = 0

/-- The poison bits of `n` bytes, one per byte, with every 64-bit word poisoned that has a poisoned byte (R284, R286). -/
def wordMarks (n poisoned : Nat) : Nat :=
  if poisoned = 0 then 0
  else
    (List.range ((n + 7) / 8)).foldl (fun m k =>
      if bitsAt poisoned (8 * k) 8 = 0 then m else m ||| (255 <<< (8 * k))) 0 % 2 ^ n

/-- One bit for each of `k` words from word `lo` of `poisoned`. -/
def marksOf (poisoned lo k : Nat) : Nat :=
  (List.range k).foldl (fun m i => if bitsAt poisoned (8 * (lo + i)) 8 = 0 then m else m + 2 ^ i) 0

/-- The flits of a packet with `k` data flits (R250): header flit with the inline payload, extension flit, data flits. -/
def Packet.flits (p : Packet) (k : Nat) : List Flit :=
  ⟨BitVec.ofNat 512 (Packet.header p + bitsAt p.payload 0 256 * 2 ^ 256), BitVec.ofNat 8 (marksOf p.poisoned 0 4 * 16)⟩
    :: ((match p.ext with
        | some e => [⟨BitVec.ofNat 512 (PacketExt.bits e), 0⟩]
        | none => [])
      ++ (List.range k).map (fun i =>
        ⟨BitVec.ofNat 512 (bitsAt p.payload (256 + 512 * i) 512), BitVec.ofNat 8 (marksOf p.poisoned (4 + 8 * i) 8)⟩))

/-- The packet whose header flit, extension flit and data flits have arrived (R250, R251). -/
def packetOf (l : List Flit) : Packet :=
  let f := l.headD ⟨0, 0⟩
  let h := f.bits.toNat
  let ext := h.testBit 65
  let rest := if ext then l.drop 2 else l.drop 1
  let n := bitsAt h 80 12
  let data := bitsAt h 256 256 + (rest.foldr (fun (g : Flit) v => g.bits.toNat + v * 2 ^ 512) 0) * 2 ^ 256
  let words := f.marks.toNat / 16 + (rest.foldr (fun (g : Flit) v => g.marks.toNat + v * 2 ^ 8) 0) * 2 ^ 4
  let poisoned := (List.range (4 + 8 * rest.length)).foldl (fun m i => if words.testBit i then m + 255 * 2 ^ (8 * i) else m) 0
  { crc := BitVec.ofNat 16 (h >>> 240), route := BitVec.ofNat 48 (h >>> 192), address := BitVec.ofNat 48 (h >>> 144)
    dest := BitVec.ofNat 14 (h >>> 130), src := BitVec.ofNat 14 (h >>> 116), tag := BitVec.ofNat 12 (h >>> 104)
    cmd := BitVec.ofNat 6 (h >>> 98), length := BitVec.ofNat 6 (h >>> 92), bytes := BitVec.ofNat 12 n
    conv := BitVec.ofNat 8 (h >>> 72), bulk := h.testBit 64, poison := h.testBit 66, flagsRsv := BitVec.ofNat 5 (h >>> 67)
    status := BitVec.ofNat 8 (h >>> 56), vi := BitVec.ofNat 6 (h >>> 50), part := BitVec.ofNat 3 (h >>> 47)
    priority := BitVec.ofNat 2 (h >>> 45), vc := BitVec.ofNat 2 (h >>> 43), entry := BitVec.ofNat 5 (h >>> 38)
    rsv := BitVec.ofNat 38 h, ext := if ext then some (extOf ((l.getD 1 ⟨0, 0⟩).bits.toNat)) else none
    payload := data % 2 ^ (8 * n), poisoned := poisoned % 2 ^ n }

/-! ### Lacing messages (R216, R217) -/

/-- Beats of a message whose OP in the tag is `op` (R217); an ERR takes one. -/
def laceBeats (op : Nat) (err : Bool) : Nat :=
  if err then 1
  else
    match op with
    | 4 | 5 => 2
    | 6 => 4
    | 13 | 14 => 3
    | _ => 1

/-- The tag of a beat (R216). -/
def laceTag (ctx op : Nat) (last err : Bool) (k : Nat) : Nat :=
  k % 32 + err.toNat * 2 ^ 5 + last.toNat * 2 ^ 6 + op % 16 * 2 ^ 7 + ctx % 32 * 2 ^ 11

/-- The data of beat `b` of a message with OP `op` (R217). -/
def laceBeatData (op b : Nat) (data : List Nat) : Nat :=
  match op with
  | 4 | 5 | 6 => ofLanes 32 ((data.drop (8 * b)).take 8)
  | 13 | 14 => ofLanes 32 (data.map (fun v => bitsAt v (32 * b) 32))
  | 11 => 0
  | _ => ofLanes 32 (data.take 8)

/-- The beats of a message of context `ctx` (R216, R217); `op` is its OP in the tag. A message that names no operation of its
own takes OP 0 in its tag (log entry 93). -/
def LaceMsg.beats (m : LaceMsg) (ctx op : Nat) : List LaceBeat :=
  let idle := op = 15 && m.err.isNone
  let op := if op = 15 then 0 else op
  let n := laceBeats op m.err.isSome
  (List.range n).map (fun b =>
    { tag := BitVec.ofNat 16 (laceTag ctx op (b + 1 = n) m.err.isSome (if op = 6 then m.k else 0))
      data := BitVec.ofNat 256 (match m.err with
        | some st => Status.code st
        | none => laceBeatData op b m.data)
      roots := m.roots, idle := idle })

def LaceBeat.context (b : LaceBeat) : Nat := bitsAt b.tag.toNat 11 5
def LaceBeat.op (b : LaceBeat) : Nat := bitsAt b.tag.toNat 7 4
def LaceBeat.last (b : LaceBeat) : Bool := b.tag.toNat.testBit 6
def LaceBeat.err (b : LaceBeat) : Bool := b.tag.toNat.testBit 5
def LaceBeat.k (b : LaceBeat) : Nat := bitsAt b.tag.toNat 0 5

/-- The tag has a reserved value (R216): OP 15 away from the program lane, a K above 16 or beside another OP than TOPK. -/
def LaceBeat.reserved (b : LaceBeat) : Bool := b.op = 15 || decide (16 < b.k) || (b.op ≠ 6 && b.k ≠ 0)

/-- The message that beats spell, OP as its member gave it: 13 and 14 are the integer sweeps of SUM.R and split-K (R216,
R217). A reserved tag, and an ERR whose status R17 does not give, are ERR with ECC_UNCORRECTED (R216). -/
def laceMsgOf (l : List LaceBeat) : LaceMsg :=
  let f := l.headD { tag := 0, data := 0 }
  let op := if f.op = 13 then 1 else if f.op = 14 then 12 else f.op
  let lanes := fun (w n : Nat) (b : LaceBeat) => (List.range n).map (laneNat b.data.toNat w)
  if l.any LaceBeat.reserved then { err := some .eccUncorrected, op := op, k := 0 }
  else if f.err then
    { err := some ((Status.ofCode (f.data.toNat % 256)).getD .eccUncorrected), op := op, k := f.k }
  else if f.idle then { op := 15, k := 0 }
  else
    let data :=
      match f.op with
      | 13 | 14 => (List.range 8).map (fun i => (l.zipIdx.map (fun e => laneNat e.1.data.toNat 32 i * 2 ^ (32 * e.2))).foldl (· + ·) 0)
      | 4 | 5 | 6 => l.flatMap (lanes 32 8)
      | 11 => []
      | _ => lanes 32 8 f
    { op := op, k := f.k, roots := f.roots, data := data }

/-! ### Link frames (R414 to R416) -/

/-- One bit of CRC-32, reflected (R414). -/
def crc32Bit (c : Nat) : Nat := if c.testBit 0 then (c >>> 1) ^^^ 0xEDB88320 else c >>> 1

/-- One byte of CRC-32. -/
def crc32Byte (c b : Nat) : Nat := (List.range 8).foldl (fun c _ => crc32Bit c) (c ^^^ b)

/-- CRC-32 of bytes `lo` to `hi` - 1 of a little-endian number (R414). -/
def crc32 (v lo hi : Nat) : Nat :=
  (List.range (hi - lo)).foldl (fun c i => crc32Byte c (bitsAt v (8 * (lo + i)) 8)) 0xFFFFFFFF ^^^ 0xFFFFFFFF

/-- `n` bits of a frame from bit `lo` of the header (R415) or, eight a byte, of any byte (R414). -/
def Frame.field (f : Frame) (lo n : Nat) : Nat := bitsAt f.bits.toNat lo n
/-- `n` bytes of a frame from byte `b`. -/
def Frame.byte (f : Frame) (b n : Nat) : Nat := Frame.field f (8 * b) (8 * n)

def Frame.seq (f : Frame) : Nat := Frame.field f 48 16
def Frame.ack (f : Frame) : Nat := Frame.field f 32 16
def Frame.ftype (f : Frame) : Nat := Frame.field f 28 4
/-- SLOT0_VC to SLOT2_VC (R415). -/
def Frame.slotVc (f : Frame) (i : Nat) : Nat := Frame.field f (26 - 2 * i) 2
def Frame.laceValid (f : Frame) : Bool := Frame.field f 21 1 = 1
def Frame.reqCredits (f : Frame) : Nat := Frame.field f 64 12
def Frame.rspCredits (f : Frame) : Nat := Frame.field f 76 12
def Frame.laceCredits (f : Frame) : Nat := Frame.field f 88 12
/-- Slot `i` with its POISON bits (R414, R415). -/
def Frame.slot (f : Frame) (i : Nat) : Flit :=
  ⟨BitVec.ofNat 512 (Frame.byte f (16 + 64 * i) 64), BitVec.ofNat 8 (Frame.field f (104 + 8 * i) 8)⟩
/-- The occupied slots in order, each with its channel. -/
def Frame.slots (f : Frame) : List (Nat × Flit) :=
  ((List.range 3).filter (fun i => Frame.slotVc f i ≠ 0)).map (fun i => (Frame.slotVc f i, Frame.slot f i))
/-- The lace beat, where the frame has one (R414). -/
def Frame.lace (f : Frame) : Option LaceBeat :=
  if Frame.laceValid f then
    some { tag := BitVec.ofNat 16 (Frame.byte f 240 2), data := BitVec.ofNat 256 (Frame.byte f 208 32), roots := f.roots, idle := f.idle }
  else none
/-- The CRC checks (R414). -/
def Frame.crcOk (f : Frame) : Bool := Frame.byte f 252 4 = crc32 f.bits.toNat 0 252

/-- The CRC of a frame whose bytes 0 to 251 stand (R414). -/
def frameOf (v roots : Nat) (idle : Bool) : Frame :=
  let v := v % 2 ^ 2016
  ⟨BitVec.ofNat 2048 (v + crc32 v 0 252 * 2 ^ 2016), roots, idle⟩

/-- The header of a frame (R415): type, SEQ, ACK, slot channels, POISON bytes, credit counts. -/
def frameHeader (ftype seq ack : Nat) (vcs : List Nat) (lace : Bool) (marks : List Nat) (credits : Nat × Nat × Nat) : Nat :=
  lace.toNat * 2 ^ 21 + vcs.getD 2 0 * 2 ^ 22 + vcs.getD 1 0 * 2 ^ 24 + vcs.getD 0 0 * 2 ^ 26 + ftype % 16 * 2 ^ 28
    + ack % 65536 * 2 ^ 32 + seq % 65536 * 2 ^ 48
    + (credits.1 % 4096 + credits.2.1 % 4096 * 2 ^ 12 + credits.2.2 % 4096 * 2 ^ 24
       + ofLanes 8 (marks ++ List.replicate (3 - marks.length) 0) * 2 ^ 40) * 2 ^ 64

/-- A frame of given content (R414, R415): its slots with their channels, and its lace beat with the device of its origin. -/
def mkFrame (ftype seq ack : Nat) (credits : Nat × Nat × Nat) (slots : List (Nat × Flit)) (lace : Option LaceBeat) (origin body : Nat) :
    Frame :=
  let h := frameHeader ftype seq ack (slots.map (·.1)) lace.isSome (slots.map (fun s => s.2.marks.toNat)) credits
  let data := ofLanes 512 (slots.map (fun s => s.2.bits.toNat))
  let l := match lace with
    | some b => b.data.toNat + b.tag.toNat * 2 ^ 256 + origin % 64 * 2 ^ 272
    | none => 0
  frameOf (h + (data + body) * 2 ^ 128 + l * 2 ^ 1664) ((lace.map (·.roots)).getD 0) ((lace.map (·.idle)).getD false)

/-- A reserved bit, byte or value of a frame, or a byte that its type leaves zero (R414 to R417). -/
def Frame.reserved (f : Frame) : Bool :=
  let zero := fun (b n : Nat) => Frame.byte f b n = 0
  let t := Frame.ftype f
  decide (4 < t) || Frame.field f 0 21 ≠ 0 || Frame.field f 100 4 ≠ 0 || Frame.byte f 243 9 ≠ 0
    || (List.range 3).any (fun i => Frame.slotVc f i = 3) || (t ≠ 1 && Frame.seq f ≠ 0)
    || (Frame.laceValid f && Frame.field f (8 * 242 + 6) 2 ≠ 0)
    || (t ≠ 1 && (Frame.laceValid f || Frame.field f 22 6 ≠ 0 || Frame.field f 104 24 ≠ 0 || !(zero 208 35)))
    || ((t = 0 || t = 3) && !(zero 16 192))
    || (t = 2 && !(zero 30 2 && zero 44 164))
    || (t = 4 && !(Frame.byte f 28 1 < 8 && zero 29 179))

/-- A frame is of another type than `k`, whose command it is not. -/
def Frame.other (f : Frame) (k : Nat) : Bool := f.crcOk && f.ftype ≠ k && decide (f.ftype ≤ 4)

end Sys2Proof
end

