-- ==== Sys2Proof/Machine/NetOps.lean ====
section
/-! DEFINITION. The shared operations of the packet network: the switch of a node (R247), route strings (R253, R258),
headers (R251), targets of addresses (R46, R600), standing slots (R261, R262), the issue of a request (R262, R264, R279)
and of a control message (R256). -/

namespace Sys2Proof.Machine

/-! ### Topology and routes -/

/-- The backbone switch of a node (R247). -/
def switchOf (n : Nat) : Nat :=
  match nodeKind n with
  | some (.tile t) => clusterOfTile t
  | some (.slice sl) => sl / 64
  | some (.sequencer c) => c
  | some (.copyEngine e) => if e ≤ 7 then e / 2 else 4 + (e - 8) / 2
  | some (.hbmPort p) => p / 4
  | some (.newen k) => [0, 0, 2, 2, 5, 5, 7, 7].getD k 0
  | _ => 1

/-- The next switch on the way from switch `b` to switch `d` (R254): horizontal links first, then the vertical one.
Switch c stands in half c / 4, row (c / 2) mod 2 and column 2 (c / 4) + c mod 2 (R41). -/
def nextSwitch (b d : Nat) : Nat :=
  let row := b / 2 % 2
  let col := 2 * (b / 4) + b % 2
  let dcol := 2 * (d / 4) + d % 2
  let mk := fun r g => g / 2 * 4 + r * 2 + g % 2
  if col < dcol then mk row (col + 1)
  else if dcol < col then mk row (col - 1)
  else mk (d / 2 % 2) col

/-- The way between two switches crosses the Welt: `some` of the direction and bundle (R37, R254). -/
def weltCrossing (b d : Nat) : Option (Nat × Nat) :=
  if b / 4 = d / 4 then none else some (if b / 4 = 0 then 0 else 1, b / 2 % 2)

/-- The physical lanes that carry the logical lanes of a Welt direction, in the order of the logical lanes: logical lane i is
the (i + 1)-th working physical lane, and lanes past logical lane 255 stay idle (R38, R40). -/
def State.weltMap (s : State) (dir : Nat) : List Nat :=
  ((List.range 264).filter (fun l => !(s.part.fusedLanes.contains (dir, l)) && !(s.weltFailed.contains (dir, l)))).take 256

/-- The physical lanes of a bundle of a Welt direction, lowest logical lane first (R37, R40): row 0 is the north bundle, logical
lanes 0 to 127, row 1 the south bundle. -/
def State.weltBundle (s : State) (dir row : Nat) : List Nat := ((s.weltMap dir).drop (128 * row)).take 128

/-- Working lanes of a Welt direction, of the 256 that carry traffic (R38, R40). -/
def State.weltWorking (s : State) (dir : Nat) : Nat := (s.weltMap dir).length

/-- Westward codes from column `a` to column `b <= a`: X from 8m + 7 where it does not pass `b`, else W (R245). -/
def westCodes (fuel a b : Nat) : List Nat :=
  match fuel with
  | 0 => []
  | k + 1 =>
    if a ≤ b then [] else if a % 8 = 7 ∧ b + 7 ≤ a then 5 :: westCodes k (a - 7) b else 4 :: westCodes k (a - 1) b

/-- Eastward codes from column `a` to column `b >= a`. -/
def eastCodes (fuel a b : Nat) : List Nat :=
  match fuel with
  | 0 => []
  | k + 1 =>
    if b ≤ a then [] else if a % 8 = 0 ∧ a + 7 ≤ b then 5 :: eastCodes k (a + 7) b else 2 :: eastCodes k (a + 1) b

/-- The fewest row moves from column `a` to column `b` under the west-first rule (R258): west moves to a column, east moves
from there. Beside the nearer of the two columns only the one that begins its block can save hops, by the X east of it. -/
def rowCodes (a b : Nat) : List Nat :=
  let way := fun (w : Nat) => westCodes 32 a w ++ eastCodes 32 w b
  let m := min a b
  if (way (m / 8 * 8)).length < (way m).length then way (m / 8 * 8) else way m

/-- Column moves from row `a` to row `b`. -/
def columnCodes (a b : Nat) : List Nat :=
  if a ≤ b then List.replicate (b - a) 3 else List.replicate (a - b) 1

/-- One hop in the mesh of a cluster (R245): the router that a code leads to, or nothing for a port the router lacks. -/
def meshHop (y x code : Nat) : Option (Nat × Nat) :=
  match code with
  | 1 => if 0 < y then some (y - 1, x) else none
  | 2 => if x ≤ 30 then some (y, x + 1) else none
  | 3 => if y < 15 then some (y + 1, x) else none
  | 4 => if 1 ≤ x then some (y, x - 1) else none
  | 5 => if x % 8 = 0 then some (y, x + 7) else if x % 8 = 7 then some (y, x - 7) else none
  | _ => none

/-- Links that the route tables avoid: those marked failed at start-up, and those declared failed whose new tables are loaded
(R246, R295, R296). -/
def State.avoided (s : State) : List LinkId := s.net.failedLinks.filter (fun l => !(s.net.pendingRoutes.contains l))

/-- A router that a search has reached: where, whether an east, north or south move has been made, and the codes, last
first. -/
structure Reached where
  y : Nat
  x : Nat
  turned : Bool
  codes : List Nat
deriving DecidableEq, Repr

/-- One move further in a search: west moves only before any other (R258), and no avoided link. -/
def State.reachNext (s : State) (c : Nat) (r : Reached) : List Reached :=
  [4, 5, 2, 1, 3].filterMap (fun k =>
    match meshHop r.y r.x k with
    | some (y, x) =>
      let west := decide (x < r.x)
      if (west && r.turned) || s.avoided.contains ⟨c, y, x, k⟩ then none else some ⟨y, x, r.turned || !west, k :: r.codes⟩
    | none => none)

/-- Every router that `n` further moves reach, with the fewest moves to each. -/
def State.reach (s : State) (c : Nat) : Nat → List Reached → List Reached → List Reached
  | 0, seen, _ => seen
  | n + 1, seen, front =>
    let new := (front.flatMap (s.reachNext c)).foldl (fun l r =>
      if (seen ++ l).any (fun q => q.y = r.y && q.x = r.x && (!q.turned || r.turned)) then l else l ++ [r]) []
    s.reach c n (seen ++ new) new

/-- The codes of a shortest way from router (y, x) to router (y', x') of a mesh (R258). With no link to avoid it is row moves
and then column moves. -/
def State.meshCodes (s : State) (c y x y' x' : Nat) : Option (List Nat) :=
  if s.avoided = [] then some (rowCodes x x' ++ columnCodes y y')
  else
    let r0 : Reached := ⟨y, x, false, []⟩
    ((s.reach c 15 [r0] [r0]).find? (fun r => r.y = y' && r.x = x')).map (fun r => r.codes.reverse)

/-- The links at a router, by which the route tables leave it out (R246). -/
def linksAt (c y x : Nat) : List LinkId :=
  let out := [1, 2, 3, 4, 5].filterMap (fun k => (meshHop y x k).map (fun r => (⟨c, r.1, r.2, k⟩ : LinkId)))
  let gates := if x = 0 then [⟨c, y, x, 6⟩, ⟨8 + c, y, 0, 6⟩] else if x = 31 then [⟨c, y, x, 6⟩, ⟨8 + c, y, 1, 6⟩] else []
  [0, 1, 2, 3, 4, 5].map (fun k => ⟨c, y, x, k⟩) ++ out ++ gates

/-- A way through a mesh: its codes, and the edge and gate row it uses. -/
structure MeshWay where
  codes : List Nat
  edge : Nat
  row : Nat
deriving DecidableEq, Repr

/-- The shortest way; earlier in the list on a tie. -/
def bestWay (ws : List MeshWay) : Option MeshWay :=
  ws.foldl (fun acc w => match acc with
    | none => some w
    | some b => if w.codes.length < b.codes.length then some w else acc) none

/-- Gates in the order in which the tables prefer them on a tie: those of row `y` first, the west edge first. -/
def gatesFrom (y : Nat) : List (Nat × Nat) := (y :: (List.range 16).filter (· ≠ y)).flatMap (fun r => [(0, r), (1, r)])

/-- The column of a gate's router. -/
def gateColumn (edge : Nat) : Nat := if edge = 0 then 0 else 31

/-- Ways from router (y, x) out of a gate. -/
def State.waysOut (s : State) (c y x : Nat) : List MeshWay :=
  ((gatesFrom y).filter (fun g => !(s.avoided.contains ⟨c, g.2, gateColumn g.1, 6⟩))).filterMap (fun g =>
    (s.meshCodes c y x g.2 (gateColumn g.1)).map (fun cs => ⟨cs ++ [6], g.1, g.2⟩))

/-- Ways from a gate to router (y, x), ending in code 0. -/
def State.waysIn (s : State) (c y x : Nat) : List MeshWay :=
  ((gatesFrom y).filter (fun g => !(s.avoided.contains ⟨8 + c, g.2, g.1, 6⟩))).filterMap (fun g =>
    (s.meshCodes c g.2 (gateColumn g.1) y x).map (fun cs => ⟨cs ++ [0], g.1, g.2⟩))

/-- The unloaded cycles of the way between two switches (R268), or nothing where no packet can take it: a backbone link on it
has failed, or its Welt bundle has no working lane (R40, R254, R296). -/
def State.switchWay (s : State) : Nat → Nat → Nat → Option Nat
  | 0, _, _ => none
  | k + 1, b, d =>
    if b = d then some 0
    else
      let n := nextSwitch b d
      let open_ := match weltCrossing b n with
        | some (dir, row) => !(s.weltBundle dir row).isEmpty
        | none => true
      if open_ && !(s.avoided.contains ⟨16 + n, b, 0, 0⟩) then
        (s.switchWay k n d).map (· + (if (weltCrossing b n).isSome then 6 else 4))
      else none

/-- A route: the codes of the string, the ENTRY value, where the packet begins, and its unloaded cycles to the header's arrival
(R253, R254, R258, R268). -/
structure RouteTo where
  codes : List Nat
  entry : Nat
  start : Place
  cycles : Nat
deriving DecidableEq, Repr

/-- Row and column of a tile in its cluster (R44). -/
def tilePos (t : Nat) : Nat × Nat := (t % 512 / 32, t % 32)

/-- The router and port code of a slice's mesh port (R300). -/
def meshPort (sl : Nat) : Nat × Nat × Nat := if sl % 64 < 32 then (0, sl % 64, 1) else (15, sl % 64 - 32, 3)

/-- The router of a tile or of a slice's mesh port is left out of the tables (R246). -/
def State.routerOut (s : State) (c y x : Nat) : Bool := s.avoided.contains ⟨c, y, x, 0⟩

/-- The route over the backbone (R253, R254). -/
def State.farRoute (s : State) (src dst : Nat) : Option RouteTo :=
  let out : Option (List Nat × Place × Nat) :=
    if src < 4096 then
      let (y, x) := tilePos src
      if s.routerOut (clusterOfTile src) y x then none
      else (bestWay (s.waysOut (clusterOfTile src) y x)).map
        (fun w => (w.codes, .router (clusterOfTile src) y x .out (.node src), 1 + 2 * w.codes.length))
    else some ([], .switch (switchOf src) (.node src), 2)
  let into : Option (List Nat × Nat × Nat) :=
    if dst < 4096 then
      let (y, x) := tilePos dst
      if s.routerOut (clusterOfTile dst) y x then none
      else (bestWay (s.waysIn (clusterOfTile dst) y x)).map
        (fun w => (6 :: w.codes, w.edge * 16 + w.row, 2 * w.codes.length + 1))
    else some ([0], 0, 2)
  match out, s.switchWay 5 (switchOf src) (switchOf dst), into with
  | some (o, pl, a), some b, some (i, e, c) =>
    if (o ++ i).length ≤ 16 then some ⟨o ++ i, e, pl, a + b + c⟩ else none
  | _, _, _ => none

/-- The route inside one mesh: tile to tile, tile to a slice's mesh port and back (R253, R300). -/
def State.nearRoute (s : State) (src dst : Nat) : Option RouteTo :=
  let slice := fun (n : Nat) => decide (0x1000 ≤ n ∧ n < 0x1200)
  let c := switchOf src
  let from_ : Option (Nat × Nat × Nat) :=
    if src < 4096 then some ((tilePos src).1, (tilePos src).2, 1)
    else if slice src then some ((meshPort (src - 0x1000)).1, (meshPort (src - 0x1000)).2.1, 2) else none
  let to_ : Option (Nat × Nat × List Nat × Nat) :=
    if dst < 4096 then some ((tilePos dst).1, (tilePos dst).2, [0], 1)
    else if slice dst ∧ src < 4096 then
      let m := meshPort (dst - 0x1000)
      some (m.1, m.2.1, [m.2.2, 0], 2)
    else none
  if switchOf dst ≠ c then none
  else
    match from_, to_ with
    | some (y, x, a), some (y', x', last, b) =>
      match s.meshCodes c y x y' x' with
      | some cs =>
        if s.routerOut c y x || s.routerOut c y' x' then none
        else if (cs ++ last).length ≤ 16 then some ⟨cs ++ last, 0, .router c y x .near (.node src), a + 2 * cs.length + b⟩ else none
      | none => none
    | _, _ => none

/-- A node that the route tables leave out: a tile that is not enabled (R59). -/
def State.leftOut (s : State) (n : Nat) : Bool := decide (n < 4096) && !(s.enabled n)

/-- Stage of a boot that the straps stop: RECOVERY or TEST, which only a power-on reset leaves (R555). -/
def Power.strapped (x : Power) : Bool := x.stage = 0xE0 || x.stage = 0xF0

/-- Firmware has loaded the route tables (R278, R548). -/
def State.routesLoaded (s : State) : Bool :=
  decide (8 ≤ s.power.stage) && !(Power.strapped s.power) && !s.power.porHeld

/-- The route of a table entry, or `none` where no route reaches the destination (R258, R296): of the two ways, the one with
the least unloaded latency. `mesh` tells the port by which a slice's response leaves (R300). DESIGN CHOICE (log entry 12):
among the routes R258 allows, the model's tables use these. -/
def State.routeVia (s : State) (src dst : Nat) (mesh : Option Bool) : Option RouteTo :=
  if s.leftOut src || s.leftOut dst then none
  else
    match mesh with
    | some true => s.nearRoute src dst
    | some false => s.farRoute src dst
    | none =>
      match s.nearRoute src dst, s.farRoute src dst with
      | some a, some b => if b.cycles < a.cycles then some b else some a
      | some a, none => some a
      | none, b => b

/-- The route that a table gives a packet that begins at its sender. -/
def State.routeTo (s : State) (src dst : Nat) : Option RouteTo := s.routeVia src dst none

/-- A route ends at the mesh port of a slice (R300). -/
def RouteTo.byMesh (r : RouteTo) : Bool :=
  match r.start with
  | .router _ _ _ .near _ => true
  | _ => false

/-- The route of the responses of `dst` to `src` (R296, R300): a slice answers by the port by which it was asked. -/
def State.routeBack (s : State) (src dst : Nat) : Option RouteTo :=
  match nodeKind dst, s.routeTo src dst with
  | some (.slice _), some r => s.routeVia dst src (some (RouteTo.byMesh r))
  | _, _ => s.routeTo dst src

/-- The ROUTE field of a list of codes, unused positions END (R251, R253). -/
def routeField (codes : List Nat) : BitVec 48 :=
  BitVec.ofNat 48 (ofLanes 3 ((codes ++ List.replicate 16 7).take 16))

/-! ### Commands of the network (R255) -/

def cmdRead : Nat := 0x01
def cmdWrite : Nat := 0x02
def cmdWritePull : Nat := 0x03
def cmdPullData : Nat := 0x04
def cmdReadResp : Nat := 0x10
def cmdWriteAck : Nat := 0x11
def cmdPull : Nat := 0x12
def cmdSlotAsk : Nat := 0x20
def cmdSlotGrant : Nat := 0x21
def cmdTallyAdd : Nat := 0x22
def cmdTallyWatch : Nat := 0x23
def cmdTallyMet : Nat := 0x24
def cmdWakeReq : Nat := 0x25
def cmdIsolateNote : Nat := 0x26
def cmdSlotReturn : Nat := 0x27

/-- The virtual channel of a command; a bulk READ_RESP uses VC3 (R255). `none`: a reserved command. -/
def cmdVc (cmd : Nat) (bulk : Bool) : Option Nat :=
  match cmd with
  | 0x01 | 0x02 | 0x03 => some 1
  | 0x04 => some 3
  | 0x10 => some (if bulk then 3 else 2)
  | 0x11 | 0x12 => some 2
  | 0x20 | 0x21 | 0x22 | 0x23 | 0x24 | 0x25 | 0x26 | 0x27 => some 0
  | _ => none

/-- LENGTH of a message (R256): that of the data a READ_RESP or PULL_DATA carries; one with an error status carries none (R276). -/
def cmdLength (cmd bytes status : Nat) : Nat :=
  if (cmd = 0x04 ∨ cmd = 0x10) ∧ status = 0 then (if bytes ≤ 32 then 0 else (bytes - 32 + 63) / 64) else 0

/-- A command that carries data (R297). -/
def cmdCarries (cmd status : Nat) : Bool :=
  cmd = 0x02 || (cmd = 0x04 && status = 0) || (cmd = 0x10 && status = 0)

/-- A packet with every field the sender forms (R251); ROUTE, ENTRY and HDR_CRC are filled when it is sent. -/
def mkPacket (cmd src dst tag addr bytes conv vi part prio status payload poisoned : Nat) : Packet :=
  { crc := 0, route := 0, address := BitVec.ofNat 48 addr, dest := BitVec.ofNat 14 dst, src := BitVec.ofNat 14 src,
    tag := BitVec.ofNat 12 tag, cmd := BitVec.ofNat 6 cmd, length := BitVec.ofNat 6 (cmdLength cmd bytes status),
    bytes := BitVec.ofNat 12 bytes, conv := BitVec.ofNat 8 conv, bulk := false, poison := decide (poisoned ≠ 0),
    flagsRsv := 0, status := BitVec.ofNat 8 status, vi := BitVec.ofNat 6 vi, part := BitVec.ofNat 3 part,
    priority := BitVec.ofNat 2 prio, vc := BitVec.ofNat 2 ((cmdVc cmd false).getD 0), entry := 0, rsv := 0, ext := none,
    payload := payload, poisoned := poisoned }

/-- The network record word of a node counts `n` more (R297): a tile's and any other initiator's. -/
def State.netCount (s : State) (node word n : Nat) : State :=
  let i := s.initiator node
  s.setInitiator node { i with stats := Sparse.bump48 i.stats word n }

/-- A node that keeps a network statistics record (R297, R298). -/
def isInitiator (n : Nat) : Bool :=
  match nodeKind n with
  | some (.slice _) | some (.hbmPort _) | some .almanac | none => false
  | _ => true

/-- What a packet that arrives counts at an initiator (R286, R297, R495): its payload bytes, and its poison. -/
def State.countReceived (s : State) (p : Packet) : State :=
  let n := p.dest.toNat
  if !(isInitiator n) then s
  else
    let s := if cmdCarries p.cmd.toNat p.status.toNat then s.netCount n (20 + p.vc.toNat) p.bytes.toNat else s
    if p.poison ∨ p.poisoned ≠ 0 then (s.netCount n 27 1).nodeEvent n 0x07 p.src.toNat else s

/-- NET_ERRORS word `w` of a cluster, or of the backbone for 8 (R298). -/
def State.netError (s : State) (scope w : Nat) : State :=
  { s with net := { s.net with errors := Sparse.bump s.net.errors (6 * scope + w) 1 } }

/-- The scope of NET_ERRORS in which a node counts. -/
def errorScope (n : Nat) : Nat := if n < 4096 then clusterOfTile n else 8

/-- The porch of domain `d`. -/
def State.porch (s : State) (d : Nat) : Porch := Sparse.get {} s.net.porches d

/-- The isolation shim of a node is active: it was declared dead, is a tile that is not enabled, or its domain failed to
wake (R59, R288, R294). -/
def State.shimActive (s : State) (n : Nat) : Bool :=
  (s.target n).shim || s.leftOut n
    || (match domainOf n with
        | some d => (s.porch d).failed
        | none => false)

/-- A shim discards a packet, and counts it (R289). -/
def State.shimDrop (s : State) : State := { s with net := { s.net with shimDiscards := s.net.shimDiscards + 1 } }

/-- A packet leaves a node (R253, R278, R284, R296): with its route string, ENTRY and HDR_CRC, and every word poisoned that has
a poisoned byte. Before the route tables are loaded nothing is sent; a packet that no route takes is discarded and counted.
`mesh` tells the port of a slice by which it leaves (R300). -/
def State.emitPacket (s : State) (mesh : Option Bool) (p : Packet) : State :=
  if !s.routesLoaded then s
  else
    match s.routeVia p.src.toNat p.dest.toNat mesh with
    | some r =>
      let p := { p with route := routeField r.codes, entry := BitVec.ofNat 5 r.entry
                        poisoned := wordMarks p.bytes.toNat p.poisoned }
      let s := { s with net := { s.net with flights := s.net.flights ++ [⟨r.start, p.seal⟩] } }
      if isInitiator p.src.toNat ∧ cmdCarries p.cmd.toNat p.status.toNat then
        s.netCount p.src.toNat (16 + p.vc.toNat) p.bytes.toNat
      else s
    | none => s.netError (errorScope p.src.toNat) 4

/-- A node sends a packet; the active shim of a dead node discards it (R289). -/
def State.sendBy (s : State) (mesh : Option Bool) (p : Packet) : State :=
  if s.shimActive p.src.toNat then s.shimDrop else s.emitPacket mesh p

/-- A node sends a packet by the route of its table. -/
def State.sendPacket (s : State) (p : Packet) : State := s.sendBy none p

/-- A control message of VC0 (R256): `who` gives VI, PARTITION and PRIORITY (R267, R358). -/
def controlPacket (cmd src dst tag addr : Nat) (who : Nat × Nat × Nat) (status payload : Nat) : Packet :=
  mkPacket cmd src dst tag addr 0 0 who.1 who.2.1 who.2.2 status payload 0

/-- A node sends a control message. -/
def State.sendControl (s : State) (cmd src dst tag addr : Nat) (who : Nat × Nat × Nat) (status payload : Nat) : State :=
  s.sendPacket (controlPacket cmd src dst tag addr who status payload)

/-- VI, PARTITION and PRIORITY of a packet. -/
def packetWho (p : Packet) : Nat × Nat × Nat := (p.vi.toNat, p.part.toNat, p.priority.toNat)

/-! ### Newen ports -/

/-- Newen port `n`. -/
def State.port (s : State) (n : Nat) : NewenPort := Sparse.get {} s.newen n
/-- The state with a Newen port replaced. -/
def State.setPort (s : State) (n : Nat) (x : NewenPort) : State := { s with newen := Sparse.set {} s.newen n x }

/-- LINK_STATE as a number (R434). -/
def LinkState.code (l : LinkState) : Nat :=
  match l with
  | .down => 0 | .training => 1 | .up => 2 | .retraining => 3

/-- A port takes a link state and writes its event (R495). -/
def State.setLink (s : State) (n : Nat) (l : LinkState) (phase : Nat) : State :=
  (s.setPort n { s.port n with link := l, phase := phase }).svcEvent (newenNode n) 0x32 l.code

/-- PORT_ENABLE of a port (R434). -/
def State.portEnabled (s : State) (n : Nat) : Bool := s.obj (0x6100 + 0x10 * n) 0 0 = 1

/-- A port that is DOWN, enabled and powered begins training (R430, R433). -/
def State.startTraining (s : State) (n : Nat) : State :=
  if (s.port n).link = .down ∧ s.portEnabled n ∧ s.domain 18 = .on then s.setLink n .training 1 else s

/-! ### Requests -/

/-- The node that serves an address for a requester of partition `part` (R46 to R52). -/
def State.nodeOfAddr (s : State) (part a : Nat) : Option Nat :=
  match regionOf s a with
  | .hbm => some (hbmNode (hbmTarget a).1)
  | .sliceDirect sl _ => some (sliceNode sl)
  | .sliceStriped o => (s.striped part o).map (fun r => sliceNode r.1)
  | .tile t _ => some t
  | .control svc _ =>
    match nodeKind (0x2000 + svc) with
    | some _ => some (0x2000 + svc)
    | none => none
  | .host _ => some pcieNode
  | .none => none

/-- The slot index of an initiator's tag (R261). -/
def slotIndex (node tag : Nat) : Option Nat :=
  match nodeKind node with
  | some (.tile t) => some t
  | some (.sequencer c) => some (4096 + c)
  | some (.copyEngine e) => some (4104 + 2 * e + tag / 2048 % 2)
  | some (.newen n) => some (4136 + 2 * n + tag / 2048 % 2)
  | some .pcie => some (4152 + tag / 1024 % 4)
  | some .mgmt => if tag / 1024 % 4 < 3 then some (4156 + tag / 1024 % 4) else none
  | some .vigil => some 4159
  | _ => none

/-- The slot bits of a node's tags that name its standing slots at one target, lowest first (R261). -/
def slotTags (node : Nat) : List Nat :=
  match nodeKind node with
  | some (.copyEngine _) | some (.newen _) => [0, 2048]
  | some .pcie => [0, 1024, 2048, 3072]
  | some .mgmt => [0, 1024, 2048]
  | _ => [0]

/-- Tags that share the slot bits `b` of a node: how many there are. -/
def slotSpan (node : Nat) : Nat :=
  match nodeKind node with
  | some (.copyEngine _) | some (.newen _) => 2048
  | some .pcie | some .mgmt => 1024
  | _ => 4096

/-- Reply room of an initiator in bytes (R262). -/
def replyRoom (node : Nat) : Nat :=
  match nodeKind node with
  | some (.tile _) => 16 * 1024
  | some (.copyEngine _) => 512 * 1024
  | some (.newen _) => 1024 * 1024
  | some .pcie => 256 * 1024
  | some (.sequencer _) => 32 * 1024
  | _ => 64 * 1024

/-- Most requests outstanding at once: 8 for a tile, 256 for a copy engine (R262). -/
def requestLimit (node : Nat) : Nat :=
  match nodeKind node with
  | some (.tile _) => 8
  | some (.copyEngine _) => 256
  | _ => 4096

/-- Room reserved for the response of a request (R262). -/
def roomOf (p : Packet) : Nat := if p.cmd.toNat = cmdRead then (p.bytes.toNat + 63) / 64 * 64 else 64

/-- The tag timeout of an initiator's class in cycles (R279, R298). -/
def State.tagLimit (s : State) (node : Nat) : Nat :=
  let sub := match nodeKind node with
    | some (.tile _) => 0
    | some (.sequencer _) => 1
    | some (.copyEngine _) => 2
    | some (.newen _) => 3
    | _ => 4
  s.obj 0x3102 sub 50 * 2000

/-- The standing slot of tag `tag` at target `dst` is free: nothing of it is outstanding there and it is not held
(R262, R280). -/
def slotFree (node : Nat) (i : Initiator) (dst tag : Nat) : Bool :=
  !(i.out.any (fun r => r.pkt.dest.toNat = dst && slotIndex node r.tag = slotIndex node tag))
    && !(i.held.any (fun h => h.1 = dst && slotIndex node h.2 = slotIndex node tag))

/-- The lowest tag from `t` on that no outstanding request has, of at most `k`. -/
def firstFreeTag (i : Initiator) : Nat → Nat → Option Nat
  | 0, _ => none
  | k + 1, t => if i.out.any (fun r => r.tag = t) then firstFreeTag i k (t + 1) else some t

/-- The lowest tag not in use among the `span` tags of the slot bits `b`; a TIMEOUT has freed its tag (R280). -/
def freshTag (i : Initiator) (b span : Nat) : Option Nat := firstFreeTag i (min span (i.out.length + 1)) b

/-- The tag a request would take now, if its slot and its reply room are free (R262). The packet's own TAG gives the bits
that the initiator adds, such as TAG[10] of a Shelf copy (R361). -/
def State.tagNow (s : State) (node : Nat) (p : Packet) : Option Nat :=
  let i := s.initiator node
  if requestLimit node ≤ i.out.length then none
  else if replyRoom node < (i.out.map (fun r => roomOf r.pkt)).foldl (· + ·) 0 + roomOf p then none
  else
    match (slotTags node).find? (fun b => slotFree node i p.dest.toNat b) with
    | some b => freshTag i (b + p.tag.toNat) (slotSpan node)
    | none => none

/-- A request leaves its initiator (R262, R279), or its SLOT_ASK does where the target is a tile (R264). -/
def State.launch (s : State) (node tag : Nat) (p : Packet) (why : Purpose) : State :=
  let p := { p with tag := BitVec.ofNat 12 tag }
  let toTile := decide (p.dest.toNat < 4096)
  let i := s.initiator node
  let r : Req := ⟨tag, p, why, !toTile, s.calends, s.tagLimit node⟩
  let s := s.setInitiator node { i with out := i.out ++ [r] }
  if toTile then
    s.sendControl cmdSlotAsk node p.dest.toNat tag p.address.toNat (packetWho p) 0 0
  else s.sendPacket (if p.cmd.toNat = cmdWritePull then { p with payload := 0, poisoned := 0, poison := false } else p)

/-- What becomes of a request at issue. -/
inductive IssueEnd where
  /-- sent, or its SLOT_ASK sent -/
  | sent (s : State)
  /-- waits for its slot or its reply room -/
  | waits
  /-- ended at issue with a status and nothing sent (R296, R600) -/
  | ended (s : State) (st : Status)

/-- The node that a request goes to (R46, R273, R600): a remote one to its Newen port; one that a far proxy re-issues to the
node its extension flit named, where some node serves its address. -/
def State.requestTarget (s : State) (p : Packet) (why : Purpose) : Option Nat :=
  match why with
  | .far _ => (s.nodeOfAddr p.part.toNat p.address.toNat).map (fun _ => p.dest.toNat)
  | _ => if p.ext.isSome then some p.dest.toNat else s.nodeOfAddr p.part.toNat p.address.toNat

/-- R600 and R296: a request that no node can serve ends OUT_OF_RANGE at issue; one to an unreachable destination ends
TARGET_ISOLATED and is counted. Otherwise it is sent when its slot and its reply room are free (R262) and the route tables are
loaded (R278). -/
def State.issueRequest (s : State) (node : Nat) (p : Packet) (why : Purpose) : IssueEnd :=
  match s.requestTarget p why with
  | none => .ended s .outOfRange
  | some dst =>
    let p := { p with dest := BitVec.ofNat 14 dst }
    if !s.routesLoaded then .waits
    else if (s.routeTo node p.dest.toNat).isNone || (s.routeBack node p.dest.toNat).isNone then
      .ended (s.netError (errorScope node) 4) .targetIsolated
    else
      match s.tagNow node p with
      | some tag => .sent (s.launch node tag p why)
      | none => .waits

/-- A request at an address that may have run past the 48 bits of ADDRESS: there no node could serve it (R46, R600). -/
def State.issueAt (s : State) (node a : Nat) (p : Packet) (why : Purpose) : IssueEnd :=
  if 2 ^ 48 ≤ a then .ended s .outOfRange else s.issueRequest node p why

end Sys2Proof.Machine
end

