-- ==== Sys2Proof/Machine/Network.lean ====
section
/-! DEFINITION. Packets on their way: hops (R253, R254, R259, R284 to R287, R295), arrival at a target's shim, porch and
intake (R252, R262, R265, R289 to R294), service order (R263), isolation (R288 to R291). -/

namespace Sys2Proof.Machine

/-! ### Checks of an arriving packet (R252) -/

/-- A READ, WRITE or WRITE_PULL (R255). -/
def isRequest (cmd : Nat) : Bool := cmd = 1 || cmd = 2 || cmd = 3

/-- Commands that carry BYTES; control messages of VC0 carry none (R256). -/
def carriesBytes (cmd : Nat) : Bool := isRequest cmd || cmd = 4 || cmd = 0x10 || cmd = 0x11 || cmd = 0x12

/-- Commands whose STATUS has a meaning (R251): responses, PULL_DATA, SLOT_GRANT and ISOLATE_NOTE. -/
def carriesStatus (cmd : Nat) : Bool := cmd = 4 || cmd = 0x10 || cmd = 0x11 || cmd = 0x12 || cmd = 0x21 || cmd = 0x26

/-- The checks of R252 that end in ILLEGAL_ENCODING, with the status codes of R17, the extension flit of R274, the slot bits of
R261 and the sizes of R255. -/
def Packet.illegal (p : Packet) : Bool :=
  let cmd := p.cmd.toNat
  let b := p.bytes.toNat
  p.rsv ≠ 0 || p.flagsRsv ≠ 0 || p.ext.any (fun e => !e.clean)
    || cmdVc cmd p.bulk ≠ some p.vc.toNat
    || (if carriesStatus cmd then (Status.ofCode p.status.toNat).isNone else p.status ≠ 0)
    || (carriesBytes cmd && (b = 0 || decide (2048 < b)))
    || (cmd = 2 && decide (32 < b)) || (cmd = 3 && decide (b ≤ 32))
    || p.length.toNat ≠ cmdLength cmd b p.status.toNat
    || (p.entry ≠ 0 && decide (4096 ≤ p.dest.toNat))
    || (nodeKind p.dest.toNat).isNone || (nodeKind p.src.toNat).isNone
    || ((isRequest cmd || cmd = 0x20) && (slotIndex p.src.toNat p.tag.toNat).isNone)

/-- The packet of an arrival command: its CMD is the command's. A packet with a reserved CMD keeps it, whichever command brings
it (R252, R255). -/
def Packet.arriving (p : Packet) (cmd : Nat) : Packet :=
  if (cmdVc p.cmd.toNat p.bulk).isSome then { p with cmd := BitVec.ofNat 6 cmd } else p

/-- A packet that is rejected is answered: a request, or a reserved CMD on the channel of requests (R252; log entry 95). -/
def Packet.answered (p : Packet) : Bool := isRequest p.cmd.toNat || ((cmdVc p.cmd.toNat p.bulk).isNone && p.vc = 1)

/-- What a packet shows as poisoned (R286): its poisoned bytes; with FLAGS.POISON and none of them, a bit past its last word. -/
def Packet.damage (p : Packet) : Nat :=
  if p.poisoned = 0 ∧ p.poison then 2 ^ (8 * ((p.bytes.toNat + 7) / 8)) else p.poisoned

/-- The span of a request crosses a 2 KiB-aligned boundary of its address (R252). -/
def Packet.crosses (p : Packet) : Bool :=
  decide (p.address.toNat / 2048 ≠ (p.address.toNat + p.bytes.toNat - 1) / 2048)

/-- A packet is in flight at a place. -/
def State.fly (s : State) (pl : Place) (p : Packet) : State :=
  { s with net := { s.net with flights := s.net.flights ++ [⟨pl, p⟩] } }

/-- The packet is no longer in flight, where it was. -/
def State.consume (s : State) (p : Packet) : State :=
  let n := p.dest.toNat
  { s with net := { s.net with flights := (s.net.flights.erase ⟨.node n true, p⟩).erase ⟨.node n false, p⟩ } }

/-- The packet has come by the mesh port of its slice (R300). -/
def State.cameByMesh (s : State) (p : Packet) : Bool := s.net.flights.contains ⟨.node p.dest.toNat true, p⟩

/-- The response to a request (R255): TAG, ADDRESS, BYTES, CONV, VI, PARTITION and PRIORITY echoed, SRC and DEST swapped;
data only in a READ_RESP with status OK; a WRITE_ACK for marked data carries FLAGS.POISON (R286). -/
def answerTo (r : Packet) (cmd : Nat) (st : Status) (v poison : Nat) : Packet :=
  let ok := decide (st = .ok) && cmd ≠ cmdWriteAck
  let q := mkPacket cmd r.dest.toNat r.src.toNat r.tag.toNat r.address.toNat r.bytes.toNat r.conv.toNat r.vi.toNat
    r.part.toNat r.priority.toNat (Status.code st) (if ok then v else 0) (if ok then poison else 0)
  { q with ext := r.ext, poison := decide (st = .ok ∧ poison ≠ 0) }

/-- The port by which a response leaves (R300): a slice's own two, any other node's one. -/
def portOf (node : Nat) (mesh : Bool) : Option Bool :=
  match nodeKind node with
  | some (.slice _) => some mesh
  | _ => none

/-- The target of a request sends its response by the port by which the request came (R300). -/
def State.respond (s : State) (r : Packet) (mesh : Bool) (cmd : Nat) (st : Status) (v poison : Nat) : State :=
  s.sendBy (portOf r.dest.toNat mesh) (answerTo r cmd st v poison)

/-- The command of the response that ends a request (R252). -/
def answerCmd (cmd : Nat) : Nat := if cmd = cmdRead then cmdReadResp else cmdWriteAck

/-- A packet that fails HDR_CRC, or a response or control message that is rejected, is discarded and counted (R252). -/
def State.discard (s : State) (p : Packet) : State := s.netError (errorScope p.dest.toNat) 2

/-! ### Shims and isolation (R288 to R291) -/

/-- The porch of domain `d` replaced. -/
def State.setPorch (s : State) (d : Nat) (x : Porch) : State :=
  { s with net := { s.net with porches := Sparse.set {} s.net.porches d x } }

/-- A count of the porches: array 0 PORCH_WAKES, 1 PORCH_PEAK, 2 WAKE_FAILS (R298). -/
def State.porchCount (s : State) (a d v : Nat) : State :=
  { s with net := { s.net with porchCounts := Sparse.set 0 s.net.porchCounts (20 * a + d) v } }

/-- A shim or a porch answers in the place of a target: its packets pass the shim. -/
def State.answerFor (s : State) (p : Packet) (mesh : Bool) (st : Status) : State :=
  let cmd := p.cmd.toNat
  if isRequest cmd then s.emitPacket (portOf p.dest.toNat mesh) (answerTo p (answerCmd cmd) st 0 0)
  else if cmd = cmdSlotAsk then
    s.emitPacket none (controlPacket cmdSlotGrant p.dest.toNat p.src.toNat p.tag.toNat p.address.toNat (packetWho p) (Status.code st) 0)
  else s.shimDrop

/-- An active shim answers a packet that arrives at its target (R289). -/
def State.shimAnswer (s : State) (p : Packet) (mesh : Bool) : State := s.answerFor p mesh .targetIsolated

/-- The packets that the porch of a node's domain holds for it are answered by its shim, and the domain is not woken for them
(R289, R292). -/
def State.emptyPorch (s : State) (n : Nat) : State :=
  match domainOf n with
  | some d =>
    let o := s.porch d
    let mine := o.packets.filter (fun p => p.1.dest.toNat = n)
    let s := s.setPorch d { o with packets := o.packets.filter (fun p => p.1.dest.toNat ≠ n) }
    mine.foldl (fun s p => s.shimAnswer p.1 p.2) s
  | none => s

/-- A trigger for Vigil waits to be taken up, with its detail word (R507, R514). -/
def State.trigger (s : State) (k scope detail : Nat) : State :=
  { s with vigil := { s.vigil with triggers := s.vigil.triggers ++ [(k, scope, detail)] } }

/-- A node that can be declared dead (R288, R291): every node but the management core and Vigil. -/
def canIsolate (n : Nat) : Bool :=
  match nodeKind n with
  | some .mgmt | some .vigil | none => false
  | _ => true

/-- A target is declared dead for the trigger `cause` of R288: its shim becomes active, a note is due for every set bit of
its map in ascending slot index, what waits for it in a porch is answered (R289), and a dead sequencer triggers Vigil (R290,
R291). -/
def State.declareDead (s : State) (n cause : Nat) : State :=
  let x := s.target n
  if x.shim || !(canIsolate n) then s
  else
    let notes := x.shimMap.filterMap (fun e => e.2.map (fun tag => (e.1, tag)))
    let s := s.setTarget n { x with shim := true, notes := notes, shimMap := [], intake := [], pullUsed := 0,
                                    stallSince := none }
    let s := { s with net := { s.net with isolated := s.net.isolated ++ [(n, cause)] } }
    let s := (s.emptyPorch n).svcEvent mgmtNode 0x25 n
    match nodeKind n with
    | some (.sequencer c) =>
      match s.partOfCluster c with
      | some p => s.trigger 3 p n
      | none => s
    | _ => s

/-! ### Service order and pulls (R263, R265) -/

/-- A pulled write's room at a target (R265). -/
def pullRoom (n : Nat) : Nat :=
  match nodeKind n with
  | some (.slice _) => 8192
  | some (.hbmPort _) => 16384
  | some (.tile _) => 4096
  | _ => 2048

/-- Priority 3, or aged (R263). -/
def IntakeEntry.urgent (e : IntakeEntry) : Bool := e.pkt.priority = 3 || e.aged.isSome

/-- The cycle that orders an entry: that of its arrival, or the one in which it aged. -/
def IntakeEntry.place (e : IntakeEntry) : Nat := e.aged.getD e.arrival

/-- Service order (R263): priority, then the cycle, then SRC. -/
def IntakeEntry.before (a b : IntakeEntry) : Bool :=
  let pa := if a.urgent then 3 else a.pkt.priority.toNat
  let pb := if b.urgent then 3 else b.pkt.priority.toNat
  if pa ≠ pb then decide (pb < pa)
  else if a.place ≠ b.place then decide (a.place < b.place)
  else decide (a.pkt.src.toNat < b.pkt.src.toNat)

/-- The first entry in service order among those that satisfy `f`. -/
def firstEntry (f : IntakeEntry → Bool) (l : List IntakeEntry) : Option IntakeEntry :=
  (l.filter f).foldl (fun acc e => match acc with
    | none => some e
    | some b => if e.before b then some e else acc) none

/-- One entry of an intake changed. -/
def Target.updEntry (x : Target) (e : IntakeEntry) (e' : IntakeEntry) : Target :=
  { x with intake := x.intake.map (fun i => if i = e then e' else i) }

/-- PULLs go out while the first pulled write in service order finds room in the pull buffer (R265). -/
def State.sendPulls (s : State) (n : Nat) : Nat → State
  | 0 => s
  | k + 1 =>
    let x := s.target n
    match firstEntry (fun e => e.pkt.cmd.toNat = cmdWritePull && e.phase = .waiting) x.intake with
    | none => s
    | some e =>
      let b := e.pkt.bytes.toNat
      if x.pullUsed + b ≤ pullRoom n then
        let x := { (x.updEntry e { e with phase := .pulling }) with pullUsed := x.pullUsed + b }
        ((s.setTarget n x).respond e.pkt e.mesh cmdPull .ok 0 0).sendPulls n k
      else s

/-- An entry leaves its target with its response: the slot's bit in the shim map is cleared, the pull buffer's room and a
tile's lent entry come back (R264, R265, R290). -/
def State.finishEntry (s : State) (n : Nat) (e : IntakeEntry) (st : Status) (v poison : Nat) : State :=
  let x := s.target n
  let idx := (slotIndex e.pkt.src.toNat e.pkt.tag.toNat).getD 0
  let used := if e.phase = .pulling ∨ e.phase = .pulled ∨ (e.phase = .inService ∧ e.pkt.cmd.toNat = cmdWritePull)
    then e.pkt.bytes.toNat else 0
  let intake := x.intake.erase e
  let x := { x with intake := intake, pullUsed := x.pullUsed - used, shimMap := Sparse.set none x.shimMap idx none,
                    lent := x.lent.filter (fun l => l.1 ≠ idx),
                    stallSince := if intake.isEmpty then none else some s.calends }
  let s := (s.setTarget n x).respond e.pkt e.mesh (answerCmd e.pkt.cmd.toNat) st v poison
  s.sendPulls n (intake.length + 1)

/-! ### Arrival -/

/-- A porch has no room for a packet, which waits where it is (R293). -/
def State.porchFull (s : State) (d : Nat) : Bool := decide (64 ≤ (s.porch d).packets.length)

/-- A packet enters the porch of a domain (R293, R294): one to a cluster in no partition is answered as its target would, one to
an isolated target or to a domain that failed to wake as its shim does; else it waits, and the first one to a sleeping domain
sends WAKE_REQ. -/
def State.porchEnter (s : State) (d : Nat) (p : Packet) (mesh : Bool) : State :=
  let o := s.porch d
  if s.shimActive p.dest.toNat then s.shimAnswer p mesh
  else if d < 16 ∧ (s.partOfCluster (d % 8)).isNone then s.answerFor p mesh .outOfRange
  else
    let asleep := s.domain d = .off || s.domain d = .retain || s.domain d = .deepSleep
    let first := asleep && !o.wakeSent
    let l := o.packets ++ [(p, mesh)]
    let s := s.setPorch d { o with packets := l, wakeSent := o.wakeSent || first,
                                   since := if first then s.calends else o.since }
    let s := s.porchCount 1 d (max (Sparse.get 0 s.net.porchCounts (20 + d)) l.length)
    if first then
      (s.porchCount 0 d (Sparse.get 0 s.net.porchCounts d + 1)).emitPacket none
        (controlPacket cmdWakeReq p.dest.toNat mgmtNode 0 d (0, p.part.toNat, 2) 0 0)
    else s

/-- Packets that a porch has released stand before its domain still (R293). -/
def State.porchOut (s : State) (d : Nat) : Bool :=
  s.net.flights.any (fun f => match f.place with
    | .switch _ (.porch k) => k = d
    | _ => false)

/-- A porch stands in the way of a packet: its domain is not on, or packets wait there (R293). The control slot of the
Almanac port lies before the porch of D19 (R526). -/
def State.porchBlocks (s : State) (n : Nat) : Option Nat :=
  match domainOf n with
  | some 19 => none
  | some d => if s.domain d = .on ∧ (s.porch d).packets = [] then none else some d
  | none => none

/-- A packet that stands before its target while the target's domain is not on (R292): it goes back before the porch, with the
codes from there on. -/
def State.beforePorch (s : State) (p : Packet) : Packet :=
  match s.farRoute (seqNode (switchOf p.dest.toNat)) p.dest.toNat with
  | some r => { p with route := routeField r.codes }
  | none => p

/-- A packet that its checks reject is answered or discarded and counted (R252). -/
def State.reject (s : State) (p : Packet) (mesh : Bool) : State :=
  if Packet.answered p then s.respond p mesh (answerCmd p.cmd.toNat) .illegalEncoding 0 0 else s.discard p

/-- A READ, WRITE or WRITE_PULL arrives at its target (R252, R262, R263, R289, R290). -/
def State.arriveRequest (s : State) (p : Packet) : State :=
  let n := p.dest.toNat
  let mesh := s.cameByMesh p
  let t := s.consume p
  if !p.crcOk then t.discard p
  else
    match t.porchBlocks n with
    | some d => if t.porchFull d then s else t.porchEnter d (t.beforePorch p) mesh
    | none =>
      if t.shimActive n then t.shimAnswer p mesh
      else if Packet.illegal p then t.reject p mesh
      else if Packet.crosses p then t.respond p mesh (answerCmd p.cmd.toNat) .outOfRange 0 0
      else
        let x := t.target n
        let idx := (slotIndex p.src.toNat p.tag.toNat).getD 0
        let x := { x with intake := x.intake ++ [({ pkt := p, arrival := t.calends, mesh := mesh } : IntakeEntry)],
                          shimMap := Sparse.set none x.shimMap idx (some p.tag.toNat),
                          stallSince := if x.intake.isEmpty then some t.calends else x.stallSince }
        ((t.setTarget n x).countReceived p).sendPulls n (x.intake.length + 1)

/-- A control message, response or PULL_DATA that the checks of R252 pass on to `f`; else it is rejected. -/
def State.arriveChecked (s : State) (p : Packet) (f : State → State) : State :=
  let mesh := s.cameByMesh p
  let t := s.consume p
  if !p.crcOk then t.discard p
  else if Packet.illegal p then t.reject p mesh
  else
    match t.porchBlocks p.dest.toNat with
    | some d => if t.porchFull d then s else t.porchEnter d (t.beforePorch p) mesh
    | none => if t.shimActive p.dest.toNat then t.shimAnswer p mesh else f t

/-- NOC_READ (R252, R255, R262, R289). -/
def execNocRead (p : Packet) (s : State) : Host.Outcome State Fault Refusal :=
  .next (s.arriveRequest (Packet.arriving p cmdRead))

/-- NOC_WRITE (R252, R255, R265, R289). -/
def execNocWrite (p : Packet) (s : State) : Host.Outcome State Fault Refusal :=
  .next (s.arriveRequest (Packet.arriving p cmdWrite))

/-- WRITE_PULL (R252, R265, R289). -/
def execWritePull (p : Packet) (s : State) : Host.Outcome State Fault Refusal :=
  .next (s.arriveRequest (Packet.arriving p cmdWritePull))

/-- PULL_DATA (R265, R276, R286): the data stands ready in the pull buffer; a STATUS of TIMEOUT ends the write. -/
def execPullData (p : Packet) (s : State) : Host.Outcome State Fault Refusal :=
  let p := Packet.arriving p cmdPullData
  let n := p.dest.toNat
  .next (s.arriveChecked p (fun s =>
    match (s.target n).intake.find? (fun e => e.pkt.src = p.src && e.pkt.tag = p.tag && e.phase = .pulling) with
    | none => s.discard p
    | some e =>
      let s := s.countReceived p
      if p.status.toNat ≠ 0 then s.finishEntry n e .timeout 0 0
      else
        let e' := { e with phase := .pulled, pkt := { e.pkt with payload := p.payload, poisoned := p.poisoned, poison := p.poison } }
        s.setTarget n ((s.target n).updEntry e e')))

/-- INTAKE_AGED (R263): the entry is served as priority 3 from now on. -/
def execIntakeAged (n : NodeId) (src : NodeId) (tag : BitVec 12) (s : State) : Host.Outcome State Fault Refusal :=
  let x := s.target n.toNat
  match x.intake.find? (fun e => e.pkt.src = src && e.pkt.tag = tag && !e.urgent && e.phase ≠ .inService) with
  | none => .next s
  | some e => .next (s.setTarget n.toNat (x.updEntry e { e with aged := some s.calends }))

/-! ### Entries lent by tiles (R264, R277) -/

/-- SLOT_ASK (R264, R289). -/
def execSlotAsk (p : Packet) (s : State) : Host.Outcome State Fault Refusal :=
  let p := Packet.arriving p cmdSlotAsk
  .next (s.arriveChecked p (fun s =>
    let n := p.dest.toNat
    let x := s.target n
    match slotIndex p.src.toNat p.tag.toNat with
    | some i =>
      let ask : SlotAsk := ⟨i, p.tag.toNat, p.vi.toNat, p.part.toNat, p.priority.toNat⟩
      s.setTarget n { x with asks := x.asks.filter (fun a => a.idx ≠ i) ++ [ask] }
    | none => s))

/-- The initiator of a slot index (R261). -/
def slotNode (i : Nat) : Nat :=
  if i < 4096 then i
  else if i < 4104 then seqNode (i - 4096)
  else if i < 4136 then ceNode ((i - 4104) / 2)
  else if i < 4152 then newenNode ((i - 4136) / 2)
  else if i < 4156 then pcieNode
  else if i < 4159 then mgmtNode
  else vigilNode

/-- The ask that is granted next: round robin over slot indices, starting after the last grant (R264). -/
def nextAsk (asks : List SlotAsk) (last : Option Nat) : Option SlotAsk :=
  let start := match last with
    | some l => l + 1
    | none => 0
  asks.foldl (fun acc a => match acc with
    | none => some a
    | some b => if (a.idx + 4160 - start % 4160) % 4160 < (b.idx + 4160 - start % 4160) % 4160 then some a else acc) none

/-- SLOT_GRANT_SEND (R264): one of a tile's 16 intake entries is lent; the grant echoes the ask (log entry 96). -/
def execSlotGrantSend (t : TileId) (s : State) : Host.Outcome State Fault Refusal :=
  let x := s.target t.val
  if 16 ≤ x.lent.length ∨ s.shimActive t.val ∨ !s.routesLoaded then .next s
  else
    match nextAsk x.asks x.lastGrant with
    | none => .next s
    | some a =>
      let s := s.setTarget t.val { x with asks := x.asks.erase a, lastGrant := some a.idx, lent := x.lent ++ [(a.idx, a.tag)] }
      .next (s.sendControl cmdSlotGrant t.val (slotNode a.idx) a.tag 0 (a.vi, a.part, a.priority) 0 0)

/-- SLOT_RETURN (R277): the entry comes back to the pool; one that was not lent to that initiator is discarded. -/
def execSlotReturn (p : Packet) (s : State) : Host.Outcome State Fault Refusal :=
  let p := Packet.arriving p cmdSlotReturn
  .next (s.arriveChecked p (fun s =>
    let x := s.target p.dest.toNat
    match slotIndex p.src.toNat p.tag.toNat with
    | some i => s.setTarget p.dest.toNat { x with lent := x.lent.erase (i, p.tag.toNat) }
    | none => s))

/-! ### Tallies over the network (R196, R256) -/

/-- A tally value reaches a target (R196). -/
def reaches (v t : BitVec 32) : Bool := decide ((v - t).toNat < 2 ^ 31)

/-- What the sequencer of cluster `c` stamps on a TALLY_MET (R267, R358): the VI of the task that watches, the partition that
holds its cluster, priority 2. -/
def State.tallyWho (s : State) (c vi : Nat) : Nat × Nat × Nat := (vi, (s.partOfCluster c).getD 0, 2)

/-- Tally `n` of the sequencer of cluster `c` grows; watches that it now reaches are answered by TALLY_MET (R196, R256). -/
def State.addTally (s : State) (c n : Nat) (d : BitVec 32) : State :=
  let q := s.seq c
  let v := Sparse.get 0 q.tallies n + d
  let met := q.watches.filter (fun w => w.tally = n && reaches v (BitVec.ofNat 32 w.target))
  let s := s.setSeq c { q with tallies := Sparse.set 0 q.tallies n v, watches := q.watches.filter (fun w => !(met.contains w)) }
  met.foldl (fun s w => s.sendControl cmdTallyMet (seqNode c) w.tile w.tag n (s.tallyWho c w.vi) 0 0) s

/-- TALLY_ADD (R162, R255). -/
def execTallyAdd (p : Packet) (s : State) : Host.Outcome State Fault Refusal :=
  let p := Packet.arriving p cmdTallyAdd
  .next (s.arriveChecked p (fun s =>
    match nodeKind p.dest.toNat with
    | some (.sequencer c) => s.addTally c (p.address.toNat % 256) (BitVec.ofNat 32 p.payload)
    | _ => s.discard p))

/-- TALLY_WATCH (R256): answered at once where the tally has already reached the target. -/
def execTallyWatch (p : Packet) (s : State) : Host.Outcome State Fault Refusal :=
  let p := Packet.arriving p cmdTallyWatch
  .next (s.arriveChecked p (fun s =>
    match nodeKind p.dest.toNat with
    | some (.sequencer c) =>
      let n := p.address.toNat % 256
      let tgt := BitVec.ofNat 32 p.payload
      let q := s.seq c
      if reaches (Sparse.get 0 q.tallies n) tgt then
        s.sendControl cmdTallyMet (seqNode c) p.src.toNat p.tag.toNat n (s.tallyWho c p.vi.toNat) 0 0
      else
        s.setSeq c { q with watches := q.watches.filter (fun w => w.tile ≠ p.src.toNat)
                                         ++ [⟨p.src.toNat, p.tag.toNat, n, tgt.toNat, p.vi.toNat⟩] }
    | _ => s.discard p))

/-- TALLY_MET (R162, R256): the held TWAIT of the tile can issue. -/
def execTallyMet (p : Packet) (s : State) : Host.Outcome State Fault Refusal :=
  let p := Packet.arriving p cmdTallyMet
  .next (s.arriveChecked p (fun s =>
    if h : p.dest.toNat < 4096 then
      let t : TileId := ⟨p.dest.toNat, h⟩
      let x := s.tile t
      match x.watch with
      | some w => if w.tally = p.address.toNat % 256 then s.setTile t { x with watch := some { w with met := true } } else s
      | none => s
    else s.discard p))

/-! ### Porches and wake (R292 to R294) -/

/-- WAKE_REQ (R293): power control begins to wake the domain whose porch sent it. The message names the domain by the node
it was to reach (log entry 14). -/
def execWakeReq (p : Packet) (s : State) : Host.Outcome State Fault Refusal :=
  let p := Packet.arriving p cmdWakeReq
  let s := s.consume p
  if !p.crcOk then .next (s.discard p)
  else if Packet.illegal p then .next (s.reject p false)
  else
    match domainOf p.src.toNat with
    | some d =>
      if s.domain d = .off ∨ s.domain d = .retain ∨ s.domain d = .deepSleep then .next (s.setDomain d .waking) else .next s
    | none => .next (s.discard p)

/-- PORCH_ARRIVAL (R292 to R294): a packet for a domain that is on passes, and so does one to the control slot of the Almanac
port, which does not wake D19 (R526); one that finds the porch full waits at its switch. -/
def execPorchArrival (d : Fin 20) (p : Packet) (s : State) : Host.Outcome State Fault Refusal :=
  let b := switchOf p.dest.toNat
  if domainOf p.dest.toNat = some d.val then
    let t := s.consume p
    if d.val = 19 then .next (t.fly (.node p.dest.toNat false) p)
    else if t.domain d.val = .on ∧ (t.porch d.val).packets = [] ∧ !(t.shimActive p.dest.toNat) ∨ t.porchFull d.val then
      .next (t.fly (.switch b (.node p.src.toNat)) p)
    else .next (t.porchEnter d.val p false)
  else .next s

/-- The HBM ports of a PHY group leave self-refresh (R314, R535). -/
def State.leaveSelfRefresh (s : State) (d : Nat) : State :=
  (List.range 16).foldl (fun s i =>
    let p := 16 * (d - 16) + i
    let h := Sparse.get {} s.hbm p
    { s with hbm := Sparse.set {} s.hbm p { h with selfRefresh := false, powerDown := false } }) s

/-- DOMAIN_ON (R293, R430, R433): a waking domain comes on, and its porch passes its packets inward in order of arrival, before
any that come later; with D18 the enabled ports begin to train. -/
def execDomainOn (d : Fin 20) (s : State) : Host.Outcome State Fault Refusal :=
  if s.domain d.val = .waking then
    let o := s.porch d.val
    let s := (s.setDomain d.val .on).setPorch d.val { o with packets := [], wakeSent := false }
    let s := if d.val = 16 ∨ d.val = 17 then s.leaveSelfRefresh d.val else s
    let s := if d.val = 18 then (List.range 8).foldl (fun s n => s.startTraining n) s else s
    .next { s with net := { s.net with flights := s.net.flights ++ o.packets.map (fun p =>
      ⟨if p.2 then .node p.1.dest.toNat true else .switch (switchOf p.1.dest.toNat) (.porch d.val), p.1⟩) } }
  else .next s

/-- WAKE_FAIL (R294): the domain has not come on, whether or not its WAKE_REQ arrived: every packet the porch holds is answered
as by an active shim, and every later one. -/
def execWakeFail (d : Fin 20) (s : State) : Host.Outcome State Fault Refusal :=
  let o := s.porch d.val
  if s.domain d.val = .waking ∨ (s.domain d.val ≠ .on ∧ o.wakeSent) then
    let s := (s.setDomain d.val .off).setPorch d.val { o with packets := [], wakeSent := false, failed := true }
    let s := s.porchCount 2 d.val (Sparse.get 0 s.net.porchCounts (40 + d.val) + 1)
    .next (o.packets.foldl (fun s p => s.shimAnswer p.1 p.2) s)
  else .next s

/-! ### Isolation (R288, R290) -/

/-- What a shim stamps on a note (log entry 96): no VI, the partition that holds its node's cluster, priority 2. -/
def State.noteWho (s : State) (n : Nat) : Nat × Nat × Nat :=
  (0, (match domainOf n with
       | some d => if d < 16 then (s.partOfCluster (d % 8)).getD 0 else 0
       | none => 0), 2)

/-- ISOLATE_NOTE_SEND (R290): the next note of an active shim. -/
def execIsolateNoteSend (n : NodeId) (s : State) : Host.Outcome State Fault Refusal :=
  if (nodeKind n.toNat).isNone then .fault .noSuchUnit
  else
    let x := s.target n.toNat
    match x.notes with
    | (i, tag) :: rest =>
      let s := s.setTarget n.toNat { x with notes := rest }
      .next (s.emitPacket none (controlPacket cmdIsolateNote n.toNat (slotNode i) tag 0 (s.noteWho n.toNat)
        (Status.code .targetIsolated) 0))
    | [] => .next s

/-- TIMEOUT_REPORT (R288, trigger 2). -/
def execTimeoutReport (n : NodeId) (s : State) : Host.Outcome State Fault Refusal :=
  if (nodeKind n.toNat).isNone then .fault .noSuchUnit
  else
    let window := s.obj 0x3103 3 1000 * 2000
    let l := (s.net.reports ++ [(n.toNat, s.calends)]).filter (fun r : Nat × Nat => decide (s.calends < r.2 + window))
    let s := { s with net := { s.net with reports := l } }
    if s.obj 0x3103 1 1 = 1 ∧ s.obj 0x3103 2 16 ≤ (l.filter (fun r => decide (r.1 = n.toNat))).length
    then .next (s.declareDead n.toNat 2) else .next s

/-- The stall time of a node counts (R288): a Newen port proxy's only while its port is UP. -/
def State.stallCounts (s : State) (n : Nat) : Bool :=
  match nodeKind n with
  | some (.newen k) => (s.port k).link = .up
  | _ => true

/-- DEAD_STALL (R288, trigger 1): the target has held entries and served none for DEAD_STALL_TIME. -/
def execDeadStall (n : NodeId) (s : State) : Host.Outcome State Fault Refusal :=
  if (nodeKind n.toNat).isNone then .fault .noSuchUnit
  else if (s.target n.toNat).intake.isEmpty ∨ !(s.stallCounts n.toNat) then .next s
  else .next (s.declareDead n.toNat 1)

/-- CONTROL_STATE_ERROR (R288, trigger 3). -/
def execControlStateError (n : NodeId) (s : State) : Host.Outcome State Fault Refusal :=
  if (nodeKind n.toNat).isNone then .fault .noSuchUnit else .next (s.declareDead n.toNat 3)

/-! ### Links (R284, R285, R287, R295) -/

/-- Uncorrectable words recorded on a link: with LINK_FAIL_COUNT of them in LINK_FAIL_WINDOW it is declared failed
(R295). -/
def State.linkErrors (s : State) (l : LinkId) (scope k : Nat) : State :=
  if k = 0 then s
  else
    let window := s.obj 0x3105 1 1000 * 2000
    let ws := (s.net.linkWords ++ List.replicate k (l, s.calends)).filter (fun w => decide (s.calends < w.2 + window))
    let s := { s with net := { s.net with linkWords := ws } }
    if s.obj 0x3105 0 4 ≤ (ws.filter (fun w => w.1 = l)).length ∧ !(s.net.failedLinks.contains l) then
      let s := { s with net := { s.net with failedLinks := s.net.failedLinks ++ [l],
                                            pendingRoutes := s.net.pendingRoutes ++ [l] } }
      s.netError scope 5
    else s

/-- The packet after a link that damaged the words `ws` of its payload (R284). -/
def Packet.poisonWords (p : Packet) (ws : List Nat) : Packet :=
  { p with poisoned := p.poisoned ||| (ws.foldl (fun m w => m ||| (255 <<< (8 * w))) 0 % 2 ^ p.bytes.toNat) }

/-- The link behind a packet, the scope of NET_ERRORS in which it counts (a cluster, or 8 for the backbone), and the Welt lane
that carried it (R245, R247, R248, R284). -/
def linkBehind (pl : Place) : Option LinkId × Nat × Option (Nat × Nat) :=
  match pl with
  | .router c y x _ (.mesh k) => (some ⟨c, y, x, k⟩, c, none)
  | .router c _ _ _ (.gate edge row) => (some ⟨8 + c, row, edge, 6⟩, c, none)
  | .router c _ _ _ _ => (none, c, none)
  | .switch b (.gate edge row) => (some ⟨b, row, gateColumn edge, 6⟩, 8, none)
  | .switch _ (.welt dir lane) => (none, 8, some (dir, lane))
  | _ => (none, 8, none)

/-- What a router or switch does with a packet that has come over a link (R284, R285, R287, R295): errors are counted, and
`none` where the packet is discarded. -/
def State.receive (s : State) (p : Packet) (pl : Place) (e : LinkErrors) : State × Option Packet :=
  let (l, scope, welt) := linkBehind pl
  let bad := e.words.length + (if e.header then 1 else 0)
  let net := s.net
  let errs := Sparse.bump (Sparse.bump net.errors (6 * scope) e.corrected) (6 * scope + 1) bad
  let counts := match welt with
    | some (d, lane) => Sparse.bump (Sparse.bump net.weltCounts (264 * d + lane) e.corrected) (264 * (2 + d) + lane) bad
    | none => net.weltCounts
  let failing := match welt with
    | some w => if 0 < bad ∧ !(net.weltFailing.contains w) then net.weltFailing ++ [w] else net.weltFailing
    | none => net.weltFailing
  let s := { s with net := { net with errors := errs, weltCounts := counts, weltFailing := failing } }
  let s := if scope < 8 then (s.lightBump scope 4 e.corrected).lightBump scope 5 bad else s
  let s := match l with
    | some l => s.linkErrors l scope bad
    | none => s
  if e.header then (s.netError scope 2, none) else (s, some (Packet.poisonWords p e.words))

/-! ### Queues and outputs (R257) -/

/-- The queue of an input that a packet takes at a place: the legs within a mesh and in from a gate share the inbound half, and
the lanes of a Welt bundle are one input (R257, R515). -/
def Place.queue (pl : Place) : Place :=
  match pl with
  | .router c y x .near inp => .router c y x .inward inp
  | .switch b (.welt dir _) => .switch b (.welt dir 0)
  | pl => pl

/-- Flits of a packet (R250). -/
def Packet.flitCount (p : Packet) : Nat := 1 + p.ext.isSome.toNat + p.length.toNat

/-- Depth of one half of a queue in flits (R257). -/
def queueDepth (vc : Nat) : Nat := if vc = 0 then 2 else if vc = 1 then 4 else 8

/-- The porch for which a packet at a switch waits apart from all others (R293). -/
def State.boundFor (s : State) (f : Flight) : Option Nat :=
  match f.place with
  | .switch b _ => if b = switchOf f.pkt.dest.toNat then s.porchBlocks f.pkt.dest.toNat else none
  | _ => none

/-- Two packets stand in one queue (R257, R293). -/
def State.sameQueue (s : State) (f g : Flight) : Bool :=
  f.place.queue = g.place.queue && f.pkt.vc = g.pkt.vc && s.boundFor f = s.boundFor g

/-- Flight `i` stands first in its queue; packets keep their order of arrival there (R257). -/
def State.headOfQueue (s : State) (i : Nat) (f : Flight) : Bool := !((s.net.flights.take i).any (s.sameQueue f))

/-- Flits of channel `vc` in the queue of a place: a packet counts with its flits, at most the depth (log entry 94). -/
def State.queueFlits (s : State) (pl : Place) (vc : BitVec 2) : Nat :=
  ((s.net.flights.filter (fun f => f.place.queue = pl.queue && f.pkt.vc = vc)).map
    (fun f => min (queueDepth vc.toNat) (Packet.flitCount f.pkt))).foldl (· + ·) 0

/-- A place has room for one more flit of channel `vc` (R257). The queue of a node that sends is its own, and a destination takes
every packet it receives. -/
def State.hasRoom (s : State) (pl : Place) (vc : BitVec 2) : Bool :=
  let own := match pl with
    | .node _ _ | .router _ _ _ _ (.node _) | .switch _ (.node _) => true
    | _ => false
  own || decide (s.queueFlits pl vc < queueDepth vc.toNat)

/-- A number for an input, for the round robin over inputs (R257). -/
def InPort.number (i : InPort) : Nat :=
  match i with
  | .mesh k => k
  | .gate e r => 8 + 16 * e + r
  | .link b => 40 + b
  | .porch d => 48 + d
  | .welt d l => 128 + 512 * d + l
  | .node n => 2048 + n

/-- The number of an output: of router (c, y, x), or of switch b, and the place it leads to. -/
def outputOf (pl next : Place) : Nat :=
  let to_ := match next with
    | .node n _ => 64 + n
    | .router _ _ _ _ (.mesh k) => k
    | .router _ _ _ _ (.gate e r) => 8 + 16 * e + r
    | .switch b _ => 48 + b
    | _ => 0
  match pl with
  | .router c y x _ _ => ((c * 16 + y) * 32 + x) * 32768 + to_
  | .switch b _ => (4096 + b) * 32768 + to_
  | .node _ _ => to_

/-! ### Where a packet goes (R253, R254, R259) -/

/-- Codes a VC3 packet that came in by a gate may take at router (y, x) (R259): west moves first, then any of N, S, E and
eastward X on a minimal path whose link is not declared failed. Those whose queue has room go before the others. -/
def State.adaptiveCodes (s : State) (c y x dy dx : Nat) : List Nat :=
  let dist := fun (a b : Nat) => (rowCodes b dx).length + (columnCodes a dy).length
  let west := match rowCodes x dx with
    | 4 :: _ => true
    | 5 :: _ => decide (x % 8 = 7)
    | _ => false
  let good := fun k =>
    match meshHop y x k with
    | some (y', x') =>
      decide (dist y' x' + 1 = dist y x) && !(s.net.failedLinks.contains ⟨c, y', x', k⟩)
        && (if west then decide (x' < x) else decide (x ≤ x'))
    | none => false
  let l := [1, 2, 3, 4, 5].filter good
  let room := fun k => match meshHop y x k with
    | some (y', x') => s.hasRoom (.router c y' x' .inward (.mesh k)) 3
    | none => false
  l.filter room ++ l.filter (fun k => !(room k))

/-- The gates a destination switch may choose for a VC3 packet to a tile (R259): the nearer edge, the west one on a tie; of its
working gates those with room, the destination's row first, and then the others. -/
def State.gateChoices (s : State) (c dy dx : Nat) : List (Nat × Nat) :=
  let edge := if (rowCodes 31 dx).length < (rowCodes 0 dx).length then 1 else 0
  let l := ((dy :: (List.range 16).filter (· ≠ dy)).map (fun r => (edge, r))).filter
    (fun g => !(s.net.failedLinks.contains ⟨8 + c, g.2, g.1, 6⟩))
  let room := fun (g : Nat × Nat) => s.hasRoom (.router c g.2 (gateColumn g.1) .inward (.gate g.1 g.2)) 3
  l.filter room ++ l.filter (fun g => !(room g))

/-- What a hop does with a packet. -/
inductive HopTo where
  /-- it goes on, with its route string as it then is -/
  | to (pl : Place) (p : Packet)
  /-- it enters a porch -/
  | porch (d : Nat)
  /-- it is discarded as a misroute (R253, R295) -/
  | lost
  /-- it waits where it is -/
  | stays
deriving DecidableEq, Repr

/-- The route string after a code is consumed (R253). -/
def Packet.shift (p : Packet) : Packet := { p with route := (p.route >>> 3) ||| (7#48 <<< 45) }

/-- The way on from a mesh router (R246, R253, R259, R295): the port that the packet's code names, nothing while the cluster's
compute domain is not on. -/
def State.meshWay (s : State) (c y x : Nat) (leg : Leg) (p : Packet) (alt : Nat) : HopTo :=
  let adaptive := p.vc = 3 && leg = .inward
  let (dy, dx) := tilePos p.dest.toNat
  let choices := s.adaptiveCodes c y x dy dx
  let code :=
    if adaptive then (if y = dy ∧ x = dx then 0 else choices.getD (alt % choices.length) 7) else p.route.toNat % 8
  let p := if adaptive then p else Packet.shift p
  let across := fun (l : LinkId) (pl : Place) => if s.net.failedLinks.contains l then .lost else .to pl p
  if s.domain c ≠ .on then .stays
  else
    match code with
    | 0 => .to (.node (c * 512 + y * 32 + x) false) p
    | 6 => if x = 0 ∨ x = 31 then across ⟨c, y, x, 6⟩ (.switch c (.gate (if x = 0 then 0 else 1) y)) else .lost
    | 7 => .lost
    | k =>
      match meshHop y x k with
      | some (y', x') => across ⟨c, y', x', k⟩ (.router c y' x' leg (.mesh k))
      | none =>
        -- the mesh port of a slice (R300); the string's last code is consumed there
        if y = 0 ∧ k = 1 then .to (.node (sliceNode (c * 64 + x)) true) (Packet.shift p)
        else if y = 15 ∧ k = 3 then .to (.node (sliceNode (c * 64 + 32 + x)) true) (Packet.shift p)
        else .lost

/-- The lowest logical lane of a Welt bundle that is free in this cycle, as its physical lane (R248). -/
def State.freeLane (s : State) (dir row : Nat) : Option Nat :=
  (s.weltBundle dir row).find? (fun l => !(s.net.weltBusy.any (fun w => w.1 = dir && w.2.1 = l && decide (s.calends < w.2.2))))

/-- The way on from a backbone switch (R253, R254, R259, R293): towards the switch of DEST without consuming a code; at it, to
the attached node or through a gate, or into the porch before them. -/
def State.switchHop (s : State) (b : Nat) (inp : InPort) (p : Packet) (alt : Nat) : HopTo :=
  let n := p.dest.toNat
  let released := match inp with
    | .porch _ => true
    | _ => false
  if b ≠ switchOf n then
    let b' := nextSwitch b (switchOf n)
    match weltCrossing b b' with
    | none => .to (.switch b' (.link b)) p
    | some (dir, row) =>
      match s.freeLane dir row with
      | some lane => .to (.switch b' (.welt dir lane)) p
      | none => .stays
  else
    let code := p.route.toNat % 8
    let q := Packet.shift p
    let on := fun (h : HopTo) =>
      match s.porchBlocks n with
      | some d => if s.porchFull d then .stays else .porch d
      | none => if !released && (domainOf n).any s.porchOut then .stays else h
    if code = 0 ∧ 4096 ≤ n then on (.to (.node n false) q)
    else if code = 6 ∧ n < 4096 then
      let (dy, dx) := tilePos n
      let gates := s.gateChoices b dy dx
      let (edge, row) :=
        if p.vc = 3 then gates.getD (alt % gates.length) (p.entry.toNat / 16, p.entry.toNat % 16)
        else (p.entry.toNat / 16, p.entry.toNat % 16)
      if s.net.failedLinks.contains ⟨8 + b, row, edge, 6⟩ then .lost
      else on (.to (.router b row (gateColumn edge) .inward (.gate edge row)) q)
    else .lost

/-- What the next hop of a packet would do. -/
def State.hopTo (s : State) (f : Flight) (alt : Nat) : HopTo :=
  match f.place with
  | .node _ _ => .stays
  | .router c y x leg _ => s.meshWay c y x leg f.pkt alt
  | .switch b inp => s.switchHop b inp f.pkt alt

/-- The router or switch of a place. -/
def Place.unit (pl : Place) : Place :=
  match pl with
  | .router c y x _ _ => .router c y x .inward (.mesh 0)
  | .switch b _ => .switch b (.link 0)
  | pl => pl

/-- The input of a place. -/
def Place.input (pl : Place) : Nat :=
  match pl with
  | .router _ _ _ _ inp | .switch _ inp => inp.number
  | .node _ _ => 0

/-- Packets that an output could serve now: first in their queues, bound for it, with room ahead (R257). -/
def State.rivals (s : State) (f : Flight) (out : Nat) : List Flight :=
  s.net.flights.zipIdx.filterMap (fun e =>
    if e.1.place.unit = f.place.unit && s.headOfQueue e.2 e.1 then
      match s.hopTo e.1 0 with
      | .to pl _ => if outputOf e.1.place pl = out && s.hasRoom pl e.1.pkt.vc then some e.1 else none
      | _ => none
    else none)

/-- The turn that a packet has at an output: fewest first, round robin over VC1 to VC3 and, in a channel, over inputs (R257).
VC0 goes before all. -/
def turnOf (last : Nat × Nat × Nat × Nat) (f : Flight) : Nat :=
  let vc := f.pkt.vc.toNat
  if vc = 0 then 0
  else
    let seen := if vc = 1 then last.2.1 else if vc = 2 then last.2.2.1 else last.2.2.2
    1 + (vc + 2 - last.1) % 3 * 65536 + (f.place.input + 65535 - seen) % 65536

/-- The output serves this packet next (R257). -/
def State.served (s : State) (f : Flight) (out : Nat) : Bool :=
  let last := Sparse.get (3, 0, 0, 0) s.net.served out
  (s.rivals f out).all (fun g => decide (turnOf last f ≤ turnOf last g))

/-- An output has served a packet (R257). -/
def State.serveOut (s : State) (f : Flight) (out : Nat) : State :=
  let vc := f.pkt.vc.toNat
  let l := Sparse.get (3, 0, 0, 0) s.net.served out
  let i := f.place.input
  if vc = 0 then s
  else
    let l := (vc, if vc = 1 then i else l.2.1, if vc = 2 then i else l.2.2.1, if vc = 3 then i else l.2.2.2)
    { s with net := { s.net with served := Sparse.set (3, 0, 0, 0) s.net.served out l } }

/-- A Welt lane is in use for the flits of a packet (R248). -/
def State.useLane (s : State) (pl : Place) (p : Packet) : State :=
  match pl with
  | .switch _ (.welt dir lane) =>
    let l := s.net.weltBusy.filter (fun w => decide (s.calends < w.2.2))
    { s with net := { s.net with weltBusy := l ++ [(dir, lane, s.calends + Packet.flitCount p)] } }
  | _ => s

/-- A packet is discarded as a misroute (R253). -/
def State.misroute (s : State) (scope : Nat) : State := s.netError scope 3

/-- ROUTER_HOP (R245 to R259, R284 to R287, R293, R295): the router or switch at which packet `i` of those in flight stands first
in its queue checks it (`errs`) and passes it on, where the next queue has room and the output serves it next. Where R259 leaves
the way open, `alt` chooses among the ways it allows. -/
def execRouterHop (i : Nat) (e : LinkErrors) (alt : Nat) (s : State) : Host.Outcome State Fault Refusal :=
  match s.net.flights[i]? with
  | none => .next s
  | some f =>
    if !(s.headOfQueue i f) then .next s
    else
      let scope := (linkBehind f.place).2.1
      let pass := fun (k : State → Packet → State) =>
        let r := ({ s with net := { s.net with flights := s.net.flights.eraseIdx i } }).receive f.pkt f.place e
        Host.Outcome.next (match r.2 with
          | some p => k r.1 p
          | none => r.1)
      match s.hopTo f alt with
      | .stays => .next s
      | .lost => pass (fun s _ => s.misroute scope)
      | .porch d => pass (fun s p => s.porchEnter d p false)
      | .to pl q =>
        let out := outputOf f.place pl
        if s.hasRoom pl f.pkt.vc && s.served f out then
          pass (fun s p => ((s.serveOut f out).useLane pl p).fly pl { p with route := q.route })
        else .next s

/-- ROUTES_RECOMPUTED (R295): firmware has loaded tables that avoid every link declared failed, and records the event. -/
def execRoutesRecomputed (s : State) : Host.Outcome State Fault Refusal :=
  .next (({ s with net := { s.net with pendingRoutes := [] } }).svcEvent mgmtNode 0x26 0)

end Sys2Proof.Machine
end

