-- ==== Sys2Proof/Machine/Service.lean ====
section
/-! DEFINITION. What targets do with the requests in their intakes: slices (R50, R300), tiles (R130 to R132), HBM ports
with their fences (R309, R313, R361), control slots (R53, R198); and the events of the memories: scrubbing, write-back,
marking (R303 to R305), power-down and temperature (R311, R314). -/

namespace Sys2Proof.Machine

/-! ### HBM fences (R360, R361) -/

/-- The four fence ranges of partition `p` as base and size (R360, R378). -/
def State.fences (s : State) (p : Nat) : List (Nat × Nat) :=
  (List.range 4).map (fun i => (s.obj (0x5001 + 0x100 * p) i 0, s.obj (0x5001 + 0x100 * p) (4 + i) 0))

/-- `[a, a + n)` lies inside `[b, b + m)`. -/
def inside (a n b m : Nat) : Bool := decide (b ≤ a) && decide (a + n ≤ b + m)

/-- `[a, a + n)` and `[b, b + m)` have a byte in common. -/
def overlaps (a n b m : Nat) : Bool := decide (a < b + m) && decide (b < a + n) && decide (0 < n) && decide (0 < m)

/-- `n` bytes at `a` lie inside one fence range of partition `p` (R361). -/
def State.inFence (s : State) (p a n : Nat) : Bool := (s.fences p).any (fun f => inside a n f.1 f.2)

/-- The page-table region of partition `p`: base and size (R333). -/
def State.ptRegion (s : State) (p : Nat) : Nat × Nat := (s.obj (0x5030 + 0x100 * p) 5 0, s.obj (0x5030 + 0x100 * p) 6 0)

/-- A request that skips the fence check (R361). -/
def privileged (src tag : Nat) : Bool :=
  match nodeKind src with
  | some .mgmt | some .vigil => true
  | some (.copyEngine _) => tag.testBit 10
  | _ => false

/-- The check an HBM port makes when it takes a request into service (R6, R313, R361). -/
def State.fencePasses (s : State) (part a n : Nat) (write priv : Bool) : Bool :=
  decide (a + n ≤ hbmBytes s)
    && (priv
        || (s.inFence part a n
            && !(write && overlaps a n (s.ptRegion part).1 (s.ptRegion part).2)))

/-- Count `k` of stack `st` grows (R325). -/
def State.hbmCount (s : State) (st k n : Nat) : State := { s with hbmCounts := Sparse.bump s.hbmCounts (8 * st + k) n }

/-! ### Control slots (R53, R198) -/

/-- What a target answers: the status, the data and its poison, and what the access left. -/
structure Answer where
  st : Status
  val : Nat := 0
  poison : Nat := 0
  s : State

/-- Collector register `i` of the Almanac port, at offset 0x0200 + 8i (R526). -/
def State.almanacReg (s : State) (i : Nat) : Nat :=
  if i = 7 then (if s.almanac.test then 2 else if s.domain 19 = .on then 1 else 0) else Sparse.get 0 s.almanac.counts i

/-- The tally window of a sequencer (R198). A request that more than one row refuses takes the status of its size and alignment
first, then of its partition, then of its VI (DESIGN CHOICE, log entry 90). -/
def State.tallySlot (s : State) (c : Nat) (r : Packet) (off : Nat) (write : Bool) : Answer :=
  if r.bytes.toNat ≠ 4 ∨ off % 4 ≠ 0 then ⟨.outOfRange, 0, 0, s⟩
  else if s.partOfCluster c ≠ some r.part.toNat then ⟨.outOfRange, 0, 0, s⟩
  else
    let n := (off - 0x1000) / 4
    if s.obj (0x4010 + 0x100 * c) (n / 16) 255 ≠ r.vi.toNat then ⟨.accessLevel, 0, 0, s⟩
    else if write then ⟨.ok, 0, 0, s.addTally c n (BitVec.ofNat 32 r.payload)⟩
    else ⟨.ok, (Sparse.get 0 (s.seq c).tallies n).toNat, 0, s⟩

/-- The register of a control slot at an offset, where there is one (R53, R489, R496, R526). -/
def State.controlReg (s : State) (node off : Nat) : Option Nat :=
  if off = 0x0108 then some (Sparse.get {} s.rings (node % 4096)).dropped
  else
    match nodeKind node with
    | some (.copyEngine e) => if off = 0x0100 then some (Sparse.get 0 (s.engine e).stats 8 % 2 ^ 48) else none
    | some .almanac =>
      if 0x0200 ≤ off ∧ off ≤ 0x0238 ∧ off % 8 = 0 then some (s.almanacReg ((off - 0x0200) / 8)) else none
    | _ => none

/-- A request to the control slot of a service node (R53). -/
def State.controlAccess (s : State) (node : Nat) (r : Packet) (write : Bool) : Answer :=
  let off := (r.address.toNat - controlBase) % 0x1000000
  let tally : Option Nat :=
    match nodeKind node with
    | some (.sequencer c) => if 0x1000 ≤ off ∧ off < 0x1400 then some c else none
    | _ => none
  match tally with
  | some c => s.tallySlot c r off write
  | none =>
    if r.bytes.toNat ≠ 8 then ⟨.outOfRange, 0, 0, s⟩
    else
      match s.controlReg node off with
      | none => ⟨.outOfRange, 0, 0, s⟩
      | some v => if write then ⟨.accessLevel, 0, 0, s⟩ else ⟨.ok, v, 0, s⟩

/-! ### Memory targets -/

/-- A request served by a slice (R47, R48, R50). -/
def State.sliceAccess (s : State) (sl : Nat) (r : Packet) (write : Bool) : Answer :=
  let place : Option (Nat × Nat) :=
    match regionOf s r.address.toNat with
    | .sliceDirect k b => some (k, b)
    | .sliceStriped o => s.striped r.part.toNat o
    | _ => none
  match place with
  | none => ⟨.outOfRange, 0, 0, s⟩
  | some (k, b) =>
    if k ≠ sl ∨ s.partOfCluster (sl / 64) ≠ some r.part.toNat then ⟨.outOfRange, 0, 0, s⟩
    else if write then ⟨.ok, 0, Packet.damage r, s.store (sliceAddr k b) r.bytes.toNat r.payload r.poisoned⟩
    else
      let (d, s) := s.load (sliceAddr k b) r.bytes.toNat
      ⟨.ok, d.val, d.poison, s⟩

/-- The local row a NoC request to a tile touches. -/
def requestRow (r : Packet) : Option LocalRow := localRow ((r.address.toNat - tileBase) % 0x20000) r.bytes.toNat

/-- A request served by a tile (R129 to R132). -/
def State.tileAccess (s : State) (t : TileId) (r : Packet) (write : Bool) : Answer :=
  let o := (r.address.toNat - tileBase) % 0x20000
  let n := r.bytes.toNat
  let x := s.tile t
  if s.partOfTile t.val ≠ some r.part.toNat then ⟨.outOfRange, 0, 0, s⟩
  else
    match requestRow r with
    | none => ⟨.outOfRange, 0, 0, s⟩
    | some row =>
      if write then
        match row with
        | .ring | .counters | .status => ⟨.accessLevel, 0, 0, s⟩
        | _ =>
          if row = .store ∧ o < x.progLen then ⟨.outOfRange, 0, 0, s⟩
          else ⟨.ok, 0, Packet.damage r, s.writeLocal t row o n r.payload r.poisoned⟩
      else
        let (d, s) := s.readLocal t row o n
        match row with
        | .acc _ _ => if d.poison ≠ 0 then ⟨.eccUncorrected, 0, 0, s⟩ else ⟨.ok, d.val, 0, s⟩
        | _ => ⟨.ok, d.val, d.poison, s⟩

/-- A request to an accumulator that a running MMA or a drain holds waits at the tile (R131). -/
def State.tileHolds (s : State) (t : TileId) (r : Packet) : Bool :=
  match requestRow r with
  | some (.acc a _) => (s.tile t).accHeld s.calends a
  | _ => false

/-- An access to HBM that has passed its fence (R303, R304). -/
def State.hbmAccess (s : State) (r : Packet) (write : Bool) : Answer :=
  if write then ⟨.ok, 0, Packet.damage r, s.store r.address.toNat r.bytes.toNat r.payload r.poisoned⟩
  else
    let (d, s) := s.load r.address.toNat r.bytes.toNat
    ⟨.ok, d.val, d.poison, s⟩

/-- A request to memory or to a control slot, made by any initiator and served whole: what its target answers (R46, R50,
R53, R130, R289, R313, R600). `src` and `tag` tell a privileged request. A host address answers nothing here. -/
def State.access (s : State) (r : Packet) (write : Bool) : Answer :=
  match s.nodeOfAddr r.part.toNat r.address.toNat with
  | none => ⟨.outOfRange, 0, 0, s⟩
  | some n =>
    if s.shimActive n then ⟨.targetIsolated, 0, 0, s⟩
    else
      match nodeKind n with
      | some (.slice sl) =>
        match regionOf s r.address.toNat with
        | .control _ _ => s.controlAccess n r write
        | _ => s.sliceAccess sl r write
      | some (.tile t) => if h : t < 4096 then s.tileAccess ⟨t, h⟩ r write else ⟨.outOfRange, 0, 0, s⟩
      | some (.hbmPort p) =>
        match regionOf s r.address.toNat with
        | .control _ _ => s.controlAccess n r write
        | _ =>
          if s.fencePasses r.part.toNat r.address.toNat r.bytes.toNat write (privileged r.src.toNat r.tag.toNat)
          then s.hbmAccess r write
          else ⟨.outOfRange, 0, 0, s.hbmCount (p / 4) 4 1⟩
      | _ => s.controlAccess n r write

/-- What an access of a unit of the device leaves in its network record (R297): payload bytes, poisoned packets, bytes of
requests that ended OK, and the bin of its latency, which the model does not follow (a free value, log entry 15). -/
def State.countAccess (s : State) (r : Packet) (write : Bool) (st : Status) (poison : Nat) : State :=
  let n := r.src.toNat
  let b := r.bytes.toNat
  let s := if write ∧ (b ≤ 32 ∨ st ≠ .targetIsolated) then s.netCount n (if b ≤ 32 then 17 else 19) b else s
  let s := if st = .ok then s.netCount n (if write then 29 else 28) b else s
  let s := if st = .ok ∧ !write then s.netCount n 22 b else s
  let s := if st = .ok ∧ poison ≠ 0 then (s.netCount n 27 1).nodeEvent n 0x07 r.dest.toNat else s
  if st = .targetIsolated then s.nodeEvent n 0x08 r.dest.toNat
  else { s.netCount n ((if write then 8 else 0) + Config.freeNat s.free % 8) 1 with free := s.free + 1 }

/-- A request of a unit of the device itself: a sequencer, the PCIe/CXL port, Vigil, the management core. It is served whole
within the step that needs it (log entry 15): OUT_OF_RANGE where no node could serve it (R600), TIMEOUT where the unit is
isolated, TARGET_ISOLATED and counted where no route takes it (R289, R296), else what its target answers. -/
def State.deviceAccess (s : State) (r : Packet) (write : Bool) : Answer :=
  let n := r.src.toNat
  match s.nodeOfAddr r.part.toNat r.address.toNat with
  | none => ⟨.outOfRange, 0, 0, s⟩
  | some d =>
    if s.shimActive n then ⟨.timeout, 0, 0, s.shimDrop.netCount n 24 1⟩
    else if (s.routeTo n d).isNone || (s.routeBack n d).isNone then ⟨.targetIsolated, 0, 0, s.netError (errorScope n) 4⟩
    else
      let a := s.access r write
      ⟨a.st, a.val, a.poison, a.s.countAccess { r with dest := BitVec.ofNat 14 d } write a.st a.poison⟩

/-! ### Service -/

/-- Entries an HBM port has in service. -/
def inServiceCount (x : Target) : Nat := (x.intake.filter (fun e => e.phase = .inService)).length

/-- An entry that a free service unit could take: a READ, a WRITE, or a pulled write whose data is here. -/
def IntakeEntry.ready (e : IntakeEntry) : Bool :=
  e.phase = .pulled || (e.phase = .waiting && e.pkt.cmd.toNat ≠ cmdWritePull)

/-- A request served and answered (R263, R265). -/
def State.answerEntry (_s : State) (n : Nat) (e : IntakeEntry) (a : Answer) : State :=
  a.s.finishEntry n e a.st a.val a.poison

/-- A host-region request enters the port's own service and waits for the host (R397); see `HostPort`. -/
def IntakeEntry.toHost (e : IntakeEntry) : Bool := decide (hostBase ≤ e.pkt.address.toNat)

/-- INTAKE_SERVICE for every target but the host region and remote requests: the next entry in service order is served
whole; an HBM port takes it into service, where its fence is checked (R263, R309, R313, R601). -/
def State.serve (s : State) (n : Nat) (e : IntakeEntry) : State :=
  let write := e.pkt.cmd.toNat ≠ cmdRead
  match nodeKind n with
  | some (.slice sl) => s.answerEntry n e (s.sliceAccess sl e.pkt write)
  | some (.tile t) => if h : t < 4096 then s.answerEntry n e (s.tileAccess ⟨t, h⟩ e.pkt write) else s
  | some (.hbmPort p) =>
    match regionOf s e.pkt.address.toNat with
    | .control _ _ => s.answerEntry n e (s.controlAccess n e.pkt write)
    | _ =>
      let s := { s with hbm := Sparse.set {} s.hbm p { Sparse.get ({} : HbmPortState) s.hbm p with powerDown := false } }
      if s.fencePasses e.pkt.part.toNat e.pkt.address.toNat e.pkt.bytes.toNat write
          (privileged e.pkt.src.toNat e.pkt.tag.toNat)
        && (hbmTarget e.pkt.address.toNat).1 = p
      then
        -- entries in service stand last, in service order
        let x := s.target n
        s.setTarget n { x with intake := x.intake.erase e ++ [{ e with phase := .inService }], stallSince := some s.calends }
      else (s.hbmCount (p / 4) 4 1).finishEntry n e .outOfRange 0 0
  | _ => s.answerEntry n e (s.controlAccess n e.pkt write)

/-- Entries a target's next free service unit may take now. -/
def State.servable (s : State) (n : Nat) (e : IntakeEntry) : Bool :=
  e.ready
    && (match nodeKind n with
        | some (.tile t) => if h : t < 4096 then !(s.tileHolds ⟨t, h⟩ e.pkt) else false
        | some (.hbmPort p) => decide (inServiceCount (s.target n) < 16) && !(Sparse.get {} s.hbm p).selfRefresh
        | some (.newen _) => e.pkt.ext.isNone
        | _ => true)

/-- A request of a TALLY_SLOT_WRITE or of any control slot, served by the entry it holds. -/
def State.entryOf (s : State) (p : Packet) : Option IntakeEntry :=
  (s.target p.dest.toNat).intake.find? (fun e => e.pkt.src = p.src && e.pkt.tag = p.tag && e.ready)

/-- TALLY_SLOT_WRITE (R198, R263): a write that is not yet in the intake arrives; once it is the first in service order it is
served whole. -/
def execTallySlotWrite (p : Packet) (s : State) : Host.Outcome State Fault Refusal :=
  let p := Packet.arriving p cmdWrite
  let s := if (s.entryOf p).isSome then s else s.arriveRequest p
  match nodeKind p.dest.toNat, s.entryOf p with
  | some (.sequencer _), some e =>
    if firstEntry (s.servable p.dest.toNat) (s.target p.dest.toNat).intake = some e then
      .next (s.answerEntry p.dest.toNat e (s.controlAccess p.dest.toNat e.pkt true))
    else .next s
  | _, _ => .next s

/-- Two requests touch a common 64-byte line (R309). -/
def sharesLine (a b : Packet) : Bool :=
  decide (a.address.toNat / 64 ≤ (b.address.toNat + b.bytes.toNat - 1) / 64)
    && decide (b.address.toNat / 64 ≤ (a.address.toNat + a.bytes.toNat - 1) / 64)

/-- Lines of 64 bytes that a request touches. -/
def linesOf (a n : Nat) : List Nat := (List.range ((a + n - 1) / 64 + 1 - a / 64)).map (· + a / 64)

/-- Lines of a device write that the host holds under CXL 3.1 (R385). -/
def State.heldLines (s : State) (a n : Nat) : List Nat :=
  if s.host.cxl = 3 then (linesOf a n).filter (fun l => s.host.hostLines.contains l) else []

/-- Entries that port `p` has in service, in the order in which it took them. -/
def State.inService (s : State) (p : Nat) : List IntakeEntry :=
  (s.target (hbmNode p)).intake.filter (fun e => e.phase = .inService)

/-- An entry in service at port `p` takes effect and is answered, unless an entry taken into service before it touches one
of its lines (R309). A write to a line that the host holds first sends a back-invalidate snoop, and waits for its response
(R385). -/
def State.hbmComplete (s : State) (p : Nat) (e : IntakeEntry) (ondie : Nat) : State :=
  let held := if e.pkt.cmd.toNat = cmdRead ∨ e.pkt.src.toNat = pcieNode then []
    else s.heldLines e.pkt.address.toNat e.pkt.bytes.toNat
  let fresh := held.filter (fun k => !(s.host.snoops.contains k))
  if ((s.inService p).takeWhile (fun x => x ≠ e)).any (fun x => sharesLine x.pkt e.pkt) then s
  else if held ≠ [] then
    { s with host := { s.host with snoops := s.host.snoops ++ fresh
                                   answers := s.host.answers ++ fresh.map (fun k => .snoop (64 * k)) } }
  else
    let s := s.hbmCount (p / 4) 2 ondie
    s.answerEntry (hbmNode p) e (s.hbmAccess e.pkt (e.pkt.cmd.toNat ≠ cmdRead))

/-- HBM_ENTRY_COMPLETE (R309, R312, R385). `ondie` errors are those the stack's own ECC reported. -/
def execHbmEntryComplete (p : HbmPort) (src : NodeId) (tag : BitVec 12) (ondie : Nat) (s : State) :
    Host.Outcome State Fault Refusal :=
  match (s.inService p.val).find? (fun e => e.pkt.src = src && e.pkt.tag = tag) with
  | none => .next s
  | some e => .next (s.hbmComplete p.val e ondie)

/-! ### Events of the memories -/

/-- ECC_WRITEBACK (R303): the corrected word is written back in place. -/
def execEccWriteback (a : BitVec 48) (s : State) : Host.Outcome State Fault Refusal :=
  let w := a.toNat / 8
  if s.mem.writebacks.contains w then
    .next { s with mem := { s.mem with writebacks := s.mem.writebacks.erase w
                                       cond := Sparse.set .clean s.mem.cond w .clean } }
  else .next s

/-- POISON_MARK (R303): the uncorrectable word is marked poisoned in place, its data bits kept. -/
def execPoisonMark (a : BitVec 48) (s : State) : Host.Outcome State Fault Refusal :=
  let w := a.toNat / 8
  if s.mem.marks.contains w then
    .next { s with mem := { s.mem with marks := s.mem.marks.erase w, cond := Sparse.set .clean s.mem.cond w .marked } }
  else .next s

/-- The HBM address of offset `off` of port `p`, the inverse of R308. -/
def hbmAddress (p off : Nat) : Nat :=
  let line := off / 4096
  (line * 32 + (p ^^^ (line % 32) ^^^ (line / 32 % 32))) * 4096 + off % 4096

/-- The words of the storage of a slice, a tile store or an HBM port: how many there are, and the address of each
(R305). -/
def State.scrubSpace (s : State) (n : Nat) : Option (Nat × (Nat → Nat)) :=
  match nodeKind n with
  | some (.slice sl) => some (sliceBytes / 8, fun i => sliceAddr sl (8 * i))
  | some (.tile t) => some (0x18000 / 8, fun i => tileAddr t (8 * i))
  | some (.hbmPort p) => some (hbmBytes s / 32 / 8, fun i => hbmAddress p (8 * i))
  | _ => none

/-- Cycles of a scrub pass: SCRUB_SRAM_PASS in ms, SCRUB_HBM_PASS in hours (R305, R325). -/
def State.scrubPeriod (s : State) (n : Nat) : Nat :=
  match nodeKind n with
  | some (.hbmPort _) => s.obj 0x3300 1 24 * 3600 * 2000000000
  | _ => s.obj 0x3300 0 1000 * 2000000

/-- What a scrubber does to one word (R303, R305): a single-bit error is corrected in place; an uncorrectable word that is
not marked is logged once and marked. -/
def State.scrubAt (s : State) (a : Nat) : State :=
  let w := a / 8
  match s.condAt a with
  | .single =>
    let s := { s with mem := { s.mem with cond := Sparse.set .clean s.mem.cond w .clean
                                          writebacks := s.mem.writebacks.erase w } }
    s.countCorrected a
  | .uncorrectable =>
    let s := if s.mem.marks.contains w then s else s.countUncorrected a 1
    { s with mem := { s.mem with cond := Sparse.set .clean s.mem.cond w .marked, marks := s.mem.marks.erase w } }
  | _ => s

/-- The passes that run in a domain which goes to sleep are not counted late (R305, R539). -/
def State.scrubsSleep (s : State) (d : Nat) : State :=
  { s with scrubs := s.scrubs.map (fun e => if domainOf e.1 = some d then (e.1, { e.2 with slept := true }) else e) }

/-- A scrub pass ends: passes completed, and those that finished late, unless `burst` tells of a burst
or a domain that slept (R305, R325, R539). -/
def State.passEnds (s : State) (n : Nat) (since : Nat) (burst : Bool) : State :=
  let late := !burst && decide (since + s.scrubPeriod n < s.calends)
  match nodeKind n with
  | some (.slice sl) =>
    let s := { s with memEcc := Sparse.bump s.memEcc (6 * (sl / 64) + 4) 1 }
    if late then { s with memEcc := Sparse.bump s.memEcc (6 * (sl / 64) + 5) 1 } else s
  | some (.tile t) =>
    let s := { s with memEcc := Sparse.bump s.memEcc (6 * clusterOfTile t + 4) 1 }
    if late then { s with memEcc := Sparse.bump s.memEcc (6 * clusterOfTile t + 5) 1 } else s
  | some (.hbmPort p) => if late then s.hbmCount (p / 4) 5 1 else s
  | _ => s

/-- SCRUB_WORD (R305): the patrol scrubber of a slice, tile store or HBM port reads its next word. With SCRUB_ENABLE = 0
no pass starts and a running one stops. -/
def execScrubWord (n : NodeId) (s : State) : Host.Outcome State Fault Refusal :=
  match s.scrubSpace n.toNat with
  | none => .next s
  | some (words, addr) =>
    let x := Sparse.get {} s.scrubs n.toNat
    if s.obj 0x3300 2 1 = 0 then .next { s with scrubs := Sparse.set {} s.scrubs n.toNat {} }
    else if (domainOf n.toNat).any (fun d => s.domain d ≠ .on) then .next s
    else
      let since := if x.next = 0 then s.calends else x.since
      let s := s.scrubAt (addr x.next)
      if x.next + 1 < words then .next { s with scrubs := Sparse.set {} s.scrubs n.toNat ⟨x.next + 1, since, x.next ≠ 0 && x.slept⟩ }
      else .next (({ s with scrubs := Sparse.set {} s.scrubs n.toNat {} }).passEnds n.toNat since x.slept)

/-- A refresh or an RFM holds an access of the port back in this cycle, where entries wait (R311, R487). -/
def State.refreshing (s : State) (p : HbmPort) : State :=
  if (s.target (hbmNode p.val)).intake.isEmpty then s
  else { s with hbm := Sparse.set {} s.hbm p.val { Sparse.get ({} : HbmPortState) s.hbm p.val with refreshAt := some s.calends } }

/-- The controller leaves the loopback mode of a stack under test for a refresh, and resumes the pattern where it was (R569). -/
def State.pauseTest (s : State) (stack : Nat) : State :=
  if s.test.looping = some stack then { s with test := { s.test with pauses := s.test.pauses + 1 } } else s

/-- HBM_REFRESH (R311, R569): a per-bank refresh holds back the accesses that wait; contents do not change. -/
def execHbmRefresh (p : HbmPort) (s : State) : Host.Outcome State Fault Refusal :=
  .next ((s.refreshing p).pauseTest (p.val / 4))

/-- HBM_RFM (R311, R325): the port issues RFM to the bank, which is counted. -/
def execHbmRfm (p : HbmPort) (_bank : Nat) (s : State) : Host.Outcome State Fault Refusal :=
  .next ((s.refreshing p).hbmCount (p.val / 4) 3 1)

/-- HBM_TEMP_READ (R311, R325). -/
def execHbmTempRead (st : StackId) (celsius : Int) (s : State) : Host.Outcome State Fault Refusal :=
  .next { s with hbmTemp := Sparse.set 0 s.hbmTemp st.val celsius }

/-- HBM_POWER_DOWN (R314): a port with no entry enters power-down. -/
def execHbmPowerDown (p : HbmPort) (s : State) : Host.Outcome State Fault Refusal :=
  if (s.target (hbmNode p.val)).intake.isEmpty ∧ s.domain (16 + p.val / 16) = .on then
    .next { s with hbm := Sparse.set {} s.hbm p.val { Sparse.get ({} : HbmPortState) s.hbm p.val with powerDown := true } }
  else .next s

/-- HBM_DEEP_SLEEP_ENTRY (R314, R535): with HBM_DEEP_SLEEP set and no entry at any port of the group, its channels go to
self-refresh; contents and check bytes are kept. -/
def execHbmDeepSleepEntry (g : Fin 2) (s : State) : Host.Outcome State Fault Refusal :=
  let ports := (List.range 16).map (· + 16 * g.val)
  if s.obj 0x9031 0 0 = 1 ∧ s.domain (16 + g.val) = .on ∧ ports.all (fun p => (s.target (hbmNode p)).intake.isEmpty) then
    let s := ports.foldl (fun s p => { s with hbm := Sparse.set {} s.hbm p ⟨false, true, none⟩ }) s
    .next ((s.setDomain (16 + g.val) .deepSleep).scrubsSleep (16 + g.val))
  else .next s

end Sys2Proof.Machine
end

