-- ==== Sys2Proof/Machine/HostOps.lean ====
section
/-! DEFINITION. Operations that the host's commands share: accepted commands (R389, R395), function events and vectors
(R386, R387, R396), the device's own writes and reads (R358, R397). -/

namespace Sys2Proof.Machine

/-- Word `i` of a command entry (R390). -/
def entryW (e i : Nat) : Nat := laneNat e 64 i

/-- OPCODE of a command entry. -/
def entryOp (e : Nat) : Nat := bitsAt e 0 8

/-- An accepted or refused command that is not completed. -/
def State.cmd (s : State) (k : CmdKey) : Option Cmd := s.host.cmds.find? (fun c => c.key = k)

/-- A command changed. -/
def State.updCmd (s : State) (k : CmdKey) (f : Cmd → Cmd) : State :=
  { s with host := { s.host with cmds := s.host.cmds.map (fun c => if c.key = k then f c else c) } }

/-- The work of a command ends with a status and a RESULT (R209, R395). -/
def State.endCmd (s : State) (k : CmdKey) (st : Status) (res : Nat) : State :=
  s.updCmd k (fun c =>
    if c.phase = .running then
      let st := if st = .ok ∧ c.poisoned then .eccUncorrected else st
      { c with phase := .ended, tEnd := s.calends, status := st, result := res }
    else c)

/-- The partition a VI is bound to; `none` while VI_PARTITION is 255 (R365). -/
def State.viPart (s : State) (v : Nat) : Option Nat :=
  let p := s.obj (0x5809 + 0x10 * v) 0 255
  if p < 8 then some p else none

/-- VI_STATE (R364): 0 DISABLED, 1 UNBOUND, 2 READY, 3 RESETTING. -/
def State.viState (s : State) (v : Nat) : Nat :=
  let x := s.vi v
  if v ≠ 0 ∧ !x.vf then 0
  else if x.resetting.isSome then 3
  else if (s.viPart v).isNone then 1
  else 2

/-- MSI-X table word `j` (0, 1 address; 2 data; 3 control, masked by default) of vector `i`. -/
def Vi.msixWord (x : Vi) (i j : Nat) : Nat :=
  if j = 3 then (Sparse.get 0 x.msix (4 * i + 3)) ^^^ 1 else Sparse.get 0 x.msix (4 * i + j)

/-- A transaction to the host. -/
def State.toHost (s : State) (o : HostOut) : State := { s with host := { s.host with out := s.host.out ++ [o] } }

/-- Vector `i` of VI `v` is raised (R396): its message is sent, or its pending bit set while the vector or the function is
masked. -/
def State.raiseVector (s : State) (v i : Nat) : State :=
  let x := s.vi v
  if !x.msixEnable then s
  else if x.functionMask ∨ (x.msixWord i 3).testBit 0 then
    s.setVi v { x with pba := x.pba ||| (1#32 <<< i) }
  else s.toHost (.msix v i (x.msixWord i 0 + 2 ^ 32 * x.msixWord i 1) (x.msixWord i 2))

/-- Bit `b` of FN_EVENTS is set; vector 31 is raised where it goes from 0 to 1 with its mask bit clear (R396). -/
def State.fnEvent (s : State) (v b : Nat) : State :=
  let x := s.vi v
  if x.fnEvents.getLsbD b then s
  else
    let s := s.setVi v { x with fnEvents := x.fnEvents ||| (1#4 <<< b) }
    if x.mask.getLsbD b then s else s.raiseVector v 31

/-- A refused register write or doorbell (R387): REG_ERROR holds its status, FN_EVENTS bit 3 is set, and unless masked
vector 31 is raised. -/
def State.refuseRegister (s : State) (v : Nat) (st : Status) : State :=
  let x := s.vi v
  let s := s.setVi v { x with regError := (Status.code st), fnEvents := x.fnEvents ||| 8#4 }
  if x.mask.getLsbD 3 then s else s.raiseVector v 31

/-- A packet that carries an access of the device itself to memory, for the checks of its target. -/
def devicePacket (src tag vi part a n v poison : Nat) : Packet :=
  mkPacket cmdWrite src 0 tag a n 0 vi part 2 0 v poison

/-- Pieces of `[a, a + n)` at 2 KiB boundaries (R49, R397). -/
def pieces2k : Nat → Nat → Nat → List (Nat × Nat)
  | 0, _, _ => []
  | k + 1, a, n =>
    if n = 0 then []
    else
      let m := min (2048 - a % 2048) n
      (a, m) :: pieces2k k (a + m) (n - m)

/-- The first address past the host region (R46). -/
def hostEnd : Nat := 0x800000000000

/-- The largest parts of a request toward the host: `m` bytes, cut at multiples of `m` (R397). -/
def hostParts (m : Nat) : Nat → Nat → Nat → List (Nat × Nat)
  | 0, _, _ => []
  | k + 1, a, n =>
    if n = 0 then []
    else
      let l := min (m - a % m) n
      (a, l) :: hostParts m k (a + l) (n - l)

/-- The page, of 4 KiB, of a host address, translated where ATS is enabled for the function (R398). -/
def State.translated (s : State) (vi a : Nat) : Option Nat :=
  if !(s.vi vi).ats then some a
  else (s.host.atc.find? (fun t => t.1 = vi && t.2.1 = a / 4096)).map (fun t => t.2.2 * 4096 + a % 4096)

/-- Posted writes of `n` bytes at the host address `b`, which is translated where it has to be (R397); under CXL.cache they are
WrInv (R399). -/
def State.hostWrite (s : State) (vi b n v : Nat) (bad : Nat) : State :=
  (hostParts (max (s.vi vi).maxPayload 128) (n + 1) b n).foldl (fun (s : State) (q : Nat × Nat) =>
    s.toHost (.write vi q.1 q.2 (bitsAt v (8 * (q.1 - b)) (8 * q.2)) (decide (bitsAt bad (q.1 - b) q.2 ≠ 0))
      (decide (s.host.cxl ≠ 0)))) s

/-- Reads of `n` bytes at the host address `b`, each with a tag from the next one on (R397); under CXL.cache they are RdCurr
(R399). -/
def State.hostRead (s : State) (vi b n : Nat) : State :=
  (hostParts (max (s.vi vi).maxRead 128) (n + 1) b n).foldl (fun (s : State) (q : Nat × Nat) =>
    ({ s with host := { s.host with nextTag := (s.host.nextTag + 1) % 1024 } }).toHost
      (.read vi q.1 q.2 s.host.nextTag (decide (s.host.cxl ≠ 0)))) s

/-- The device writes `n` bytes at device address `a` with a VI and a partition (R358): to the host as a posted write, to
memory as the target allows; nothing lies past the host region (R46, R397). Such writes are made whole within the step that
needs them (log entry 15). -/
def State.deviceWrite (s : State) (src tag vi part a n v : Nat) : Status × State :=
  if hostBase ≤ a then
    if hostEnd < a + n then (.outOfRange, s)
    else if s.host.linkState ≠ 2 then (.linkDown, s.hostStat 3)
    else if (s.vi vi).busMaster then (.ok, s.hostWrite vi ((s.translated vi (a - hostBase)).getD (a - hostBase)) n v 0)
    else (.targetIsolated, s.hostStat 3)
  else
    (pieces2k (n / 2048 + 2) a n).foldl (fun (acc : Status × State) p =>
      if acc.1 ≠ .ok then acc
      else
        let r := acc.2.deviceAccess (devicePacket src tag vi part p.1 p.2 (bitsAt v (8 * (p.1 - a)) (8 * p.2)) 0) true
        (r.st, r.s)) (.ok, s)

/-- What a read of the device itself gives. -/
structure DeviceRead where
  st : Status
  val : Nat := 0
  poison : Nat := 0
  s : State

/-- The status in which a host outcome ends a request of the device (R397). -/
def hostStatus (o : HostEnd) : Status :=
  match o with
  | .ok | .poisoned => .ok
  | .unsupported => .outOfRange
  | .abort => .targetIsolated
  | .timeout => .timeout

/-- The device reads `n` bytes at device address `a` (R358): host memory as the host supplies it with the command, memory
as the target allows (log entry 15). -/
def State.deviceRead (s : State) (src tag vi part a n : Nat) (h : HostData) : DeviceRead :=
  if hostBase ≤ a then
    if hostEnd < a + n then ⟨.outOfRange, 0, 0, s⟩
    else if s.host.linkState ≠ 2 then ⟨.linkDown, 0, 0, s.hostStat 3⟩
    else if (s.vi vi).busMaster then
      match h.outcome with
      | .ok => ⟨.ok, h.data % 2 ^ (8 * n), 0, s⟩
      | .poisoned => ⟨.ok, h.data % 2 ^ (8 * n), 2 ^ n - 1, s⟩
      | o => ⟨hostStatus o, 0, 0, s.hostStat 3⟩
    else ⟨.targetIsolated, 0, 0, s.hostStat 3⟩
  else
    (pieces2k (n / 2048 + 2) a n).foldl (fun (acc : DeviceRead) p =>
      if acc.st ≠ .ok then acc
      else
        let r := acc.s.deviceAccess (devicePacket src tag vi part p.1 p.2 0 0) false
        ⟨r.st, acc.val + r.val * 2 ^ (8 * (p.1 - a)), acc.poison + r.poison * 2 ^ (p.1 - a), r.s⟩) ⟨.ok, 0, 0, s⟩

end Sys2Proof.Machine
end

