-- ==== Sys2Proof/Machine/Copy.lean ====
section
/-! DEFINITION. The copy engines: descriptors (R316), their validation (R317) and placement (R322), activation (R318,
R320), request issue (R318, R321, R323), completion and report (R319, R320), isolation (R324). -/

namespace Sys2Proof.Machine

/-! ### Descriptors (R316) -/

/-- A copy descriptor's fields. -/
structure CopyFields where
  src : Nat
  dst : Nat
  x : Nat
  y : Nat
  z : Nat
  srcY : Int
  dstY : Int
  srcZ : Int
  dstZ : Int
  conv : Nat
  engine : Nat
  order : Bool
  side : Nat
  device : Nat
  id : Nat

/-- The fields of eight descriptor words (R316). -/
def copyFields (d : Nat) : CopyFields :=
  let w := fun i => laneNat d 64 i
  { src := bitsAt (w 0) 0 48, dst := bitsAt (w 1) 0 48, x := bitsAt (w 2) 0 32, y := bitsAt (w 2) 32 16,
    z := bitsAt (w 2) 48 16, srcY := signedOf 32 (bitsAt (w 3) 0 32), dstY := signedOf 32 (bitsAt (w 3) 32 32),
    srcZ := signedOf 64 (w 4), dstZ := signedOf 64 (w 5), conv := bitsAt (w 6) 0 8, engine := bitsAt (w 6) 8 5,
    order := (w 6).testBit 17, side := bitsAt (w 6) 30 2, device := bitsAt (w 6) 32 6, id := bitsAt (w 7) 0 32 }

/-- A reserved bit of the descriptor is set; REMOTE_DEVICE is reserved with REMOTE_SIDE 0 (R316). -/
def copyReserved (d : Nat) : Bool :=
  let w := fun i => laneNat d 64 i
  bitsAt (w 0) 48 16 ≠ 0 || bitsAt (w 1) 48 16 ≠ 0 || bitsAt (w 6) 38 26 ≠ 0 || bitsAt (w 6) 18 12 ≠ 0
    || bitsAt (w 6) 13 4 ≠ 0 || bitsAt (w 7) 32 32 ≠ 0 || (bitsAt (w 6) 30 2 = 0 && bitsAt (w 6) 32 6 ≠ 0)

/-- Lowest and highest row start of one side. -/
def rowSpan (base : Nat) (ys zs : Int) (y z : Nat) : Int × Int :=
  let a := ys * ((y : Int) - 1)
  let b := zs * ((z : Int) - 1)
  ((base : Int) + min a 0 + min b 0, (base : Int) + max a 0 + max b 0)

/-- The number of this device in its domain (R237, object 0x3200.00). -/
def State.domainDevice (s : State) : Nat := s.obj 0x3200 0 0

/-- A side of a copy is remote (R273, R323). -/
def State.remote (s : State) (f : CopyFields) : Bool := f.side ≠ 0 && f.device ≠ s.domainDevice

/-- A copy engine is isolated (R291). -/
def State.ceIsolated (s : State) (e : Nat) : Bool := s.shimActive (ceNode e)

/-- Engines of the VI's CE_MASK (R325). -/
def State.ceMask (s : State) (v : Nat) : List Nat :=
  (List.range 16).filter (fun e => (s.obj (0x5800 + 0x10 * v) 0 0xFFFF).testBit e)

/-- The conversion an entry of partition `p` makes as its value is in force for copy engines (R95). -/
def State.copyMode (s : State) (p id : Nat) : Option ConvMode :=
  convMode id (if id = 0 then 0 else s.obj (0x5010 + 0x100 * p) id 0)

/-- R317: the first check that fails; OK also for a descriptor that moves nothing. -/
def State.checkCopy (s : State) (v p d : Nat) : Status :=
  let f := copyFields d
  let mask := s.ceMask v
  if copyReserved d then .illegalEncoding
  else if f.side = 3 ∨ 16 < f.engine then .badValue
  else if (f.engine < 16 ∧ !(mask.contains f.engine)) ∨ (f.engine = 16 ∧ mask = []) then .accessLevel
  else if (f.engine < 16 ∧ s.ceIsolated f.engine) ∨ (f.engine = 16 ∧ mask.all (fun e => s.ceIsolated e)) then
    .targetIsolated
  else if s.remote f ∧ s.obj 0x3100 f.device 255 = 255 then .notFound
  else if f.x = 0 ∨ f.y = 0 ∨ f.z = 0 then .ok
  else
    match (s.copyMode p f.conv).bind (fun m => convBytes m f.x) with
    | none => .badDescriptor
    | some dx =>
      let (sl, sh) := rowSpan f.src f.srcY f.srcZ f.y f.z
      let (dl, dh) := rowSpan f.dst f.dstY f.dstZ f.y f.z
      if sl < 0 ∨ dl < 0 ∨ 2 ^ 48 < sh + f.x ∨ 2 ^ 48 < dh + dx ∨ 2 ^ 40 < f.x * f.y * f.z then .outOfRange
      else if f.side = 0 ∧ sl < dh + dx ∧ dl < sh + f.x then .badDescriptor
      else .ok

/-! ### Placement (R322) -/

/-- The queue of an owner's descriptors (R320). -/
def CopyOwner.queue (o : CopyOwner) (v : Nat) : Nat :=
  match o with
  | .shelf _ => 0
  | .mgmt _ => 1
  | _ => 2 + v

/-- Queue `q` of an engine. -/
def CopyEngine.queue (x : CopyEngine) (q : Nat) : List CopyDesc := Sparse.get [] x.queues q

/-- Descriptors queued or active in an engine over all of its queues. -/
def CopyEngine.load (x : CopyEngine) : Nat := (x.queues.map (fun q => q.2.length)).foldl (· + ·) 0

/-- The engine with the least of a measure; the lower number on a tie. -/
def leastBy (f : Nat → Nat) (l : List Nat) : Option Nat :=
  l.foldl (fun acc e => match acc with
    | none => some e
    | some b => if f e < f b then some e else acc) none

/-- The engine a waiting descriptor can enter now (R322). -/
def State.placeFor (s : State) (d : CopyDesc) : Option Nat :=
  let f := copyFields d.words
  let q := d.owner.queue d.vi
  let room := fun e => decide (((s.engine e).queue q).length < 8)
  let mgmt := q = 1
  let cands :=
    if f.engine < 16 then [f.engine].filter room
    else ((if mgmt then List.range 16 else s.ceMask d.vi).filter (fun e => !(s.ceIsolated e))).filter room
  leastBy (fun e => (s.engine e).load) cands

/-- A descriptor is appended to a queue of an engine. -/
def State.enqueueCopy (s : State) (e : Nat) (d : CopyDesc) : State :=
  let x := s.engine e
  let q := d.owner.queue d.vi
  s.setEngine e { x with queues := Sparse.set [] x.queues q (x.queue q ++ [d]) }

/-- The descriptors of a list enter queues, in order, as far as there is room. -/
def State.placeWaiting (s : State) (l : List CopyDesc) : State :=
  l.foldl (fun s d => match s.placeFor d with
    | some e => s.enqueueCopy e d
    | none => s) s

/-- A descriptor that passed validation waits for its queue (R322). -/
def State.submitCopy (s : State) (o : CopyOwner) (v p d : Nat) : State :=
  let c : CopyDesc := { id := s.serial, owner := o, vi := v, part := p, words := d }
  { s with copyWait := s.copyWait ++ [c], serial := s.serial + 1 }

/-- The first waiting descriptor that finds a queue. -/
def State.placeable (s : State) : List CopyDesc → Option (CopyDesc × Nat)
  | [] => none
  | d :: ds =>
    match s.placeFor d with
    | some e => some (d, e)
    | none => s.placeable ds

/-- COPY_ENQUEUE (R322). -/
def execCopyEnqueue (s : State) : Host.Outcome State Fault Refusal :=
  match s.placeable s.copyWait with
  | some (d, e) => .next (({ s with copyWait := s.copyWait.erase d }).enqueueCopy e d)
  | none => .next s

/-! ### Geometry (R316, R318) -/

/-- The latched conversion. -/
def CopyDesc.mode (d : CopyDesc) : ConvMode :=
  (convMode (if d.carried.isSome then 1 else (copyFields d.words).conv) d.conv).getD .raw

/-- Rows of a copy. -/
def CopyFields.rows (f : CopyFields) : Nat := f.y * f.z

/-- Source address of position `i` of the source bytes. -/
def CopyFields.srcAt (f : CopyFields) (i : Nat) : Nat :=
  let r := i / f.x
  ((f.src : Int) + f.srcZ * (r / f.y : Nat) + f.srcY * (r % f.y : Nat) + (i % f.x : Nat)).toNat

/-- Destination address of position `i` of the destination bytes, with rows of `dx` bytes. -/
def CopyFields.dstAt (f : CopyFields) (dx i : Nat) : Nat :=
  let r := i / dx
  ((f.dst : Int) + f.dstZ * (r / f.y : Nat) + f.dstY * (r % f.y : Nat) + (i % dx : Nat)).toNat

/-- The read that starts at position `i`: its length, up to the row's end or the next 2 KiB boundary. -/
def CopyFields.readLen (f : CopyFields) (i : Nat) : Nat := min (2048 - f.srcAt i % 2048) (f.x - i % f.x)

/-- The length of the write that starts at position `i`: on over rows that follow one another without a gap, up to the
next 2 KiB boundary. -/
def CopyFields.writeLen (f : CopyFields) (dx i : Nat) : Nat :=
  let a := f.dstAt dx i
  let room := 2048 - a % 2048
  let total := dx * f.rows
  let rec go : Nat → Nat → Nat
    | 0, n => n
    | k + 1, n =>
      if room ≤ n then room
      else if total ≤ i + n then n
      else if f.dstAt dx (i + n) = a + n then go k (n + (dx - (i + n) % dx)) else n
  min room (go 2049 (dx - i % dx))

/-- Bytes of one destination row. -/
def CopyDesc.dx (d : CopyDesc) : Nat := (convBytes d.mode (copyFields d.words).x).getD 0

/-- Source bytes in all, destination bytes in all. -/
def CopyDesc.total (d : CopyDesc) : Nat := (copyFields d.words).x * (copyFields d.words).rows
def CopyDesc.dtotal (d : CopyDesc) : Nat := d.dx * (copyFields d.words).rows

/-- Source bytes `[i, i + n)` have all arrived. -/
def CopyDesc.has (d : CopyDesc) (i n : Nat) : Bool :=
  decide ((d.arrived.map (fun q => min (q.1 + q.2) (i + n) - max q.1 i)).foldl (· + ·) 0 = n)

/-- The row segments of destination bytes `[i, i + n)`: row, first and last + 1 offset in the row. -/
def rowSegments (dx : Nat) : Nat → Nat → Nat → List (Nat × Nat × Nat)
  | 0, _, _ => []
  | k + 1, i, n =>
    if n = 0 then []
    else
      let m := min (dx - i % dx) n
      (i / dx, i % dx, i % dx + m) :: rowSegments dx k (i + m) (n - m)

/-- Source bytes that the destination bytes `[a, b)` of a row need: first byte in the row and count. -/
def segSource (m : ConvMode) (a b : Nat) : Nat × Nat :=
  let (sg, dg) := convGroup m
  (a / dg * sg, ((b - 1) / dg + 1 - a / dg) * sg)

/-- All source bytes of destination bytes `[i, i + n)` have arrived. -/
def CopyDesc.ready (d : CopyDesc) (i n : Nat) : Bool :=
  let x := (copyFields d.words).x
  (rowSegments d.dx (n + 1) i n).all (fun g =>
    let (o, k) := segSource d.mode g.2.1 g.2.2
    d.has (g.1 * x + o) k)

/-- Converted bytes of one row segment, their poison, and the elements that overflowed, counted in the segment that holds
their first output byte (R80, R319, R489). -/
def CopyDesc.segment (d : CopyDesc) (g : Nat × Nat × Nat) : Nat × Nat × Nat :=
  let x := (copyFields d.words).x
  let (sg, dg) := convGroup d.mode
  let (o, k) := segSource d.mode g.2.1 g.2.2
  let p := g.1 * x + o
  let v := memNat d.data p k
  let poi := ofBits ((List.range k).map (fun i => d.poison.contains (p + i)))
  let c := convertRun d.mode k v poi
  let skip := if g.2.1 % dg = 0 then 0 else 1
  let cc := convertRun d.mode (k - skip * sg) (v >>> (8 * sg * skip)) (poi >>> (sg * skip))
  let off := g.2.1 - g.2.1 / dg * dg
  let n := g.2.2 - g.2.1
  (bitsAt c.val (8 * off) (8 * n), bitsAt c.poison off n, cc.overflows)

/-- The bytes of destination positions `[i, i + n)`. -/
def CopyDesc.bytes (d : CopyDesc) (i n : Nat) : Nat × Nat × Nat :=
  ((rowSegments d.dx (n + 1) i n).foldl (fun (acc : Nat × Nat × Nat × Nat) g =>
    let (v, p, k) := d.segment g
    let (av, ap, ak, at_) := acc
    (av + v * 2 ^ (8 * at_), ap + p * 2 ^ at_, ak + k, at_ + (g.2.2 - g.2.1))) (0, 0, 0, 0)) |>
  fun r => (r.1, r.2.1, r.2.2.1)

/-! ### Progress of a descriptor -/

/-- Every request of the descriptor has been issued, or no further one will be (R319, R320). -/
def CopyDesc.allIssued (d : CopyDesc) : Bool :=
  d.done.isSome || d.first.isSome || d.voided
    || (d.active && decide (d.total ≤ d.readPos) && decide (d.dtotal ≤ d.writePos))

/-- The descriptor's status where it has come to its end (R319, R324). -/
def CopyDesc.outcome (d : CopyDesc) : Option Status :=
  if d.done.isSome then none
  else if d.out ≠ 0 then none
  else if d.voided then some .viReset
  else
    match d.first with
    | some (_, st) => some st
    | none =>
      if d.active && decide (d.total ≤ d.readPos) && decide (d.dtotal ≤ d.writePos) then
        some (if d.poisoned then .eccUncorrected else .ok)
      else none

/-- Statistics word `w` of engine `e` grows (R325). -/
def State.ceCount (s : State) (e w n : Nat) : State :=
  let s := if w = 2 ∨ w = 3 ∨ w = 7 then s.setEngine e { s.engine e with workAt := some s.calends } else s
  let x := s.engine e
  s.setEngine e { x with stats := Sparse.bump x.stats w n }

/-- One descriptor of a queue replaced. -/
def State.setCopy (s : State) (e q : Nat) (d : CopyDesc) : State :=
  let x := s.engine e
  s.setEngine e { x with queues := Sparse.set [] x.queues q ((x.queue q).map (fun c => if c.id = d.id then d else c)) }

/-- A descriptor completes (R319): counted, and its event written (R495). -/
def State.completeCopy (s : State) (e q : Nat) (d : CopyDesc) (st : Status) : State :=
  let s := s.setCopy e q { d with done := some st }
  let s := s.ceCount e (if st = .ok then 0 else 1) 1
  let s := if d.voided then s.ceCount e 5 1 else s
  s.svcEvent (ceNode e) 0x40 ((Status.code st) * 65536 + (copyFields d.words).id % 65536)

/-- A descriptor replaced, and completed where it has come to its end. -/
def State.settleCopy (s : State) (e q : Nat) (d : CopyDesc) : State :=
  match d.outcome with
  | some st => s.completeCopy e q d st
  | none => s.setCopy e q d

/-- The error of request `issue` is kept where it is the earliest-issued one, and staged data is discarded (R319). -/
def CopyDesc.fail (d : CopyDesc) (issue : Nat) (st : Status) : CopyDesc :=
  let d := { d with staged := 0 }
  match d.first with
  | some (i, _) => if issue < i then { d with first := some (issue, st) } else d
  | none => { d with first := some (issue, st) }

/-- Bytes that `len` more source bytes of a descriptor convert to (R315, R318). -/
def CopyDesc.converted (d : CopyDesc) (len : Nat) : Nat :=
  let n := (d.arrived.map (·.2)).foldl (· + ·) 0
  let x := (copyFields d.words).x
  (n + len) * d.dx / x - n * d.dx / x

/-- A read of a descriptor ends after `lat` cycles (R319): its data enters the staging buffer, unless the descriptor has
failed or is void. -/
def copyReadEnd (e q id pos len issue : Nat) (st : Status) (data : Loaded) (lat : Nat) (s : State) : State :=
  match ((s.engine e).queue q).find? (fun d => d.id = id) with
  | none => s
  | some d =>
    let d := { d with out := d.out - 1 }
    if st ≠ .ok then s.settleCopy e q (d.fail issue st)
    else
      let s := s.ceCount e 2 len
      if d.voided ∨ d.first.isSome then s.settleCopy e q d
      else
        let bad := ((List.range len).filter (fun i => data.poison.testBit i)).map (· + pos)
        let far := decide (hostBase ≤ (copyFields d.words).srcAt pos)
        s.settleCopy e q
          { d with arrived := d.arrived ++ [(pos, len)], staged := d.staged + d.converted len
                   data := memWrite d.data pos len data.val
                   poison := d.poison ++ bad, poisoned := d.poisoned || decide (data.poison ≠ 0)
                   longest := if far then max d.longest lat else d.longest }

/-- The 64-bit words of the destination at `a` that `n` bytes with the given poison write poisoned (R319, R325). -/
def poisonedWords (a n poison : Nat) : Nat :=
  let m := wordMarks n poison <<< (a % 8)
  ((List.range ((a % 8 + n + 7) / 8)).filter (fun i => bitsAt m (8 * i) 8 ≠ 0)).length

/-- A write of a descriptor ends (R319); `bad` of its words were poisoned. -/
def copyWriteEnd (e q id len issue bad : Nat) (st : Status) (s : State) : State :=
  match ((s.engine e).queue q).find? (fun d => d.id = id) with
  | none => s
  | some d =>
    let d := { d with out := d.out - 1 }
    if st ≠ .ok then s.settleCopy e q (d.fail issue st)
    else
      let s := (s.ceCount e 3 len).ceCount e 6 bad
      let s := if q = 0 then s.ceCount e 4 len else s
      s.settleCopy e q d

/-! ### Activation (R318, R320) -/

/-- The descriptor of a queue that can become active now (R320): the Shelf queue has up to four active, every other one;
ORDER = 1 waits for the predecessor's end. -/
def nextActive (shelf : Bool) (l : List CopyDesc) : Option CopyDesc :=
  let working := (l.filter (fun d => d.active && !d.allIssued)).length
  match l.find? (fun d => !d.active && d.done.isNone) with
  | none => none
  | some d =>
    let before := (l.takeWhile (fun c => c.id ≠ d.id)).getLast?
    if (copyFields d.words).order && before.any (fun c => c.done.isNone) then none
    else if working < (if shelf then 4 else 1) then some d
    else none

/-- COPY_ACTIVATE (R318, R320): the conversion value is latched; a descriptor that moves nothing completes OK, and one
whose entry is not VALID or whose rows are not whole elements completes BAD_DESCRIPTOR. -/
def execCopyActivate (e : CeId) (q : Nat) (s : State) : Host.Outcome State Fault Refusal :=
  if s.ceIsolated e.val then .next s
  else
    match nextActive (q = 0) ((s.engine e.val).queue q) with
    | none => .next s
    | some d =>
      let f := copyFields d.words
      let v := d.carried.getD (if f.conv = 0 then 0 else s.obj (0x5010 + 0x100 * d.part) f.conv 0)
      let d := { d with active := true, conv := v }
      if f.x = 0 ∨ f.y = 0 ∨ f.z = 0 then .next (s.completeCopy e.val q d .ok)
      else
        match (convMode (if d.carried.isSome then 1 else f.conv) v).bind (fun m => convBytes m f.x) with
        | none => .next (s.completeCopy e.val q d .badDescriptor)
        | some _ => .next (s.setCopy e.val q d)

/-! ### Request issue (R318, R321, R323) -/

/-- Requests of a direction of a descriptor go to the remote device (R273, R323). -/
def State.copyRemote (s : State) (d : CopyDesc) (write : Bool) : Bool :=
  let f := copyFields d.words
  s.remote f && f.side = (if write then 2 else 1)

/-- REMOTE_PORT of the remote device of a descriptor (R273). -/
def State.copyPort (s : State) (d : CopyDesc) : Nat := s.obj 0x3100 (copyFields d.words).device 255

/-- The target of a request of a descriptor at address `a`; pieces to one target keep their order (R318). -/
def State.copyTarget (s : State) (d : CopyDesc) (write : Bool) (a : Nat) : Option Nat :=
  if s.copyRemote d write then some (newenNode (s.copyPort d % 8)) else s.nodeOfAddr d.part a

/-- A request of a descriptor: to the remote device where that side is remote (R273, R323). -/
def State.copyPacket (s : State) (e q : Nat) (d : CopyDesc) (write : Bool) (a n v poison : Nat) : Packet :=
  let f := copyFields d.words
  let cmd := if write then (if n ≤ 32 then cmdWrite else cmdWritePull) else cmdRead
  let p := mkPacket cmd (ceNode e) 0 (if q = 0 then 1024 else 0) a n f.conv d.vi d.part (if q = 0 then 3 else 2) 0 v poison
  if s.copyRemote d write then
    { p with dest := BitVec.ofNat 14 (newenNode (s.copyPort d % 8))
             ext := some { device := BitVec.ofNat 6 f.device, node := BitVec.ofNat 14 ((s.nodeOfAddr d.part a).getD 0), responder := 0 } }
  else p

/-- A request of a descriptor is issued, where it can be; to a device that no port serves it ends NOT_FOUND (R273). -/
def State.copySend (s : State) (e : Nat) (p : Packet) (d : CopyDesc) (write : Bool) (why : Purpose) : IssueEnd :=
  if s.copyRemote d write ∧ s.copyPort d = 255 then .ended s .notFound else s.issueRequest (ceNode e) p why

/-- Bytes of the staging buffer of an engine that data awaiting its write holds (R315). -/
def State.staged (s : State) (e : Nat) : Nat :=
  ((s.engine e).queues.flatMap (fun q => q.2.map (fun d => if d.voided || d.done.isSome then 0 else d.staged))).foldl (· + ·) 0

/-- The staging buffer has room for a read of `n` bytes beside the replies that are due and the data that awaits its write
(R262, R315). A read ahead of its descriptor's order leaves the room of one piece (log entry 97). -/
def State.stagingRoom (s : State) (e n : Nat) (ahead : Bool) : Bool :=
  let due := ((s.initiator (ceNode e)).out.map (fun r => roomOf r.pkt)).foldl (· + ·) 0
  decide (due + s.staged e + (n + 63) / 64 * 64 + (if ahead then 2048 else 0) ≤ replyRoom (ceNode e))

/-- The cursor passes over positions already issued. -/
def advance (len : Nat → Nat) (ahead : List Nat) : Nat → Nat → Nat × List Nat
  | 0, pos => (pos, ahead)
  | k + 1, pos => if ahead.contains pos then advance len (ahead.erase pos) k (pos + len pos) else (pos, ahead)

/-- A descriptor whose piece at `pos` of one direction has left. -/
def CopyDesc.readIssued (d : CopyDesc) (pos : Nat) : CopyDesc :=
  let (p, ahead) := advance (copyFields d.words).readLen (pos :: d.readAhead) (d.readAhead.length + 1) d.readPos
  { d with readPos := p, readAhead := ahead, issued := d.issued + 1 }

def CopyDesc.writeIssued (d : CopyDesc) (pos n : Nat) : CopyDesc :=
  let (p, ahead) := advance ((copyFields d.words).writeLen d.dx) (pos :: d.writeAhead) (d.writeAhead.length + 1) d.writePos
  { d with writePos := p, writeAhead := ahead, issued := d.issued + 1, staged := d.staged - n }

/-- A read is issued where one can be (R318): the first piece from `pos` on whose slot and reply room are free, no earlier piece
of whose target waits. -/
def State.tryRead (s : State) (e q : Nat) (d : CopyDesc) : Nat → Nat → List (Option Nat) → Option State
  | 0, _, _ => none
  | k + 1, pos, waiting =>
    let f := copyFields d.words
    let n := f.readLen pos
    let t := s.copyTarget d false (f.srcAt pos)
    if d.total ≤ pos then none
    else if d.readAhead.contains pos then s.tryRead e q d k (pos + n) waiting
    else if waiting.contains t || !(s.stagingRoom e n (pos ≠ d.readPos)) then s.tryRead e q d k (pos + n) (t :: waiting)
    else
      match s.copySend e (s.copyPacket e q d false (f.srcAt pos) n 0 0) d false (.copyRead q d.id pos n d.issued) with
      | .waits => s.tryRead e q d k (pos + n) (t :: waiting)
      | .sent s =>
        let d := d.readIssued pos
        some ((s.ceCount e 7 1).setCopy e q { d with out := d.out + 1 })
      | .ended s st => some (s.settleCopy e q ((d.readIssued pos).fail d.issued st))

/-- What an issued write counts of the elements it converted (R80, R489). -/
def State.countOverflows (s : State) (e : Nat) (d : CopyDesc) (k : Nat) : State :=
  let s := s.ceCount e 8 k
  let fmt := match d.mode with
    | .opts o => (List.range 12).findIdx (fun k => NumFmt.ofCode k = some o.dst)
    | .raw => 0
  if s.obj 0x3001 0 0 = 1 then
    s.svcEvents (ceNode e) 0x04 ((copyFields d.words).conv * 65536 + fmt) k
  else s

/-- A write is issued where one can be (R318): the first piece from `pos` on whose bytes are all converted and whose slot is
free, no earlier piece of whose target waits. -/
def State.tryWrite (s : State) (e q : Nat) (d : CopyDesc) : Nat → Nat → List (Option Nat) → Option State
  | 0, _, _ => none
  | k + 1, pos, waiting =>
    let f := copyFields d.words
    let n := f.writeLen d.dx pos
    let t := s.copyTarget d true (f.dstAt d.dx pos)
    if d.dtotal ≤ pos then none
    else if d.writeAhead.contains pos then s.tryWrite e q d k (pos + n) waiting
    else if waiting.contains t || !(d.ready pos n) then s.tryWrite e q d k (pos + n) (t :: waiting)
    else
      let (v, poi, big) := d.bytes pos n
      match s.copySend e (s.copyPacket e q d true (f.dstAt d.dx pos) n v poi) d true (.copyWrite q d.id n d.issued) with
      | .waits => s.tryWrite e q d k (pos + n) (t :: waiting)
      | .sent s =>
        let d' := d.writeIssued pos n
        some (((s.ceCount e 7 1).countOverflows e d big).setCopy e q { d' with out := d'.out + 1 })
      | .ended s st => some (s.settleCopy e q ((d.writeIssued pos n).fail d.issued st))

/-- A request of one descriptor; `w` tells which direction is tried first. -/
def State.tryCopy (s : State) (e q : Nat) (d : CopyDesc) (w : Bool) : Option State :=
  if !d.active || d.done.isSome || d.first.isSome || d.voided
      || decide (requestLimit (ceNode e) ≤ (s.initiator (ceNode e)).out.length)
      || (decide (2 ≤ q) && (s.partition d.part).state = .hung) then none
  else
    let rs := fun (_ : Unit) => s.tryRead e q d (d.total - d.readPos) d.readPos []
    let ws := fun (_ : Unit) => s.tryWrite e q d (d.dtotal - d.writePos) d.writePos []
    if w then (ws ()).or (rs ()) else (rs ()).or (ws ())

/-- The first of some descriptors that can issue, with its number. -/
def State.tryEach (s : State) (e q : Nat) (w : Bool) : List CopyDesc → Option (CopyDesc × State)
  | [] => none
  | d :: ds =>
    match s.tryCopy e q d w with
    | some s' => some (d, s')
    | none => s.tryEach e q w ds

/-- The first of some VIs whose queue can issue. -/
def State.tryVis (s : State) (e : Nat) (w : Bool) : List Nat → Option (Nat × State)
  | [] => none
  | v :: vs =>
    match s.tryEach e (2 + v) w ((s.engine e).queue (2 + v)) with
    | some (_, s') => some (v, s')
    | none => s.tryVis e w vs

/-- COPY_REQUEST_ISSUE (R321, R510): the Shelf queue round robin, then the management queue, then the VI queues round robin with
CE_SHARE requests to a turn. Where a descriptor could both read and write, the spec does not say which goes first: `w`
says it. -/
def execCopyRequestIssue (e : CeId) (w : Bool) (s : State) : Host.Outcome State Fault Refusal :=
  if s.ceIsolated e.val ∨ s.vigil.hung then .next s
  else
    let x := s.engine e.val
    let shelf := x.queue 0
    let order := shelf.filter (fun d => decide (x.lastShelf < d.id)) ++ shelf.filter (fun d => decide (d.id ≤ x.lastShelf))
    match s.tryEach e.val 0 w order with
    | some (d, s) => .next (s.setEngine e.val { s.engine e.val with lastShelf := d.id })
    | none =>
      match s.tryEach e.val 1 w (x.queue 1) with
      | some (_, s) => .next s
      | none =>
        let share := s.obj (0x5800 + 0x10 * x.lastVi) 1 4
        let others := (List.range 64).map (fun i => (x.lastVi + 1 + i) % 64)
        let vis := if x.run < share then x.lastVi :: others else others
        match s.tryVis e.val w vis with
        | some (v, s) =>
          let y := s.engine e.val
          .next (s.setEngine e.val { y with lastVi := v, run := if v = x.lastVi ∧ x.run < share then x.run + 1 else 1 })
        | none => .next s

end Sys2Proof.Machine
end

