-- ==== Sys2Proof/Machine/TileControl.lean ====
section
/-! DEFINITION. The control instructions of a tile: NOP, END, JMP, BR, LOOP, WAIT, TINC, TWAIT (R153, R157 to R162). -/

namespace Sys2Proof.Machine

/-- NOP (R157): nothing but the cycle. -/
def execNop (t : TileId) (f : FmtR) (s : State) : Host.Outcome State Fault Refusal :=
  .next (issue t s (legalR f false false false false false false false false false) false [] (fun _ => .done s))

/-- END (R153). -/
def execEndTask (t : TileId) (f : FmtR) (s : State) : Host.Outcome State Fault Refusal :=
  .next (issue t s (legalR f false false false false false false false false false) false [] (fun _ => .halt s))

/-- A branch to PC + IMM (R158): inside the program, to its end, or OUT_OF_RANGE. -/
def branchTo (s : State) (x : Tile) (imm : BitVec 32) : Issue :=
  let target := (x.pc : Int) + imm.toInt
  if target < 0 ∨ (x.progN : Int) < target then .fault .outOfRange else .jump s target.toNat

/-- JMP (R158). -/
def execJmp (t : TileId) (f : FmtJ) (s : State) : Host.Outcome State Fault Refusal :=
  .next (issue t s (f.a = 0 && f.b = 0 && f.cond = 0 && !f.i && f.len = 0) false [] (fun x => branchTo s x f.imm))

/-- The test a COND field names (R159). -/
def branchTest (cond : Nat) (a b : BitVec 64) : Bool :=
  match cond with
  | 0 => a = b
  | 1 => a ≠ b
  | 2 => a.slt b
  | 3 => b.sle a
  | 4 => a.ult b
  | _ => b.ule a

/-- BR (R159); a poisoned operand faults (R599). A branch not taken passes on sequentially (R160). -/
def execBr (t : TileId) (f : FmtJ) (s : State) : Host.Outcome State Fault Refusal :=
  .next (issue t s (f.cond.toNat ≤ 5 && !f.i && f.len = 0) false [] (fun x =>
    let a := x.greg f.a
    let b := x.greg f.b
    guardPoison [a.poison, b.poison] (
      if branchTest f.cond.toNat a.val b.val then branchTo s x f.imm else .done s)))

/-- LOOP (R160). -/
def execLoop (t : TileId) (f : FmtJ) (s : State) : Host.Outcome State Fault Refusal :=
  .next (issue t s (f.b = 0 && f.cond = 0 && (if f.i then f.a = 0 else f.imm = 0)) false [] (fun x =>
    let a := x.greg f.a
    let count := if f.i then f.imm.toNat else a.val.toNat
    let len := f.len.toNat
    let last := x.pc + len
    guardPoison [!f.i && a.poison] (
      if 2 ^ 32 ≤ count ∨ x.progN ≤ last ∨ x.loops.any (fun l => decide (x.pc + 1 < l.first) || decide (l.last < last))
          ∨ 4 ≤ x.loops.length then .fault .outOfRange
      else if count = 0 ∨ len = 0 then .skip s last
      else
        -- the body starts at the next instruction
        .done (s.setTile t { x with loops := ⟨x.pc + 1, last, count⟩ :: x.loops }))))

/-- WAIT (R161): holds until every selected condition is true. -/
def execWait (t : TileId) (f : FmtW) (s : State) : Host.Outcome State Fault Refusal :=
  .next (issue t s (f.r = 0 && f.n.toNat ≤ 8 && (f.noc || f.n = 0)) false [] (fun x =>
    if f.noc && decide (f.n.toNat < x.xfers.length) then .hold 2
    else if f.mma && (x.mmaRun.isSome || x.mmaQueue.isSome) then .hold 4
    else if f.drn && (x.drainRun.isSome || x.drainQueue.isSome) then .hold 4
    else if f.lac && !x.laces.isEmpty then .hold 3
    else .done s))

/-- The tally belongs to a queue bound to the task's VI (R197). -/
def State.tallyAllowed (s : State) (c vi tally : Nat) : Bool :=
  s.obj (0x4010 + 0x100 * c) (tally / 16) 255 = vi

/-- The operand of TINC and TWAIT: Ga[31:0] or IMM (R162). -/
def tallyOperand (x : Tile) (f : FmtY) : GReg :=
  if f.i then ⟨f.imm.setWidth 64, false⟩ else x.greg f.a

/-- Encoding of TINC and TWAIT: A is reserved with I = 1, IMM with I = 0 (R155). -/
def legalTally (f : FmtY) : Bool := f.r = 0 && (if f.i then f.a = 0 else f.imm = 0)

/-- The DEST = 1 drains of a tile that have not completed. -/
def Tile.nocDrains (x : Tile) : Nat :=
  ([x.drainRun, x.drainQueue].filter (fun d => match d with
    | some o => o.w0.getLsbD 37
    | none => false)).length

/-- The task of a tile has faulted or been stopped, or a fault of one of its operations waits to be reported (R169, R189,
R205). -/
def Tile.failing (x : Tile) : Bool := x.stopped || x.fault.isSome || !x.asyncFaults.isEmpty

/-- The increments of TINCs whose earlier writes are all acknowledged leave for the sequencer, in order; those of a task that
has faulted or been stopped are dropped (R162, R205). -/
def flushTincs (t : TileId) (s : State) : State :=
  let x := s.tile t
  if x.failing then s.setTile t { x with tincs := [] }
  else
  let ready := x.tincs.filter (fun w => w.xfers.isEmpty && w.drains = 0)
  let s := s.setTile t { x with tincs := x.tincs.filter (fun w => !(w.xfers.isEmpty && w.drains = 0)) }
  match x.task with
  | some k => ready.foldl (fun s w =>
      s.sendControl cmdTallyAdd t.val (seqNode (clusterOfTile t.val)) 0 w.tally (k.vi, k.part, k.priority) 0 w.amount.toNat) s
  | none => s

/-- TINC (R162). -/
def execTinc (t : TileId) (f : FmtY) (s : State) : Host.Outcome State Fault Refusal :=
  .next (issue t s (legalTally f) false [] (fun x =>
    let a := tallyOperand x f
    let vi := (x.task.map (·.vi)).getD 0
    guardPoison [a.poison] (
      if !(s.tallyAllowed (clusterOfTile t.val) vi f.num.toNat) then .fault .accessLevel
      else
        let w : TincWait := ⟨f.num.toNat, a.val.setWidth 32, (x.xfers.filter (·.isPut)).map (·.seq), x.nocDrains⟩
        .done (flushTincs t (s.setTile t { x with tincs := x.tincs ++ [w] })))))

/-- TWAIT (R162, R256): the first attempt sends the watch; the instruction issues once the sequencer's notice has come. -/
def execTwait (t : TileId) (f : FmtY) (s : State) : Host.Outcome State Fault Refusal :=
  .next (issue t s (legalTally f) false [] (fun x =>
    let a := tallyOperand x f
    let k := x.task
    let vi := (k.map (·.vi)).getD 0
    guardPoison [a.poison] (
      if !(s.tallyAllowed (clusterOfTile t.val) vi f.num.toNat) then .fault .accessLevel
      else
        match x.watch with
        | some w =>
          if w.met then .done (s.setTile t { x with watch := none }) else .hold 5
        | none =>
          let s := s.setTile t { x with watch := some ⟨f.num.toNat, a.val.setWidth 32, false⟩ }
          .holdWith (s.sendControl cmdTallyWatch t.val (seqNode (clusterOfTile t.val)) 0 f.num.toNat
            (vi, (k.map (·.part)).getD 0, (k.map (·.priority)).getD 0) 0 (a.val.toNat % 2 ^ 32)) 5)))

end Sys2Proof.Machine
end

