-- ==== Sys2Proof/Machine/Transfer.lean ====
section
/-! DEFINITION. Network transfers of a tile: GET, PUT, XFER (R166 to R168), the issue of their pieces (R167), what a
response does to a transfer (R167, R169, R280) and the report of its fault (R169). -/

namespace Sys2Proof.Machine

/-- The pieces of the `total` remote bytes of a row at `remote`: at most 2 KiB, at 2 KiB-aligned remote addresses, which
are also the boundaries of R49 (R167). -/
def rowPieces (row remote total : Nat) : Nat → Nat → List Piece
  | 0, _ => []
  | k + 1, off =>
    if total ≤ off then []
    else
      let len := min (2048 - (remote + off) % 2048) (total - off)
      ⟨row, off, len⟩ :: rowPieces row remote total k (off + len)

/-- What a transfer asks for: direction, conversion entry and the rows. -/
structure TransferAsk where
  isPut : Bool
  convId : Nat
  remote : Nat
  remoteStride : Nat
  loc : Nat
  locStride : Nat
  rowBytes : Nat
  rows : Nat

/-- The range check of R166, 3, for one row at local offset `o`. -/
def rangeOk (x : Tile) (isPut : Bool) (o srcBytes dstBytes : Nat) : Bool :=
  if isPut then decide (o + srcBytes ≤ 0x18000)
  else
    (decide (x.progLen ≤ o) && decide (o + dstBytes ≤ 0x18000))
      || (decide (0x1A000 ≤ o) && decide (o + dstBytes ≤ 0x1AC00)) || decide (dstBytes = 0)

/-- The checks of R166 and R168; the first that fails gives the status. R168 does not order its two limits of 98,304 bytes
against the row checks: ROWS x ROW_BYTES comes first, then the rows in order, then the local span (log entry 77). -/
def checkTransfer (x : Tile) (a : TransferAsk) (m : Option ConvMode) : Status :=
  let row := fun r =>
    if 2 ^ 48 ≤ a.remote + r * a.remoteStride ∨ 98304 < a.rowBytes then Status.outOfRange
    else
      match m.bind (fun m => convBytes m a.rowBytes) with
      | none => .badDescriptor
      | some d =>
        if rangeOk x a.isPut (a.loc + r * a.locStride) a.rowBytes d then .ok else .outOfRange
  if 98304 < a.rows * a.rowBytes then .outOfRange
  else
    match (List.range a.rows).find? (fun r => row r ≠ .ok) with
    | some r => row r
    | none =>
      let last := if a.isPut then a.rowBytes else ((m.bind (fun m => convBytes m a.rowBytes)).getD 0)
      if 98304 < (a.rows - 1) * a.locStride + last then .outOfRange else .ok

/-- A transfer instruction waits while the network interface holds 8, whatever it asks for (R149, R167; log entry 76). -/
def nocFull (x : Tile) : Option Nat := if 8 ≤ x.xfers.length then some 1 else none

/-- Issue of a transfer instruction (R166 to R168): nothing to do, a fault, or the transfer enters the network interface. -/
def issueTransfer (t : TileId) (s : State) (x : Tile) (a : TransferAsk) : Issue :=
  if a.rows = 0 ∨ a.rowBytes = 0 then .done s
  else
    let c := clusterOfTile t.val
    let e := s.convEntry c ((x.task.map (·.part)).getD 0) a.convId
    let m := convMode a.convId e
    match checkTransfer x a m with
    | .ok =>
      let total := if a.isPut then ((m.bind (fun m => convBytes m a.rowBytes)).getD 0) else a.rowBytes
      let todo := (List.range a.rows).flatMap
        (fun r => rowPieces r (a.remote + r * a.remoteStride) total (total / 2048 + 2) 0)
      let tr : Transfer :=
        { seq := x.issueSeq, index := x.pc, isPut := a.isPut, convId := a.convId, conv := e,
          remote := a.remote, remoteStride := a.remoteStride, loc := a.loc, locStride := a.locStride,
          rowBytes := a.rowBytes, todo := todo }
      if todo = [] then .done s
      else .done (s.setTile t { x with xfers := x.xfers ++ [tr], issueSeq := x.issueSeq + 1 })
    | st => .faultWith s st

/-- GET (R166). -/
def execGet (t : TileId) (f : FmtT) (s : State) : Host.Outcome State Fault Refusal :=
  .next (issueTo t s nocFull (f.r = 0) false [] (fun x =>
    let a := x.greg f.a
    let b := x.greg f.b
    let c := x.greg f.c
    guardPoison [a.poison, b.poison, c.poison] (
      issueTransfer t s x ⟨false, f.conv.toNat, a.val.toNat, 0, b.val.toNat, 0, c.val.toNat, 1⟩)))

/-- PUT (R166). -/
def execPut (t : TileId) (f : FmtT) (s : State) : Host.Outcome State Fault Refusal :=
  .next (issueTo t s nocFull (f.r = 0) false [] (fun x =>
    let a := x.greg f.a
    let b := x.greg f.b
    let c := x.greg f.c
    guardPoison [a.poison, b.poison, c.poison] (
      issueTransfer t s x ⟨true, f.conv.toNat, a.val.toNat, 0, b.val.toNat, 0, c.val.toNat, 1⟩)))

/-- XFER (R168): the descriptor is read at issue; an uncorrectable error in it is reported before every other check. -/
def execXfer (t : TileId) (f : FmtT) (s : State) : Host.Outcome State Fault Refusal :=
  .next (issueTo t s nocFull (f.r = 0 && f.a = 0 && f.c = 0 && f.conv = 0) false [] (fun x =>
    let b := x.greg f.b
    guardPoison [b.poison] (
      let o := b.val.toNat
      if 0x18000 < o + 32 then .fault .outOfRange
      else
        let (r, s) := s.load (tileAddr t.val o) 32
        if r.poison ≠ 0 then .faultWith s .eccUncorrected
        else if o % 32 ≠ 0 then .faultWith s .outOfRange
        else
          let w := fun i => laneNat r.val 64 i
          if bitsAt (w 0) 49 15 ≠ 0 ∨ bitsAt (w 1) 32 24 ≠ 0 ∨ bitsAt (w 3) 17 31 ≠ 0 then .faultWith s .illegalEncoding
          else
            issueTransfer t s (s.tile t)
              ⟨(w 0).testBit 48, bitsAt (w 1) 56 8, bitsAt (w 0) 0 48, bitsAt (w 2) 32 32, bitsAt (w 3) 0 17,
                bitsAt (w 2) 0 32, bitsAt (w 1) 0 32, bitsAt (w 3) 48 16⟩)))

/-! ### Pieces -/

/-- The conversion of a transfer (raw for an entry that was valid at issue as raw). -/
def Transfer.mode (tr : Transfer) : ConvMode := (convMode tr.convId tr.conv).getD .raw

/-- Device address of a piece. -/
def Transfer.remoteAddr (tr : Transfer) (p : Piece) : Nat := tr.remote + p.row * tr.remoteStride + p.off

/-- The bytes a PUT piece sends, read and converted as they stand now (R167, R265, R267), and what the conversion leaves.
An element counts in the piece that holds its first output byte. -/
def State.putBytes (s : State) (t : TileId) (tr : Transfer) (p : Piece) : Loaded × State :=
  let m := tr.mode
  let (sg, dg) := convGroup m
  let i0 := p.off / dg
  let i1 := (p.off + p.len - 1) / dg
  let src := tileAddr t.val (tr.loc + p.row * tr.locStride)
  let (r, s) := s.load (src + i0 * sg) ((i1 + 1 - i0) * sg)
  let cv := convertRun m ((i1 + 1 - i0) * sg) r.val r.poison
  let skip := if p.off % dg = 0 then 0 else 1
  let counted := convertRun m ((i1 + 1 - i0 - skip) * sg) (r.val >>> (8 * sg * skip)) (r.poison >>> (sg * skip))
  let x := (s.tile t).converted s (clusterOfTile t.val) tr.convId m counted
  let d := p.off - i0 * dg
  (⟨bitsAt cv.val (8 * d) (8 * p.len), bitsAt cv.poison d p.len⟩,
    s.setTile t { x with eccSeen := x.eccSeen || decide (bitsAt cv.poison d p.len ≠ 0) })

/-- The request packet of a piece; its target is found at issue (R255, R265, R267). -/
def pieceRequest (t : TileId) (k : TileTask) (tr : Transfer) (p : Piece) (data : Loaded) : Packet :=
  let cmd := if tr.isPut then (if p.len ≤ 32 then cmdWrite else cmdWritePull) else cmdRead
  let inline := decide (cmd = cmdWrite)
  mkPacket cmd t.val 0 0 (tr.remoteAddr p) p.len tr.convId k.vi k.part k.priority 0
    (if inline then data.val else 0) (if inline then data.poison else 0)

/-- Transfers with one entry changed by a function; a transfer with nothing left to do and nothing outstanding leaves. -/
def Tile.updXfer (x : Tile) (seq : Nat) (g : Transfer → Transfer) : Tile :=
  let l := x.xfers.map (fun tr => if tr.seq = seq then g tr else tr)
  { x with xfers := l.filter (fun tr => !(tr.todo.isEmpty && tr.out = 0)) }

/-- TINCs no longer wait for transfers that have left. -/
def Tile.tincsAfter (x : Tile) : Tile :=
  { x with tincs := x.tincs.map (fun w => { w with xfers := w.xfers.filter (fun q => x.xfers.any (fun tr => tr.seq = q)) }) }

/-- The groups of elements of a row, in output order, that a piece completes: first group and count (R167). -/
def readyGroups (arrived : List Piece) (p : Piece) (sg : Nat) : Nat × Nat :=
  let covered := fun i =>
    decide (((arrived.filter (fun q => q.row = p.row)).map (fun q =>
      min (q.off + q.len) (i * sg + sg) - max q.off (i * sg))).foldl (· + ·) 0 = sg)
  let i0 := p.off / sg
  let i1 := (p.off + p.len - 1) / sg
  let first := if covered i0 then i0 else i0 + 1
  let last := if covered i1 then i1 + 1 else i1
  (first, last - first)

/-- The data of a GET piece is written, converted, into its destination (R165, R167): raw bytes as they come, converted
elements once all their bytes are here. -/
def State.landPiece (s : State) (t : TileId) (tr : Transfer) (p : Piece) (d : Loaded) : State × Transfer :=
  let dst := tileAddr t.val (tr.loc + p.row * tr.locStride)
  match tr.mode with
  | .raw =>
    let s := s.store (dst + p.off) p.len d.val (d.poison % 2 ^ p.len)
    let x := s.tile t
    (s.setTile t { x with eccSeen := x.eccSeen || decide (d.poison ≠ 0) }, tr)
  | m =>
    let (sg, dg) := convGroup m
    let key := p.row * 2 ^ 20
    let bad := ((List.range p.len).filter (fun i => d.poison.testBit i)).map (· + (key + p.off))
    let tr :=
      { tr with
        arrived := tr.arrived ++ [p], data := memWrite tr.data (key + p.off) p.len d.val,
        dataPoison := tr.dataPoison ++ bad }
    let (g0, k) := readyGroups tr.arrived p sg
    let val := memNat tr.data (key + g0 * sg) (k * sg)
    let poi := ofBits ((List.range (k * sg)).map (fun i => tr.dataPoison.contains (key + g0 * sg + i)))
    let cv := convertRun m (k * sg) val poi
    let s := s.store (dst + g0 * dg) (k * dg) cv.val cv.poison
    let x := (s.tile t).converted s (clusterOfTile t.val) tr.convId m cv
    (s.setTile t { x with eccSeen := x.eccSeen || decide (cv.poison ≠ 0) || decide (d.poison ≠ 0) }, tr)

/-- Free bytes for a destination that a TIMEOUT marks poisoned: `n` of them as one number (R280, log entry 6). -/
def State.freeBytes (s : State) (n : Nat) : Nat × State :=
  (ofLanes 8 ((List.range n).map (fun i => (Config.freeByte (s.free + i)).toNat)), { s with free := s.free + n })

/-- The output bytes of a GET piece that timed out are written marked poisoned (R169, R280). -/
def State.poisonPiece (s : State) (t : TileId) (tr : Transfer) (p : Piece) : State :=
  let dst := tileAddr t.val (tr.loc + p.row * tr.locStride)
  let (sg, dg) := convGroup tr.mode
  let i0 := p.off / sg
  let i1 := (p.off + p.len - 1) / sg
  let n := (i1 + 1 - i0) * dg
  let (v, s) := s.freeBytes n
  s.store (dst + i0 * dg) n v (2 ^ n - 1)

/-- A piece of a transfer of tile `t` ends (R167, R169): with its data, or with an error status, from which on no further
piece issues and which is a fault of the transfer. -/
def pieceEnd (t : TileId) (seq : Nat) (p : Piece) (st : Status) (d : Loaded) (s : State) : State :=
  match (s.tile t).xfers.find? (fun tr => tr.seq = seq) with
  | none => s
  | some tr =>
    let (s, tr) :=
      if st = .ok then (if tr.isPut then (s, tr) else s.landPiece t tr p d)
      else if st = .timeout ∧ !tr.isPut then (s.poisonPiece t tr p, tr)
      else (s, tr)
    let x := s.tile t
    let first := st ≠ .ok ∧ tr.err = none
    let tr :=
      { tr with
        out := tr.out - 1, todo := if st = .ok then tr.todo else [],
        err := if first then some st else tr.err }
    let x := (x.updXfer seq (fun _ => tr)).tincsAfter
    let x := if first then { x with asyncFaults := x.asyncFaults ++ [(seq, tr.index, st)] } else x
    flushTincs t (s.setTile t x)

/-- The next piece that can issue, in order of transfers and pieces, and what became of it (R167, R262). -/
def tryPieces (t : TileId) (s : State) (k : TileTask) : List (Transfer × Piece) → State
  | [] => s
  | (tr, p) :: rest =>
    let (d, s') := if tr.isPut ∧ p.len ≤ 32 then s.putBytes t tr p else (⟨0, 0⟩, s)
    match s'.issueAt t.val (tr.remoteAddr p) (pieceRequest t k tr p d) (.piece tr.seq p) with
    | .waits => tryPieces t s k rest
    | .sent s'' =>
      s''.setTile t ((s''.tile t).updXfer tr.seq (fun tr => { tr with todo := tr.todo.erase p, out := tr.out + 1 }))
    | .ended s'' st =>
      let x := (s''.tile t).updXfer tr.seq (fun tr => { tr with todo := tr.todo.erase p, out := tr.out + 1 })
      pieceEnd t tr.seq p st ⟨0, 0⟩ (s''.setTile t x)

/-- TRANSFER_PIECE_ISSUE (R167, R262, R600). -/
def execTransferPieceIssue (t : TileId) (s : State) : Host.Outcome State Fault Refusal :=
  let x := s.tile t
  match x.task with
  | none => .next s
  | some k => .next (tryPieces t s k (x.xfers.flatMap (fun tr => tr.todo.map (fun p => (tr, p)))))

/-- TRANSFER_FAULT_REPORT (R169): at an instruction boundary, the fault of the transfer or LACE that issued first. -/
def execTransferFaultReport (t : TileId) (s : State) : Host.Outcome State Fault Refusal :=
  let x := s.tile t
  if x.task.isNone || x.stopped || x.fault.isSome then .next s
  else
    match x.asyncFaults with
    | [] => .next s
    | f :: fs =>
      let first := fs.foldl (fun a b => if b.1 < a.1 then b else a) f
      .next (s.setTile t { x with fault := some (first.2.1, first.2.2) })

end Sys2Proof.Machine
end

