-- ==== Sys2Proof/Machine/Array.lean ====
section
/-! DEFINITION. The array and the finishing stage of a tile: MMA (R97 to R117, R170 to R172), DRAIN (R141 to R145, R173)
and the events of their units. -/

namespace Sys2Proof.Machine

/-! ### Combinations -/

/-- B as multiplied (R99): its code as read, a table entry or a zero-point difference, in a format. -/
inductive BOperand where
  | code (f : NumFmt)
  | table (target : NumFmt)
  | zeroPoint (f : NumFmt) (isInt : Bool)
deriving DecidableEq, Repr

/-- An accepted combination: the kind of the fold, A's format, B's operand, passes. -/
structure MmaCombo where
  kind : AccKind
  a : NumFmt
  bRead : NumFmt
  b : BOperand
deriving DecidableEq, Repr

/-- 4-bit integer codes a table expands, and the integer codes a zero point takes (R99). -/
def NumFmt.isNibbleInt : NumFmt → Bool
  | .int4 | .uint4 => true
  | _ => false
def NumFmt.isNarrowInt : NumFmt → Bool
  | .int4 | .uint4 | .int8 | .uint8 => true
  | _ => false

/-- The combination an MMA names, if R99, R103 and R170 accept it. -/
def mmaCombo (f : FmtX) : Option MmaCombo :=
  match NumFmt.ofCode f.afmt.toNat, NumFmt.ofCode f.bfmt.toNat with
  | some a, some b =>
    if f.strict then
      if f.mode || f.expk || f.early || f.sel ≠ 0 || f.passes ≠ 0 || !a.isStrict || !b.isStrict then none
      else some ⟨.strict, a, b, .code b⟩
    else if !f.mode then
      if f.expk || f.early || f.sel ≠ 0 then none
      else if a = .fp32 ∧ b = .fp32 then (if f.passes = 0 then none else some ⟨.fp, a, b, .code b⟩)
      else if f.passes ≠ 0 then none
      else
        let int := fun (x : NumFmt) => x = .int4 || x = .int8
        let lf := fun (x : NumFmt) => x = .lf4 || x = .lf8
        if int a && int b then some ⟨.int, a, b, .code b⟩
        else if lf a && lf b then some ⟨.fp, a, b, .code b⟩
        else if a = b ∧ (a = .e4m3 ∨ a = .e5m2 ∨ a = .bf16) then some ⟨.fp, a, b, .code b⟩
        else none
    else if f.passes ≠ 0 then none
    else if !f.expk then
      if !b.isNibbleInt then none
      else
        match a with
        | .e4m3 => some ⟨.fp, a, b, .table .e4m3⟩
        | .lf4 | .lf8 => some ⟨.fp, a, b, .table .lf8⟩
        | .bf16 => some ⟨.fp, a, b, .table .bf16⟩
        | _ => none
    else if !b.isNarrowInt then none
    else
      match a with
      | .int4 | .int8 => if f.early then none else some ⟨.int, a, b, .zeroPoint b true⟩
      | .bf16 => some ⟨.fp, a, b, .zeroPoint b false⟩
      | _ => none
  | _, _ => none

/-- Offset of an expansion table, a scale vector and a zero-point vector (R136). -/
def tableOff (n : Nat) : Nat := 0x1A000 + 32 * n
def scaleOff (n : Nat) : Nat := 0x1A200 + 128 * n
def zeroPointOff (n : Nat) : Nat := 0x1AA00 + 32 * n

/-- A table expansion to an 8-bit target finds non-zero bits [15:8] in an entry of its table (R122, R171). -/
def tableTooWide (s : State) (t : TileId) (c : MmaCombo) (sel : Nat) : Bool :=
  match c.b with
  | .table .bf16 => false
  | .table _ =>
    let v := memNat s.mem.cells (tileAddr t.val (tableOff sel)) 32
    (List.range 16).any (fun i => bitsAt v (16 * i + 8) 8 ≠ 0)
  | _ => false

/-- Bytes of an A column and of a B row (R170). -/
def aBytes (c : MmaCombo) : Nat := 16 * c.a.width / 8
def bBytes (c : MmaCombo) : Nat := 32 * c.bRead.width / 8

/-- MMA (R170 to R172): checked at issue, placed in the array queue, for which it waits under ACC. R171 does not say which of its
checks are encoding checks of R156, ahead of the poisoned operands of R599: those of the word alone are, the role and the
table's content are not (log entry 78). -/
def execMma (t : TileId) (f : FmtX) (s : State) : Host.Outcome State Fault Refusal :=
  .next (issueTo t s (fun x => if x.mmaQueue.isSome then some 4 else none) (mmaCombo f).isSome false [] (fun x =>
    match mmaCombo f with
    | none => .fault .illegalEncoding
    | some c =>
      let ga := x.greg f.ga
      let gb := x.greg f.gb
      let gk := x.greg f.gk
      guardPoison [ga.poison, gb.poison, gk.poison] (
        let k := gk.val.toNat
        if (x.role = .v ∧ !f.strict) ∨ tableTooWide s t c f.sel.toNat then .fault .illegalEncoding
        else if 2 ^ 32 ≤ k then .fault .outOfRange
        else if 1 ≤ k ∧ (0x18000 < ga.val.toNat + (k - 1) * f.astr.toNat + aBytes c
            ∨ 0x18000 < gb.val.toNat + (k - 1) * f.bstr.toNat + bBytes c) then .fault .outOfRange
        else
          let o : MmaOp := { seq := x.issueSeq, f := f, a := ga.val.toNat, b := gb.val.toNat, k := k }
          .done (s.setTile t { x with mmaQueue := some o, issueSeq := x.issueSeq + 1 }))))

/-- A drain issued earlier than `seq` holds or will hold an accumulator (R120, R126). -/
def Tile.drainBefore (x : Tile) (cal seq : Nat) (n : Bool) : Bool :=
  (match x.drainRun with | some o => o.acc = n && o.holds cal | none => false)
  || (match x.drainQueue with | some o => o.acc = n && decide (o.seq < seq) | none => false)

/-- An MMA issued earlier than `seq` on an accumulator has not ended (R173). -/
def Tile.mmaBefore (x : Tile) (seq : Nat) (n : Bool) : Bool :=
  (match x.mmaRun with | some o => o.f.acc = n && decide (o.seq < seq) | none => false)
  || (match x.mmaQueue with | some o => o.f.acc = n && decide (o.seq < seq) | none => false)

/-- Bad words of a range, by word number. -/
def State.badWords (s : State) (a n : Nat) : List Nat :=
  ((s.condsIn a n).filter (fun e => e.2.bad)).map (·.1)

/-- An entry of the intake of tile `t` asks for accumulator `n`: it is served before a later MMA or drain on that accumulator
begins (R131). -/
def State.accAsked (s : State) (t : TileId) (n : Bool) : Bool :=
  (s.target t.val).intake.any (fun e => match regionOf s e.pkt.address.toNat with
    | .tile u o => decide (u = t.val) && decide (accBase n false ≤ o) && decide (o < accBase n false + 0x1000)
    | _ => false)

/-- MMA_START (R131, R172): the queued MMA starts, and latches the table or the vectors it names (R137). -/
def execMmaStart (t : TileId) (s : State) : Host.Outcome State Fault Refusal :=
  let x := s.tile t
  match x.mmaRun, x.mmaQueue with
  | none, some o =>
    if x.drainBefore s.calends o.seq o.f.acc ∨ s.accAsked t o.f.acc then .next s
    else
      let n := o.f.sel.toNat
      let rs := if o.f.mode then
          (if o.f.expk then [(zeroPointOff n, 32)] else [(tableOff n, 32)])
            ++ (if o.f.early then [(scaleOff n, 128)] else [])
        else []
      let s' := rs.foldl (fun s r => (s.load (tileAddr t.val r.1) r.2).2) s
      let o :=
        { o with
          latch := rs.flatMap (fun r => memSlice s.mem.cells (tileAddr t.val r.1) r.2),
          latchPoison := rs.flatMap (fun r => s.badWords (tileAddr t.val r.1) r.2) }
      .next (s'.setTile t { s'.tile t with mmaRun := some o, mmaQueue := none })
  | _, _ => .next s

/-! ### Operands of a step -/

/-- An operand read: its code or integer, and its poison. -/
structure Operand where
  code : Nat
  poison : Bool

/-- Element `i` of width `w` of a run of bytes with poison bits. -/
def elementOf (d : Loaded) (w i : Nat) : Operand :=
  ⟨laneNat d.val w i, decide (bitsAt d.poison (i * w / 8) ((w + 7) / 8) ≠ 0)⟩

/-- A latched element at a local offset: `n` bytes. -/
def MmaOp.latched (o : MmaOp) (t : TileId) (off n : Nat) : Operand :=
  let a := tileAddr t.val off
  ⟨memNat o.latch a n, o.latchPoison.contains (a / 8)⟩

/-- The scale of channel `j` that the MMA latched (R103, R136). -/
def MmaOp.scaleOf (o : MmaOp) (t : TileId) (j : Nat) : Operand := o.latched t (scaleOff o.f.sel.toNat + 4 * j) 4

/-- Early scale (R103): the expanded value times the channel's scale, encoded into the expanded format under RNE and SAT. -/
def earlyCode (f : NumFmt) (v : Num) (scale : Nat) : Nat := (encode f .rne .sat false (v.mul (dec32 scale))).code

/-- B as multiplied, as a code of the format the product takes, or, for an integer operand, as an exact value. -/
structure BValue where
  fmt : NumFmt
  code : Nat
  int : Int
  poison : Bool

/-- The B operand of channel `j` from its code as read (R100 to R103). -/
def expandB (o : MmaOp) (c : MmaCombo) (t : TileId) (j : Nat) (q : Operand) : BValue :=
  let sc := o.scaleOf t j
  let ep := o.f.early && sc.poison
  match c.b with
  | .code f =>
    ⟨f, q.code, signedOf f.width q.code, q.poison⟩
  | .table target =>
    let e := o.latched t (tableOff o.f.sel.toNat + 2 * q.code) 2
    let code := if target = .bf16 then e.code else e.code % 256
    ⟨target, if o.f.early then earlyCode target (decode target code) sc.code else code, 0, q.poison || e.poison || ep⟩
  | .zeroPoint f isInt =>
    let w := f.width
    let z := o.latched t (zeroPointOff o.f.sel.toNat + j * w / 8) 1
    let zc := if w = 4 then laneNat z.code 4 (j % 2) else z.code
    let val := fun k => if f = .int4 ∨ f = .int8 then signedOf w k else (k : Int)
    let d := val q.code - val zc
    let v := Num.ofInt d
    ⟨if isInt then .int32 else .bf16,
     if isInt then 0
     else if o.f.early then earlyCode .bf16 v sc.code else (encode .bf16 .rne .sat false v).code,
     d, q.poison || z.poison || ep⟩

/-- The fold steps of one K step outside the integer and strict kinds (R106, R113). -/
def productSteps (c : MmaCombo) (passes : Nat) (a : Nat) (b : BValue) : List Num :=
  match c.a with
  | .fp32 => fp32Steps passes a b.code
  | .lf4 => [lorfaProduct (lf4ToLf8 a) (if b.fmt = .lf4 then lf4ToLf8 b.code else b.code)]
  | .lf8 => [lorfaProduct a (if b.fmt = .lf4 then lf4ToLf8 b.code else b.code)]
  | f => [(decode f a).mul (decode b.fmt b.code)]

/-- A cell of an accumulator. -/
structure Cell where
  acc : Nat
  comp : Nat
  poison : Bool
  flags : IeeeFlags := {}

/-- One K step of one cell (R107, R108, R115). -/
def stepCell (c : MmaCombo) (passes : Nat) (x : Cell) (a : Operand) (b : BValue) : Cell :=
  let p := x.poison || a.poison || b.poison
  match c.kind with
  | .int => { x with acc := foldInt x.acc (signedOf c.a.width a.code * b.int), poison := p }
  | .fp =>
    let r := (productSteps c passes a.code b).foldl (fun r q => foldFp r.1 r.2 q) (x.acc, x.comp)
    { x with acc := r.1, comp := r.2, poison := p }
  | .strict =>
    let r := strictFmaNum (decode c.a a.code) (decode b.fmt b.code) (dec32 x.acc)
      (isSignalling c.a a.code || isSignalling b.fmt b.code || isSignalling .fp32 x.acc)
    { x with acc := r.1, poison := p, flags := x.flags.or r.2 }

/-- The state a cell starts from (R109, R115). -/
def startCell (o : MmaOp) (c : MmaCombo) (x : Cell) : Cell :=
  if o.f.accum then x
  else ⟨if c.kind = .strict ∧ 1 ≤ o.k then 0x80000000 else 0, 0, false, {}⟩

/-- Read of a cell: value, compensation, poison (R124, R132). -/
def State.cell (s : State) (t : TileId) (n : Bool) (i : Nat) : Cell :=
  let a := tileAddr t.val (accBase n false + 4 * i)
  let b := tileAddr t.val (accBase n true + 4 * i)
  ⟨memNat s.mem.cells a 4, memNat s.mem.cells b 4,
    Sparse.get false (s.tile t).accPoison (accKey n i) || (s.condAt a).bad || (s.condAt b).bad, {}⟩

/-- The bytes one operand takes at step `k`. -/
def State.operandBytes (s : State) (t : TileId) (base stride k n : Nat) : Loaded :=
  (s.load (tileAddr t.val (base + k * stride)) n).1

/-- Every cell of the accumulator after the steps from `o.steps` to `last` - 1, in K order (R97, R105, R109, R111). An MMA that
has done no step yet begins at the starting state of R109. -/
def foldCells (s : State) (t : TileId) (o : MmaOp) (c : MmaCombo) (last : Nat) : List Cell :=
  let start := (List.range 512).map (fun i => if o.steps = 0 then startCell o c (s.cell t o.f.acc i) else s.cell t o.f.acc i)
  ((List.range (last - o.steps)).map (· + o.steps)).foldl (fun cells k =>
    let av := s.operandBytes t o.a o.f.astr.toNat k (aBytes c)
    let bv := s.operandBytes t o.b o.f.bstr.toNat k (bBytes c)
    let as := (List.range 16).map (fun i => elementOf av c.a.width i)
    let bs := (List.range 32).map (fun j => expandB o c t j (elementOf bv c.bRead.width j))
    cells.zipIdx.map (fun e =>
      match as[e.2 / 32]?, bs[e.2 % 32]? with
      | some a, some b => stepCell c o.f.passes.toNat e.1 a b
      | _, _ => e.1)) start

/-- The poison marks of one accumulator replaced. -/
def replacePoison (m : Sparse Bool) (n : Bool) (ps : List Bool) : Sparse Bool :=
  let lo := accKey n 0
  m.filter (fun e => decide (e.1 < lo))
    ++ (ps.zipIdx.filter (·.1)).map (fun e => (lo + e.2, true))
    ++ m.filter (fun e => decide (lo + 512 ≤ e.1))

/-- KIND and EARLY of an accumulator after an MMA (R125). An MMA with K = 0 under add changes nothing by R109, and R125 lets one
with early scale set EARLY whatever its K: EARLY is set (log entry 79). -/
def kindAfter (o : MmaOp) (c : MmaCombo) (kind : AccKind) (early : Bool) : AccKind × Bool :=
  (if 1 ≤ o.k ∨ !o.f.accum then c.kind else kind,
   if o.f.accum then early || o.f.early else o.f.early)

/-- The tile with KIND and EARLY of an accumulator set. -/
def Tile.setKind (x : Tile) (n : Bool) (ke : AccKind × Bool) : Tile :=
  if n then { x with kind1 := ke.1, early1 := ke.2 } else { x with kind0 := ke.1, early0 := ke.2 }

/-- KIND and EARLY of an accumulator. -/
def Tile.kindOf (x : Tile) (n : Bool) : AccKind × Bool := if n then (x.kind1, x.early1) else (x.kind0, x.early0)

/-- The words that the steps `first` to `last` - 1 read, and the accumulator's own where it is added to, are read (R303). -/
def State.stepReads (s : State) (t : TileId) (o : MmaOp) (c : MmaCombo) (first last : Nat) : State :=
  let s := if first = 0 ∧ !o.f.accum then s else (s.load (tileAddr t.val (accBase o.f.acc false)) 4096).2
  if last ≤ first then s else
    ((s.load (tileAddr t.val (o.a + first * o.f.astr.toNat)) ((last - 1 - first) * o.f.astr.toNat + aBytes c)).2.load
      (tileAddr t.val (o.b + first * o.f.bstr.toNat)) ((last - 1 - first) * o.f.bstr.toNat + bBytes c)).2

/-- The steps from `o.steps` to `last` - 1 of a running MMA take effect: accumulator, poison, MMA_STEPS and, for a strict one,
the sticky flags (R109 to R116, R122, R490). Each step sees the operand bytes as they stand when it is done (R172). -/
def runSteps (t : TileId) (s : State) (o : MmaOp) (c : MmaCombo) (last : Nat) : State :=
  let x := (s.tile t).count wMmaSteps (last - o.steps)
  let x := { x with mmaRun := some { o with steps := last } }
  if (o.k = 0 ∧ o.f.accum) ∨ (0 < o.k ∧ last ≤ o.steps) then s.setTile t x
  else
    let cells := foldCells s t o c last
    let s1 := s.stepReads t o c o.steps last
    let s2 := s1.store (tileAddr t.val (accBase o.f.acc false)) 2048 (ofLanes 32 (cells.map (·.acc))) 0
    let s3 := s2.store (tileAddr t.val (accBase o.f.acc true)) 2048 (ofLanes 32 (cells.map (·.comp))) 0
    let x := { x with accPoison := replacePoison x.accPoison o.f.acc (cells.map (fun (q : Machine.Cell) => q.poison)) }
    let fl := cells.foldl (fun (f : IeeeFlags) (q : Machine.Cell) => f.or q.flags) {}
    s3.setTile t (x.raise (s.strictFlagEvent (clusterOfTile t.val)) s.calends fl)

/-- An MMA ends: the steps not done yet are done, and KIND and EARLY become the accumulator's (R109, R125, R172). -/
def endMma (t : TileId) (s : State) (o : MmaOp) (c : MmaCombo) : State :=
  let s := runSteps t s o c o.k
  let x := s.tile t
  let ke := x.kindOf o.f.acc
  s.setTile t { x.setKind o.f.acc (kindAfter o c ke.1 ke.2) with mmaRun := none }

/-- A running MMA does its next step: one in each cycle in which no command comes (R172; log entry 13). -/
def State.mmaCycle (s : State) (t : TileId) : State :=
  match (s.tile t).mmaRun with
  | none => s
  | some o =>
    match mmaCombo o.f with
    | none => s
    | some c => if o.steps < o.k then runSteps t s o c (o.steps + 1) else s

/-- MMA_END (R172). -/
def execMmaEnd (t : TileId) (s : State) : Host.Outcome State Fault Refusal :=
  match (s.tile t).mmaRun with
  | none => .next s
  | some o =>
    match mmaCombo o.f with
    | none => .next s
    | some c => .next (endMma t s o c)

/-! ### The finishing stage -/

/-- Fields of a finishing descriptor (R141). -/
structure FinishDesc where
  fmt : Option NumFmt
  round : Nat
  ovf : Nat
  dest : Bool
  stats : Bool
  digest : Bool
  rows : Nat
  cols : Nat
  sel : Nat
  fuseOp : Nat
  fuseRow : Bool
  fuseCode : Nat
  destAddr : Nat
  fuseStride : Nat
  destStride : Nat
  fuseAddr : Nat
deriving DecidableEq, Repr

/-- The fields of the four words (R141). -/
def finishDesc (w0 w1 w2 w3 : Nat) : FinishDesc :=
  ⟨NumFmt.ofCode (bitsAt w0 42 4), bitsAt w0 40 2, bitsAt w0 38 2, w0.testBit 37, w0.testBit 36, w0.testBit 35,
    bitsAt w0 30 5, bitsAt w0 24 6, bitsAt w0 19 5, bitsAt w0 17 2, w0.testBit 16, bitsAt w0 12 4,
    bitsAt w1 0 48, bitsAt w2 32 32, bitsAt w2 0 32, bitsAt w3 0 17⟩

/-- The fields of a latched descriptor. -/
def DrainOp.desc (o : DrainOp) : FinishDesc := finishDesc o.w0.toNat o.w1.toNat o.w2.toNat o.w3.toNat

/-- Bytes of one row of `cols` elements of a format (R142). -/
def rowBytesOf (cols : Nat) (f : NumFmt) : Nat := (cols * f.width + 7) / 8

/-- The checks of R142 on a descriptor that has been read, with the KIND the accumulator will hold. With FUSE_OP = 0 the field
FUSE_FMT must be 0, which is also the code of the 4-bit INT4: the check of odd COLS looks at FUSE_FMT only where FUSE_OP uses
it (log entry 80). -/
def checkFinish (x : Tile) (kind : AccKind) (w0 w1 w2 w3 : Nat) : Status :=
  let d := finishDesc w0 w1 w2 w3
  let fuse := NumFmt.ofCode d.fuseCode
  let fuseBad : Bool := match fuse with
    | some f => f = .int32 || f.isExpansionOnly
    | none => true
  let narrow : Option NumFmt → Bool := fun f => match f with
    | some f => decide (f.width = 4)
    | none => false
  match d.fmt with
  | none => .illegalEncoding
  | some out =>
    if bitsAt w0 46 18 ≠ 0 ∨ bitsAt w0 0 12 ≠ 0 ∨ bitsAt w1 48 16 ≠ 0 ∨ bitsAt w3 17 47 ≠ 0 then .illegalEncoding
    else if 2 ≤ d.round ∨ 2 ≤ d.ovf ∨ 16 < d.sel ∨ 3 ≤ d.fuseOp ∨ out.isExpansionOnly then .illegalEncoding
    else if d.ovf = 1 ∧ (out = .int4 ∨ out = .int8) then .illegalEncoding
    else if 16 < d.rows ∨ 32 < d.cols then .illegalEncoding
    else if d.fuseOp ≠ 0 ∧ fuseBad then .illegalEncoding
    else if d.fuseOp = 0 ∧ (d.fuseRow ∨ d.fuseCode ≠ 0 ∨ d.fuseStride ≠ 0 ∨ d.fuseAddr ≠ 0) then .illegalEncoding
    else if d.fuseRow ∧ d.fuseStride ≠ 0 then .illegalEncoding
    else if d.cols % 2 = 1 ∧ (out.width = 4 ∨ (d.fuseOp ≠ 0 ∧ narrow fuse)) then .illegalEncoding
    else if kind = .strict ∧ (!out.isStrict ∨ d.ovf = 1) then .illegalEncoding
    else if d.rows = 0 ∨ d.cols = 0 then .ok
    else
      let outEnd := d.destAddr + (d.rows - 1) * d.destStride + rowBytesOf d.cols out
      let ff := fuse.getD .fp32
      let fuseEnd := d.fuseAddr + (if d.fuseRow then 0 else (d.rows - 1) * d.fuseStride) + rowBytesOf d.cols ff
      let sameBuf := !d.fuseRow && d.fuseAddr = d.destAddr && d.fuseStride = d.destStride && ff.width = out.width
      if d.fuseOp ≠ 0 ∧ 0x18000 < fuseEnd then .outOfRange
      else if !d.dest ∧ (0x18000 < outEnd ∨ d.destAddr < x.progLen) then .outOfRange
      else if !d.dest ∧ d.fuseOp ≠ 0 ∧ d.destAddr < fuseEnd ∧ d.fuseAddr < outEnd ∧ !sameBuf then .outOfRange
      else .ok

/-- The KIND and EARLY an accumulator will hold once every MMA issued so far has run (R142). -/
def Tile.kindAhead (x : Tile) (n : Bool) : AccKind × Bool :=
  [x.mmaRun, x.mmaQueue].foldl (fun ke o => match o with
    | some o => if o.f.acc = n then (match mmaCombo o.f with
        | some c => kindAfter o c ke.1 ke.2
        | none => ke) else ke
    | none => ke) (x.kindOf n)

/-- DRAIN (R142, R173): the descriptor is read and latched at issue, and an uncorrectable error in it is reported before every
other check. It waits for the finishing stage's queue under ACC. -/
def execDrain (t : TileId) (f : FmtD) (s : State) : Host.Outcome State Fault Refusal :=
  .next (issueTo t s (fun x => if x.drainQueue.isSome then some 4 else none) (f.r1 = 0 && f.r2 = 0) false [] (fun x =>
    let a := x.greg f.a
    guardPoison [a.poison] (
      let o := a.val.toNat
      if 0x18000 < o + 32 then .fault .outOfRange
      else
        let (r, s) := s.load (tileAddr t.val o) 32
        if r.poison ≠ 0 then .faultWith s .eccUncorrected
        else if o % 32 ≠ 0 then .faultWith s .outOfRange
        else
          let x := s.tile t
          let w := fun i => laneNat r.val 64 i
          let ke := x.kindAhead f.acc
          match checkFinish x ke.1 (w 0) (w 1) (w 2) (w 3) with
          | .ok =>
            let d : DrainOp :=
              { seq := x.issueSeq, acc := f.acc, w0 := BitVec.ofNat 64 (w 0), w1 := BitVec.ofNat 64 (w 1),
                w2 := BitVec.ofNat 64 (w 2), w3 := BitVec.ofNat 64 (w 3), kind := ke.1, early := ke.2, index := x.pc }
            .done (s.setTile t { x with drainQueue := some d, issueSeq := x.issueSeq + 1 })
          | st => .faultWith s st)))

/-- A drain leaves the stage (R145, R500): its digest segment is gathered, and TINCs that waited for it go on. -/
def endDrain (t : TileId) (s : State) (o : DrainOp) : State :=
  let x := s.tile t
  let x := { x with drainRun := none }
  let x := if 0 < o.segBytes then { x with priv := x.priv.segment o.crc o.segBytes } else x
  let tincs := if o.desc.dest then x.tincs.map (fun w => { w with drains := w.drains - 1 }) else x.tincs
  flushTincs t (s.setTile t { x with tincs := tincs })

/-- DRAIN_START (R126, R131, R137, R173): the accumulator's cells and the scale vector are read; a drain of no rows or no columns
completes at once. -/
def execDrainStart (t : TileId) (s : State) : Host.Outcome State Fault Refusal :=
  let x := s.tile t
  match x.drainRun, x.drainQueue with
  | none, some o =>
    if x.mmaBefore o.seq o.acc ∨ s.accAsked t o.acc then .next s
    else
      let d := o.desc
      if d.rows = 0 ∨ d.cols = 0 then .next (endDrain t (s.setTile t { x with drainQueue := none }) o)
      else
        let base := tileAddr t.val (accBase o.acc false)
        let sbase := tileAddr t.val (scaleOff d.sel)
        let useScale := !o.early && decide (d.sel < 16)
        let o :=
          { o with
            start := s.calends, cells := memSlice s.mem.cells base 4096,
            cellPoison := (List.range 512).filter (fun i => (s.cell t o.acc i).poison),
            scale := if useScale then memSlice s.mem.cells sbase 128 else [],
            scalePoison := if useScale then s.badWords sbase 128 else [] }
        let s := (s.load base 4096).2
        let s := if useScale then (s.load sbase 128).2 else s
        .next (s.setTile t { s.tile t with drainRun := some o, drainQueue := none })
  | _, _ => .next s

/-- One output element (R143): its encoding and, in the strict kind, the flags raised. -/
def finishCell (kind : AccKind) (early : Bool) (d : FinishDesc) (out : NumFmt) (acc comp scale fused : Nat) (fuse : NumFmt) :
    Encoded × IeeeFlags :=
  let rnd : Rounding := if d.round = 0 then .rne else .rtz
  let ovf : Overflow := if d.ovf = 0 then .sat else .special
  let unit := early || d.sel = 16
  match kind with
  | .strict =>
    let sc := if unit then 0x3F800000 else scale
    let (x, f1) := strictMul acc sc
    let tv := (strict32 (decode fuse fused)).1
    let (x, f2) := match d.fuseOp with
      | 1 => strictAdd x tv
      | 2 => strictMul x tv
      | _ => (x, {})
    -- a signalling NaN of a fused tensor is an operand of step 4 as it stands (R116)
    let f2 := { f2 with invalid := f2.invalid || (d.fuseOp ≠ 0 && isSignalling fuse fused) }
    let (r, f3) := convertCode ⟨.fp32, out, rnd, .sat, true, 0⟩ x
    (r, (f1.or f2).or f3)
  | _ =>
    if kind = .int ∧ out.isInt ∧ d.sel = 16 ∧ d.fuseOp = 0 then (encode out rnd ovf false (decode .int32 acc), {})
    else
      let x := if kind = .int then rne32 (decode .int32 acc) else drainFp acc comp
      let sc := if unit then 0x3F800000 else scale
      let x := rne32 ((dec32 x).mul (dec32 sc))
      let tv := decode fuse fused
      let x := match d.fuseOp with
        | 1 => rne32 ((dec32 x).add tv)
        | 2 => rne32 ((dec32 x).mul tv)
        | _ => x
      (encode out rnd ovf false (dec32 x), {})

/-- A finished row: bytes, poison bits per byte, element codes with poison, overflows, flags. -/
structure FinishedRow where
  val : Nat
  poison : Nat
  codes : List (Nat × Bool)
  overflows : Nat
  flags : IeeeFlags

/-- Row `o.row` of a drain (R143, R144, R147). -/
def State.finishRow (s : State) (t : TileId) (o : DrainOp) (out : NumFmt) : FinishedRow :=
  let d := o.desc
  let fuse := (NumFmt.ofCode d.fuseCode).getD .fp32
  let fsrc := if d.fuseOp = 0 then (⟨0, 0⟩ : Loaded)
    else (s.load (tileAddr t.val (d.fuseAddr + (if d.fuseRow then 0 else o.row * d.fuseStride))) (rowBytesOf d.cols fuse)).1
  let base := tileAddr t.val (accBase o.acc false)
  let els := (List.range d.cols).map (fun j =>
    let i := 32 * o.row + j
    let fe := elementOf fsrc fuse.width j
    let sa := tileAddr t.val (scaleOff d.sel + 4 * j)
    let r := finishCell o.kind o.early d out (memNat o.cells (base + 4 * i) 4) (memNat o.cells (base + 0x800 + 4 * i) 4)
      (memNat o.scale sa 4) fe.code fuse
    (r, o.cellPoison.contains i || (d.fuseOp ≠ 0 && fe.poison) || o.scalePoison.contains (sa / 8)))
  { val := ofLanes out.width (els.map (fun e => e.1.1.code)),
    poison := els.zipIdx.foldl (fun acc e =>
      if e.1.2 then acc ||| ((2 ^ ((out.width + 7) / 8) - 1) <<< (e.2 * out.width / 8)) else acc) 0,
    codes := els.map (fun e => (e.1.1.code, e.2)),
    overflows := (els.filter (fun e => e.1.1.overflow)).length,
    flags := els.foldl (fun f e => f.or e.1.2) {} }

/-- The taps, counts and flags of a finished row (R143 step 6, R490, R500, R501). -/
def tapRow (s : State) (t : TileId) (x : Tile) (o : DrainOp) (out : NumFmt) (r : FinishedRow) : Tile × DrainOp :=
  let d := o.desc
  let c := clusterOfTile t.val
  let n := rowBytesOf d.cols out
  let fmt := (List.range 12).findIdx (fun k => NumFmt.ofCode k = some out)
  let x := (x.overflows (s.convOvfEvent c) s.calends 0xFF fmt r.overflows).raise (s.strictFlagEvent c) s.calends r.flags
  let x := if d.stats then { x with priv := r.codes.foldl (fun b e => b.element out e.1 e.2) x.priv } else x
  let o := if d.digest then
      { o with crc := (bytesOf r.val n).foldl (crcByte 64 0x42F0E1EBA9EA3693) o.crc, segBytes := o.segBytes + n } else o
  ({ x with eccSeen := x.eccSeen || decide (r.poison ≠ 0) }, o)

/-- A DEST = 1 row failed (R169): the drain faults with that status, and later rows are not issued. -/
def drainError (x : Tile) (o : DrainOp) (st : Status) : Tile × DrainOp :=
  if o.err.isSome then (x, o)
  else ({ x with asyncFaults := x.asyncFaults ++ [(o.seq, o.index, st)] }, { o with row := o.desc.rows, part := 0, err := some st })

/-- The fused read of a row, as a demand read (R143, R303). -/
def State.fusedRead (s : State) (t : TileId) (o : DrainOp) : State :=
  let d := o.desc
  if d.fuseOp = 0 then s
  else
    (s.load (tileAddr t.val (d.fuseAddr + (if d.fuseRow then 0 else o.row * d.fuseStride)))
      (rowBytesOf d.cols ((NumFmt.ofCode d.fuseCode).getD .fp32))).2

/-- DRAIN_ROW_WRITE (R144, R145): the next row is computed, tapped and written, or issued as a store through the network
interface, in parts where it crosses a 2 KiB boundary (R252). -/
def execDrainRowWrite (t : TileId) (s : State) : Host.Outcome State Fault Refusal :=
  let x := s.tile t
  match x.drainRun, x.task with
  | some o, some k =>
    let d := o.desc
    match d.fmt with
    | none => .next s
    | some out =>
      if d.rows ≤ o.row then .next s
      else
        let r := s.finishRow t o out
        let n := rowBytesOf d.cols out
        let addr := d.destAddr + o.row * d.destStride
        let s := s.fusedRead t o
        let (x, o) := if o.part = 0 then tapRow s t x o out r else (x, o)
        if !d.dest then
          let s := s.store (tileAddr t.val addr) n r.val r.poison
          .next (s.setTile t { x with drainRun := some { o with row := o.row + 1 } })
        else
          let len := min (2048 - (addr + o.part) % 2048) (n - o.part)
          let cmd := if len ≤ 32 then cmdWrite else cmdWritePull
          let p := mkPacket cmd t.val 0 0 (addr + o.part) len 0 k.vi k.part k.priority 0
            (bitsAt r.val (8 * o.part) (8 * len)) (bitsAt r.poison o.part len)
          let last := decide (n ≤ o.part + len)
          let o' := { o with row := if last then o.row + 1 else o.row, part := if last then 0 else o.part + len }
          match s.issueAt t.val (addr + o.part) p (.drainRow o.seq) with
          | .waits => .next s
          | .sent s' => .next (s'.setTile t { x with drainRun := some { o' with unacked := o.unacked + 1 } })
          | .ended s' st =>
            let (x, o') := drainError x o' st
            .next (s'.setTile t { x with drainRun := some o' })
  | _, _ => .next s

/-- The response of a DEST = 1 row arrives. -/
def drainRowEnd (t : TileId) (seq : Nat) (st : Status) (s : State) : State :=
  let x := s.tile t
  match x.drainRun with
  | some o =>
    if o.seq ≠ seq then s
    else
      let o := { o with unacked := o.unacked - 1 }
      let (x, o) := if st = .ok then (x, o) else drainError x o st
      s.setTile t { x with drainRun := some o }
  | none => s

/-- DRAIN_COMPLETE (R145). -/
def execDrainComplete (t : TileId) (s : State) : Host.Outcome State Fault Refusal :=
  match (s.tile t).drainRun with
  | some o => if o.desc.rows ≤ o.row ∧ o.unacked = 0 then .next (endDrain t s o) else .next s
  | none => .next s

end Sys2Proof.Machine
end

