-- ==== Sys2Proof/Machine/Vector.lean ====
section
/-! DEFINITION. The vector instructions of a tile: FP32 lanes (R174), functions (R175), integer lanes (R176), compare,
select, move and permute (R177), reduction (R178), conversion (R179), masks (R180), top-k lists (R140) and the SUM.R
instructions (R181, R226). -/

namespace Sys2Proof.Machine

/-- A lane-wise instruction of one or two VQ sources (R155, R165, R599). -/
def laneOp (legal : Bool) (vqs : List (BitVec 4)) (op : Tile → Nat → Nat) (pois : Tile → Nat → Bool) (d : BitVec 4)
    (msk : BitVec 3) (t : TileId) (s : State) : State :=
  issue t s legal true vqs (fun x =>
    .done (s.setTile t (x.setV d ((x.vreg d).update (x.active msk) (op x) (pois x)))))

/-- A two-operand lane operation on raw lanes. -/
def laneOp2 (op : Nat → Nat → Nat) (t : TileId) (f : FmtR) (s : State) : State :=
  laneOp (legalR f true true true false true true false false false)
    (if f.i then [f.d, f.a] else [f.d, f.a, f.b])
    (fun x l => op ((x.vreg f.a).lane l) ((x.vectorB f).lane l))
    (fun x l => (x.vreg f.a).lanePoison l || (x.vectorB f).lanePoison l) f.d f.msk t s

/-- A strict lane operation also sets the sticky flags of its active lanes (R174). -/
def fpLane (useC : Bool) (op : Nat → Nat → Nat → Nat) (sop : Nat → Nat → Nat → Nat × IeeeFlags)
    (t : TileId) (f : FmtR) (s : State) : State :=
  issue t s (legalR f true true true useC true true true false false) true
    ([f.d, f.a] ++ (if f.i then [] else [f.b]) ++ (if useC then [f.c] else []))
    (fun x =>
      let a := x.vreg f.a
      let b := x.vectorB f
      let c := if useC then x.vreg f.c else {}
      let act := x.active f.msk
      let res := fun l => if f.s then (sop (a.lane l) (b.lane l) (c.lane l)).1 else op (a.lane l) (b.lane l) (c.lane l)
      let x' := x.setV f.d ((x.vreg f.d).update act res
        (fun l => a.lanePoison l || b.lanePoison l || (useC && c.lanePoison l)))
      let fl := if f.s then ((List.range 32).filter (fun l => act.1.getLsbD l)).foldl
          (fun g l => g.or (sop (a.lane l) (b.lane l) (c.lane l)).2) {} else {}
      .done (s.setTile t (x'.raise (s.strictFlagEvent (clusterOfTile t.val)) s.calends fl)))

/-- A change of the sign bit of an FP32 code. -/
def negate32 (a : Nat) : Nat := a ^^^ 0x80000000

/-- VADD (R174). -/
def execVadd (t : TileId) (f : FmtR) (s : State) : Host.Outcome State Fault Refusal :=
  .next (fpLane false (fun a b _ => rne32 ((dec32 a).add (dec32 b))) (fun a b _ => strictAdd a b) t f s)
/-- VSUB (R174). -/
def execVsub (t : TileId) (f : FmtR) (s : State) : Host.Outcome State Fault Refusal :=
  .next (fpLane false (fun a b _ => rne32 ((dec32 a).add (dec32 b).neg)) (fun a b _ => strictAdd a (negate32 b)) t f s)
/-- VMUL (R174). -/
def execVmul (t : TileId) (f : FmtR) (s : State) : Host.Outcome State Fault Refusal :=
  .next (fpLane false (fun a b _ => rne32 ((dec32 a).mul (dec32 b))) (fun a b _ => strictMul a b) t f s)
/-- VFMA (R174): a x b + c. -/
def execVfma (t : TileId) (f : FmtR) (s : State) : Host.Outcome State Fault Refusal :=
  .next (fpLane true (fun a b c => rne32 (((dec32 a).mul (dec32 b)).add (dec32 c))) strictFma t f s)
/-- VMAX (R174). -/
def execVmax (t : TileId) (f : FmtR) (s : State) : Host.Outcome State Fault Refusal :=
  .next (laneOp2 fpMax t f s)
/-- VMIN (R174). -/
def execVmin (t : TileId) (f : FmtR) (s : State) : Host.Outcome State Fault Refusal :=
  .next (laneOp2 fpMin t f s)

/-- A function of one source lane (R175). -/
def laneOp1 (op : Nat → Nat) (t : TileId) (f : FmtR) (s : State) : State :=
  laneOp (legalR f true true false false false true false false false) [f.d, f.a]
    (fun x l => op ((x.vreg f.a).lane l)) (fun x l => (x.vreg f.a).lanePoison l) f.d f.msk t s

/-- VEXP2 (R175). -/
def execVexp2 (t : TileId) (f : FmtR) (s : State) : Host.Outcome State Fault Refusal := .next (laneOp1 fpExp2 t f s)
/-- VRCP (R175). -/
def execVrcp (t : TileId) (f : FmtR) (s : State) : Host.Outcome State Fault Refusal := .next (laneOp1 fpRcp t f s)
/-- VRSQRT (R175). -/
def execVrsqrt (t : TileId) (f : FmtR) (s : State) : Host.Outcome State Fault Refusal := .next (laneOp1 fpRsqrt t f s)

/-- An arithmetic right shift of a 32-bit lane (R176). -/
def sra32 (a b : Nat) : Nat := ((BitVec.ofNat 32 a).sshiftRight (min b 31)).toNat

/-- VIADD (R176). -/
def execViadd (t : TileId) (f : FmtR) (s : State) : Host.Outcome State Fault Refusal :=
  .next (laneOp2 (fun a b => (a + b) % 2 ^ 32) t f s)
/-- VISUB (R176). -/
def execVisub (t : TileId) (f : FmtR) (s : State) : Host.Outcome State Fault Refusal :=
  .next (laneOp2 (fun a b => (a + 2 ^ 32 - b) % 2 ^ 32) t f s)
/-- VIMUL (R176). -/
def execVimul (t : TileId) (f : FmtR) (s : State) : Host.Outcome State Fault Refusal :=
  .next (laneOp2 (fun a b => a * b % 2 ^ 32) t f s)
/-- VAND (R176). -/
def execVand (t : TileId) (f : FmtR) (s : State) : Host.Outcome State Fault Refusal :=
  .next (laneOp2 (fun a b => a &&& b) t f s)
/-- VOR (R176). -/
def execVor (t : TileId) (f : FmtR) (s : State) : Host.Outcome State Fault Refusal :=
  .next (laneOp2 (fun a b => a ||| b) t f s)
/-- VXOR (R176). -/
def execVxor (t : TileId) (f : FmtR) (s : State) : Host.Outcome State Fault Refusal :=
  .next (laneOp2 (fun a b => a ^^^ b) t f s)
/-- VSHL (R176): an amount of 32 or more gives 0. -/
def execVshl (t : TileId) (f : FmtR) (s : State) : Host.Outcome State Fault Refusal :=
  .next (laneOp2 (fun a b => if 32 ≤ b then 0 else (a <<< b) % 2 ^ 32) t f s)
/-- VSHR (R176). -/
def execVshr (t : TileId) (f : FmtR) (s : State) : Host.Outcome State Fault Refusal :=
  .next (laneOp2 (fun a b => if 32 ≤ b then 0 else a >>> b) t f s)
/-- VSRA (R176): an amount of 32 or more gives the sign fill. -/
def execVsra (t : TileId) (f : FmtR) (s : State) : Host.Outcome State Fault Refusal :=
  .next (laneOp2 sra32 t f s)

/-- The order of two lanes under C of VCMP (R177); `none` where an FP32 comparison meets a NaN. -/
def compareLanes (c : Nat) (a b : Nat) : Option Ordering :=
  match c with
  | 0 => (dec32 a).cmp (dec32 b)
  | 1 => some (compare (signedOf 32 a) (signedOf 32 b))
  | _ => some (compare a b)

/-- The test SUB selects: EQ, NE, LT, GE, LE, GT; with a NaN only NE holds (R177). -/
def compareTest (sub : Nat) (o : Option Ordering) : Bool :=
  match o, sub with
  | none, k => k = 1
  | some o, 0 => o = .eq
  | some o, 1 => o ≠ .eq
  | some o, 2 => o = .lt
  | some o, 3 => o ≠ .lt
  | some o, 4 => o ≠ .gt
  | some o, _ => o = .gt

/-- VCMP (R177, R599). -/
def execVcmp (t : TileId) (f : FmtR) (s : State) : Host.Outcome State Fault Refusal :=
  .next (issue t s (legalR f true true true true true true false true false && f.d.toNat < 4 && f.c.toNat < 3
      && f.sub.toNat < 6) true (if f.i then [f.a] else [f.a, f.b]) (fun x =>
    let a := x.vreg f.a
    let b := x.vectorB f
    let act := x.active f.msk
    let bit := fun l => act.1.getLsbD l && compareTest f.sub.toNat (compareLanes f.c.toNat (a.lane l) (b.lane l))
    let poi := fun l => (act.1.getLsbD l && (a.lanePoison l || b.lanePoison l)) || act.2.getLsbD l
    .done (s.setTile t (x.setM f.d.toNat
      ⟨BitVec.ofNat 32 (ofBits ((List.range 32).map bit)), BitVec.ofNat 32 (ofBits ((List.range 32).map poi))⟩))))

/-- VSEL (R177, R599): requires MSK[38] = 1 and writes every lane. -/
def execVsel (t : TileId) (f : FmtR) (s : State) : Host.Outcome State Fault Refusal :=
  .next (issue t s (legalR f true true true false false true false false false && f.msk.getLsbD 2) true
      [f.d, f.a, f.b] (fun x =>
    let a := x.vreg f.a
    let b := x.vreg f.b
    let act := x.active f.msk
    .done (s.setTile t (x.setV f.d (VReg.ofLanes
      ((List.range 32).map (fun l => if act.1.getLsbD l then a.lane l else b.lane l))
      ((List.range 32).map (fun l =>
        (if act.1.getLsbD l then a.lanePoison l else b.lanePoison l) || act.2.getLsbD l)))))))

/-- VBCG (R157). -/
def execVbcg (t : TileId) (f : FmtR) (s : State) : Host.Outcome State Fault Refusal :=
  .next (laneOp (legalR f true true false false false true false false false) [f.d]
    (fun x _ => (x.greg f.a).val.toNat % 2 ^ 32) (fun x _ => (x.greg f.a).poison) f.d f.msk t s)

/-- VGET (R177): requires I = 1; a lane above 31 faults with OUT_OF_RANGE. -/
def execVget (t : TileId) (f : FmtR) (s : State) : Host.Outcome State Fault Refusal :=
  .next (issue t s (legalR f true true false false true false false false false && f.i) true [f.a] (fun x =>
    if 32 ≤ f.imm.toNat then .fault .outOfRange
    else
      let v := x.vreg f.a
      .done (s.setTile t (x.setG f.d ⟨BitVec.ofNat 64 (v.lane f.imm.toNat), v.lanePoison f.imm.toNat⟩))))

/-- VPERM (R177): an index of 32 or more gives 0. -/
def execVperm (t : TileId) (f : FmtR) (s : State) : Host.Outcome State Fault Refusal :=
  .next (laneOp (legalR f true true true false false true false false false) [f.d, f.a, f.b]
    (fun x l => let k := (x.vreg f.b).lane l
                if 32 ≤ k then 0 else (x.vreg f.a).lane k)
    (fun x l => let k := (x.vreg f.b).lane l
                (x.vreg f.b).lanePoison l || (decide (k < 32) && (x.vreg f.a).lanePoison k)) f.d f.msk t s)

/-- VRED (R178): lane 0 takes the reduction of the active lanes, lanes 1 to 31 zero. -/
def execVred (t : TileId) (f : FmtR) (s : State) : Host.Outcome State Fault Refusal :=
  .next (issue t s (legalR f true true false false false true false true false && f.sub.toNat < 4) true
      [f.d, f.a] (fun x =>
    let a := x.vreg f.a
    let act := x.active f.msk
    let ls := (List.range 32).filter (fun l => act.1.getLsbD l)
    let r := match f.sub.toNat with
      | 0 => ls.foldl (fun r l => rne32 ((dec32 r).add (dec32 (a.lane l)))) 0
      | 1 => ls.foldl (fun r l => fpMax r (a.lane l)) 0xFF800000
      | 2 => ls.foldl (fun r l => fpMin r (a.lane l)) 0x7F800000
      | _ => ls.foldl (fun r l => (r + a.lane l) % 2 ^ 32) 0
    let p := ls.any (fun l => a.lanePoison l) || act.2 ≠ 0
    .done (s.setTile t (x.setV f.d (VReg.ofLanes (r :: List.replicate 31 0) (p :: List.replicate 31 false))))))

/-- The conversion VCVT names (R179); `none` where a format is reserved or R89 refuses the combination. -/
def vcvtOpts (f : FmtR) : Option ConvOpts :=
  match NumFmt.ofCode f.b.toNat, NumFmt.ofCode f.c.toNat with
  | some src, some dst =>
    let ovf : Overflow := if f.sub.getLsbD 1 then .special else .sat
    if convRefused src dst ovf f.s then none
    else some ⟨src, dst, if f.sub.getLsbD 0 then .rtz else .rne, ovf, f.s, signedOf 8 (f.imm.toNat % 256)⟩
  | _, _ => none

/-- VCVT (R179, R599): 32 packed elements; bytes beyond the outputs are zeroed. -/
def execVcvt (t : TileId) (f : FmtR) (s : State) : Host.Outcome State Fault Refusal :=
  .next (issue t s (legalR f true true true true false true true true true && !f.sub.getLsbD 2
      && f.imm.toNat < 256 && (vcvtOpts f).isSome) true [f.d, f.a] (fun x =>
    match vcvtOpts f with
    | none => .fault .illegalEncoding
    | some o =>
      let a := x.vreg f.a
      let old := x.vreg f.d
      let act := x.active f.msk
      let laneOfEl := fun (w i : Nat) => i * w / 32
      let cv := (List.range 32).map (fun i => convertCode o (laneNat a.val.toNat o.src.width i))
      let codes := cv.zipIdx.map (fun e =>
        if act.1.getLsbD e.2 then e.1.1.code else laneNat old.val.toNat o.dst.width e.2)
      let elP := fun i => (if act.1.getLsbD i then a.lanePoison (laneOfEl o.src.width i)
        else old.lanePoison (laneOfEl o.dst.width i)) || act.2.getLsbD i
      let poi := (List.range 32).map (fun l =>
        (List.range 32).any (fun i => laneOfEl o.dst.width i = l && elP i))
      let done := cv.zipIdx.filter (fun e => act.1.getLsbD e.2)
      let x := x.setV f.d ⟨BitVec.ofNat 1024 (ofLanes o.dst.width codes), BitVec.ofNat 32 (ofBits poi)⟩
      let c := clusterOfTile t.val
      let x := x.overflows (s.convOvfEvent c) s.calends 0xFF f.c.toNat
        (done.filter (fun e => e.1.1.overflow)).length
      let x := x.raise (s.strictFlagEvent c) s.calends (done.foldl (fun g e => g.or e.1.2) {})
      .done (s.setTile t x)))

/-- MOP (R180, R599). -/
def execMop (t : TileId) (f : FmtR) (s : State) : Host.Outcome State Fault Refusal :=
  let k := f.sub.toNat
  let mask4 := fun (r : BitVec 4) => r.toNat < 4
  .next (issue t s (legalR f true true true false false false false true false && k < 7
      && (k < 4 || f.b = 0) && (if k < 4 then mask4 f.d && mask4 f.a && mask4 f.b
          else if k = 4 then mask4 f.d else mask4 f.a)) true [] (fun x =>
    let a := x.mreg f.a.toNat
    let b := x.mreg f.b.toNat
    let g := x.greg f.a
    let p := a.poison ||| b.poison
    let m := fun v => Issue.done (s.setTile t (x.setM f.d.toNat v))
    match k with
    | 0 => m ⟨a.val &&& b.val, p⟩
    | 1 => m ⟨a.val ||| b.val, p⟩
    | 2 => m ⟨a.val ^^^ b.val, p⟩
    | 3 => m ⟨a.val &&& ~~~b.val, p⟩
    | 4 => m ⟨g.val.setWidth 32, if g.poison then BitVec.allOnes 32 else 0⟩
    | 5 => .done (s.setTile t (x.setG f.d ⟨a.val.setWidth 64, a.poison ≠ 0⟩))
    | _ => .done (s.setTile t (x.setG f.d
        ⟨BitVec.ofNat 64 ((List.range 32).filter (fun l => a.val.getLsbD l)).length, a.poison ≠ 0⟩))))

/-- The list a VQ register holds (R140). -/
def listOf (v : VReg) : List (Nat × Nat) := (List.range 16).map (fun e => (v.lane e, v.lane (16 + e)))

/-- A VQ register holding a list (R140). -/
def ofList (l : List (Nat × Nat)) (poisoned : Bool) : VReg :=
  VReg.ofLanes (l.map (·.1) ++ l.map (·.2)) (List.replicate 32 poisoned)

/-- VTKF (R140, R180, R599). -/
def execVtkf (t : TileId) (f : FmtR) (s : State) : Host.Outcome State Fault Refusal :=
  .next (issue t s (legalR f true true true false false true false false true && f.imm.toNat ≤ 16) true
      [f.d, f.a] (fun x =>
    let a := x.vreg f.a
    let base := x.greg f.b
    let act := x.active f.msk
    let ls := (List.range 32).filter (fun l => act.1.getLsbD l)
    let es := ls.map (fun l => (a.lane l, (base.val.toNat + l) % 2 ^ 32))
    let p := base.poison || ls.any (fun l => a.lanePoison l) || act.2 ≠ 0
    .done (s.setTile t (x.setV f.d (ofList (topK f.imm.toNat es) p)))))

/-- VTKM (R140, R180, R599). -/
def execVtkm (t : TileId) (f : FmtR) (s : State) : Host.Outcome State Fault Refusal :=
  .next (issue t s (legalR f true true true false false false false false true && f.imm.toNat ≤ 16) true
      [f.d, f.a, f.b] (fun x =>
    let a := x.vreg f.a
    let b := x.vreg f.b
    .done (s.setTile t (x.setV f.d (ofList (topK f.imm.toNat (listOf a ++ listOf b))
      (a.poison ≠ 0 || b.poison ≠ 0))))))

/-! ### SUM.R (R181, R226) -/

/-- The key of one value (R226). -/
def keyOf (x : Nat) : Nat :=
  match dec32 x with
  | .nan => 2 ^ 31
  | .inf s => if s then 2 ^ 29 else 2 ^ 30
  | .fin _ m _ => if m = 0 then 0 else max (bitsAt x 23 8) 1

/-- Merge of two keys (R226). -/
def keyMerge (a b : Nat) : Nat := ((a ||| b) &&& 0xE0000000) ||| max (a % 256) (b % 256)

/-- The leaf integer of a value under a key, modulo 2^96 (R226). -/
def quantise (x key : Nat) : Nat :=
  let e := key % 256
  match dec32 x with
  | .fin s m ex =>
    if e = 0 then 0
    else
      let n := (roundAt m (ex + 70 - ((e : Int) - 127)) 0 .rne).1
      if s then (2 ^ 96 - n) % 2 ^ 96 else n % 2 ^ 96
  | _ => 0

/-- The result of a total under a key (R226). -/
def sumrResult (total key : Nat) : Nat :=
  if key.testBit 31 || (key.testBit 30 && key.testBit 29) then nan32
  else if key.testBit 30 then 0x7F800000
  else if key.testBit 29 then 0xFF800000
  else if key % 256 = 0 then 0
  else
    let v := signedOf 96 (total % 2 ^ 96)
    rne32 (.fin (decide (v < 0)) v.natAbs ((key % 256 : Nat) - 127 - 70))

/-- Lane `l` of the 96-bit triple at VQd, VQd+1, VQd+2 (R181). -/
def Tile.triple (x : Tile) (d : BitVec 4) (l : Nat) : Nat :=
  (x.vreg d).lane l + (x.vreg (d + 1)).lane l * 2 ^ 32 + (x.vreg (d + 2)).lane l * 2 ^ 64
def Tile.triplePoison (x : Tile) (d : BitVec 4) (l : Nat) : Bool :=
  (x.vreg d).lanePoison l || (x.vreg (d + 1)).lanePoison l || (x.vreg (d + 2)).lanePoison l
/-- The active lanes of a triple written. -/
def Tile.setTriple (x : Tile) (d : BitVec 4) (act : BitVec 32 × BitVec 32) (res : Nat → Nat) (p : Nat → Bool) : Tile :=
  [0, 1, 2].foldl (fun y k =>
    y.setV (d + BitVec.ofNat 4 k) ((x.vreg (d + BitVec.ofNat 4 k)).update act (fun l => laneNat (res l) 32 k) p)) x
/-- The registers of a triple. -/
def tripleRegs (d : BitVec 4) : List (BitVec 4) := [d, d + 1, d + 2]

/-- SRKEY (R181). -/
def execSrkey (t : TileId) (f : FmtR) (s : State) : Host.Outcome State Fault Refusal :=
  .next (laneOp (legalR f true true false false false true false false false) [f.d, f.a]
    (fun x l => keyMerge ((x.vreg f.d).lane l) (keyOf ((x.vreg f.a).lane l)))
    (fun x l => (x.vreg f.d).lanePoison l || (x.vreg f.a).lanePoison l) f.d f.msk t s)

/-- SRQ (R181): d must be 13 or less. -/
def execSrq (t : TileId) (f : FmtR) (s : State) : Host.Outcome State Fault Refusal :=
  .next (issue t s (legalR f true true true false false true false false false && f.d.toNat ≤ 13) true
      (tripleRegs f.d ++ [f.a, f.b]) (fun x =>
    let a := x.vreg f.a
    let b := x.vreg f.b
    .done (s.setTile t (x.setTriple f.d (x.active f.msk) (fun l => quantise (a.lane l) (b.lane l))
      (fun l => a.lanePoison l || b.lanePoison l)))))

/-- SRADD (R181): modulo 2^96. -/
def execSradd (t : TileId) (f : FmtR) (s : State) : Host.Outcome State Fault Refusal :=
  .next (issue t s (legalR f true true false false false true false false false && f.d.toNat ≤ 13 && f.a.toNat ≤ 13) true
      (tripleRegs f.d ++ tripleRegs f.a) (fun x =>
    .done (s.setTile t (x.setTriple f.d (x.active f.msk) (fun l => (x.triple f.d l + x.triple f.a l) % 2 ^ 96)
      (fun l => x.triplePoison f.d l || x.triplePoison f.a l)))))

/-- SRDQ (R181). -/
def execSrdq (t : TileId) (f : FmtR) (s : State) : Host.Outcome State Fault Refusal :=
  .next (laneOp (legalR f true true true false false true false false false && f.a.toNat ≤ 13)
    (f.d :: f.b :: tripleRegs f.a)
    (fun x l => sumrResult (x.triple f.a l) ((x.vreg f.b).lane l))
    (fun x l => x.triplePoison f.a l || (x.vreg f.b).lanePoison l) f.d f.msk t s)

end Sys2Proof.Machine
end

