-- ==== Sys2Proof/Machine/Lacing.lean ====
section
/-! DEFINITION. The Lacing tree (spec/08_the_lacing_tree.md): contexts and members (R219 to R223), the combine of an eyelet
(R224 to R233, R242, R243), delivery, timeouts and withdrawal (R240, R241), the domain (R237, R238). Eyelets carry the
instance numbers of R515. -/

namespace Sys2Proof.Machine

/-- The context of partition `p` and channel `ch` (R219). -/
def State.ctx (s : State) (p ch : Nat) : LaceCtx := Sparse.get {} s.lacing.ctxs (4 * p + ch)
/-- The state with a context replaced. -/
def State.setCtx (s : State) (p ch : Nat) (x : LaceCtx) : State :=
  { s with lacing := { s.lacing with ctxs := Sparse.set {} s.lacing.ctxs (4 * p + ch) x } }

/-- One more in counter `k` of partition `p`: 0 LACE_TIMEOUTS, 1 LACE_MISMATCHES, 2 LACE_ROOT_CONFLICTS (R222). -/
def State.laceCount (s : State) (p k : Nat) : State :=
  let n := (Sparse.get 0 s.lacing.counters (3 * p + k) + 1) % 2 ^ 32
  { s with lacing := { s.lacing with counters := Sparse.set 0 s.lacing.counters (3 * p + k) n } }

/-- Tile `t` is a member of channel `ch` of partition `p` as the map in force in its cluster says (R219, R223). -/
def State.member (s : State) (p ch t : Nat) : Bool :=
  (s.objIn (clusterOfTile t) (0x5021 + 0x100 * p) ch 0).testBit t

/-- Members of a context that are enabled, ascending (R219). -/
def State.members (s : State) (p ch : Nat) : List Nat :=
  (s.clustersOf p).flatMap (fun c => ((List.range 512).map (· + 512 * c)).filter
    (fun t => s.member p ch t && s.enabled t))

/-- Priority of the error statuses (R243); the lower goes up. -/
def laceErrRank (st : Status) : Nat :=
  match st with
  | .laceTimeout => 0 | .linkDown => 1 | .aborted => 2 | .illegalEncoding => 3 | _ => 4

/-- The status that goes up when children report errors (R243). -/
def worstLaceErr (l : List Status) : Option Status :=
  l.foldl (fun acc st => match acc with
    | none => some st
    | some a => if laceErrRank st < laceErrRank a then some st else acc) none

/-! ### Operations on lanes -/

/-- Lane-wise combination of lists of equal length. -/
def zipLanes (g : Nat → Nat → Nat) (a b : List Nat) : List Nat := List.zipWith g a b

/-- The entries of a message of values followed by positions. -/
def entriesOf (k : Nat) (d : List Nat) : List (Nat × Nat) := List.zip (d.take k) (d.drop k)

/-- ARGMIN's ranking: that of R140 with "less" for "greater" (R229). -/
def ranksBelow (x y : Nat × Nat) : Bool :=
  match dec32 x.1, dec32 y.1 with
  | .nan, .nan => decide (x.2 < y.2)
  | .nan, _ => false
  | _, .nan => true
  | a, b =>
    match a.cmp b with
    | some .lt => true
    | some .eq => decide (x.2 < y.2)
    | _ => false

/-- Two messages of one operation combined (R225, R228 to R232); `sweep` 2 is the integer sweep of R226. -/
def laceJoin (op k sweep : Nat) (a b : LaceMsg) : LaceMsg :=
  let lanes := fun g => { a with data := zipLanes g a.data b.data }
  let pick := fun (above : Nat × Nat → Nat × Nat → Bool) =>
    let es := List.zipWith (fun x y => if above y x then y else x) (entriesOf 8 a.data) (entriesOf 8 b.data)
    { a with data := es.map (·.1) ++ es.map (·.2) }
  match op with
  | 0 => lanes (fun x y => rne32 ((dec32 x).add (dec32 y)))
  | 1 | 12 => if sweep = 2 then lanes (fun x y => (x + y) % 2 ^ 96) else lanes keyMerge
  | 2 => lanes fpMax
  | 3 => lanes fpMin
  | 4 => pick ranksAbove
  | 5 => pick ranksBelow
  | 6 =>
    let es := topK k (entriesOf 16 a.data ++ entriesOf 16 b.data)
    { a with data := es.map (·.1) ++ es.map (·.2) }
  | 7 => lanes (fun x y => x &&& y)
  | 8 => lanes (fun x y => x ||| y)
  | 9 => lanes (fun x y => x ^^^ y)
  | 10 => { a with data := if a.roots = 0 then b.data else a.data, roots := a.roots + b.roots }
  | _ => a

/-- What enters the tree from one member (R225, R226, R229, R230): values normalised, keys in a key sweep. -/
def laceLeaf (m : LaceMsg) : LaceMsg :=
  let norm := fun x => rne32 (dec32 x)
  match m.op with
  | 0 | 2 | 3 => { m with data := m.data.map norm }
  | 1 | 12 => { m with data := m.data.map keyOf }
  | 4 | 5 => { m with data := (m.data.take 8).map norm ++ m.data.drop 8 }
  | 6 => { m with data := let es := topK m.k (entriesOf 16 m.data)
                          es.map (·.1) ++ es.map (·.2) }
  | _ => m

/-- OP of a message that names no operation of its own: an ERR that an eyelet or a port forms (R241, R244, R433), and the
identity that a device without members supplies to its parent (R224). No member's message has it. -/
def laceNoOp : Nat := 15

/-- An ERR formed in the tree, with a status (R241, R243, R244). -/
def laceErr (st : Status) : LaceMsg := { err := some st, op := laceNoOp, k := 0 }

/-- The identity that a device without members sends up: it knows neither OP nor K (log entry 93). -/
def laceIdentity : LaceMsg := { op := laceNoOp, k := 0 }

/-- The children's messages of one operation combined in child-index order, identities left out (R224, R225). Disagreement on
OP or K is ILLEGAL_ENCODING (R242), told by the second component; among error statuses the first of R243's order goes up. -/
def laceCombine (sweep : Nat) (ms : List LaceMsg) : LaceMsg × Bool :=
  let own := ms.filter (fun m => m.op ≠ laceNoOp)
  let first := own.headD laceIdentity
  let mis := own.any (fun x => x.op ≠ first.op || x.k ≠ first.k)
  match worstLaceErr (ms.filterMap (·.err) ++ (if mis then [.illegalEncoding] else [])) with
  | some st => ({ first with err := some st, data := [] }, mis)
  | none => ((own.drop 1).foldl (laceJoin first.op first.k sweep) first, false)

/-! ### The tree -/

/-- Level of an eyelet by its instance number (R213, R515). -/
def eyeletLevel (e : Nat) : Nat :=
  if e < 512 then 1 else if e < 576 then 2 else if e < 584 then 3 else if e < 586 then 4 else 5

/-- Tiles below a level-1 eyelet, in child-index order (R213). -/
def eyeletTiles (e : Nat) : List Nat :=
  let c := e / 64
  let k := e % 64
  (List.range 8).map (fun i => c * 512 + k / 4 * 32 + 8 * (k % 4) + i)

/-- Eyelets below an eyelet of level 2 to 5, in child-index order (R213). -/
def eyeletChildren (e : Nat) : List Nat :=
  if e < 576 then (List.range 8).map (fun i => (e - 512) / 8 * 64 + 8 * ((e - 512) % 8) + i)
  else if e < 584 then (List.range 8).map (fun i => 512 + 8 * (e - 576) + i)
  else if e < 586 then (List.range 4).map (fun i => 576 + 4 * (e - 584) + i)
  else [584, 585]

/-- A tile lies below an eyelet. -/
def belowEyelet (e t : Nat) : Bool :=
  let c := clusterOfTile t
  match eyeletLevel e with
  | 1 => (eyeletTiles e).contains t
  | 2 => decide (c = (e - 512) / 8) && decide (t % 512 / 64 = (e - 512) % 8)
  | 3 => decide (c = e - 576)
  | 4 => decide (c / 4 = e - 584)
  | _ => true

/-- CH_SCOPE of the channel is DOMAIN (R222); without parent and children the device is a domain of one (R237). -/
def State.domainScope (s : State) (p ch : Nat) : Bool := s.obj (0x5020 + 0x100 * p) (2 + ch) 0 = 1

/-- The apex of a context on this device (R214); under domain scope its device root (R237, R238). -/
def State.apex (s : State) (p ch : Nat) : Nat :=
  let cl := s.clustersOf p
  if s.domainScope p ch then 586
  else
    match cl with
    | [c] => 576 + c
    | _ => if cl.all (· < 4) then 584 else if cl.all (4 ≤ ·) then 585 else 586

/-- The child ports of the domain, ascending (R237). -/
def State.childPorts (s : State) : List Nat := (List.range 8).filter (fun n => (s.obj 0x3200 2 0).testBit n)

/-- A Newen port is up, or was and retrains (R430, R432). -/
def State.linked (s : State) (n : Nat) : Bool :=
  let l := (Sparse.get ({} : NewenPort) s.newen n).link
  l = .up || l = .retraining

/-- The message of a child port: ERR with LINK_DOWN while its link is down. -/
def State.childMsg (s : State) (x : LaceCtx) (n : Nat) : Option LaceMsg :=
  if s.linked n then Sparse.get none x.childMsgs n else some (laceErr .linkDown)

/-- What a member's message is in the running sweep: its leaf, or its integers (R226, R227). A level-1 eyelet forms the
integers of split-K itself. -/
def LaceCtx.memberMsg (x : LaceCtx) (t : Nat) : Option LaceMsg :=
  match Sparse.get none x.arrived t with
  | none => none
  | some m =>
    if m.err.isSome then some m
    else if x.sweep = 1 then some (laceLeaf m)
    else if m.op = 12 then
      some { m with data := List.zipWith quantise m.data (x.key.getD []) }
    else Sparse.get none x.quantised t

/-- The messages an eyelet combines, in child-index order with identities left out; `none` while a child is missing
(R224, R233). -/
def State.childMessages (s : State) (p ch e : Nat) : Option (List LaceMsg) :=
  let x := s.ctx p ch
  if eyeletLevel e = 1 then
    let ts := (eyeletTiles e).filter (fun t => x.expected.contains t)
    let ms := ts.filterMap x.memberMsg
    if ms.length = ts.length then some ms else none
  else
    let cs := (eyeletChildren e).filter (fun k => x.expected.any (belowEyelet k))
    let ms := cs.filterMap (fun k => Sparse.get none x.passed k)
    let ports := if e = 586 ∧ s.domainScope p ch then s.childPorts else []
    let pm := ports.filterMap (s.childMsg x)
    if ms.length = cs.length ∧ pm.length = ports.length then some (ms ++ pm) else none

/-- A message that has reached the turning point of the operation on this device becomes the key or the result (R226,
R232); a domain sends it to its children as well (R238). `final` tells the apex itself from a device whose parent sent
it; LACE_ROOT_CONFLICTS grows at the apex alone, which under domain scope is the domain root's (DESIGN CHOICE, log entry
92). -/
def State.laceTurn (s : State) (p ch : Nat) (m : LaceMsg) (final : Bool) : State :=
  let x := s.ctx p ch
  let sums := decide (m.op = 1) || decide (m.op = 12)
  let key := m.err.isNone && sums && x.sweep = 1
  let m' := if m.err.isNone && sums && final && !key then
      { m with data := List.zipWith sumrResult m.data (x.key.getD []) } else m
  let m' := if m.op = 10 ∧ m.roots = 0 ∧ m.err = none then { m' with data := List.replicate 8 0 } else m'
  let s := if final ∧ m.err = none ∧ m.op = 10 ∧ m.roots ≠ 1 then s.laceCount p 2 else s
  let down := if s.domainScope p ch then s.childPorts.map (fun n => (n, 4 * p + ch, true, m')) else []
  let s := { s with lacing := { s.lacing with toPorts := s.lacing.toPorts ++ down } }
  if key then
    s.setCtx p ch { x with sweep := 2, key := some m.data, passed := [], childMsgs := [], sentUp := false }
  else s.setCtx p ch { x with result := some m', childMsgs := [], sentUp := false }

/-- Errors that SECDED finds on a path below cluster `c` count in its light words 4, corrected, and 5, uncorrectable. -/
def State.laceUpset (s : State) (c upset : Nat) : State :=
  if upset = 1 then s.lightBump c 4 1 else if upset = 2 then s.lightBump c 5 1 else s

/-- A message with an uncorrectable error is ERR with ECC_UNCORRECTED (R216, R243). -/
def laceUpsetMsg (upset : Nat) (m : LaceMsg) : LaceMsg :=
  if upset = 2 then { m with err := worstLaceErr (m.err.toList ++ [.eccUncorrected]), data := [] } else m

/-- The device has no member on the channel and a parent: its device root supplies the identity, or what its children send,
with no operation open (R214, R224, R238). -/
def State.passesIdentity (s : State) (p ch : Nat) : Bool :=
  s.domainScope p ch && s.obj 0x3200 1 255 ≠ 255 && !(s.ctx p ch).active && (s.members p ch).isEmpty

/-- Eyelet `e` has a message to form: it lies at or below the apex, and has members or child devices below it (R214). -/
def State.eyeletWorks (s : State) (p ch e : Nat) : Bool :=
  let x := s.ctx p ch
  let dom := e = 586 && s.domainScope p ch
  (s.partition p).state ≠ .hung && decide (e ≤ 586) && (x.active || (dom && s.passesIdentity p ch)) && x.result.isNone
    && (Sparse.get none x.passed e).isNone && decide (eyeletLevel e ≤ eyeletLevel (s.apex p ch))
    && (dom || x.expected.any (belowEyelet e))

/-- EYELET_COMBINE (R225 to R233, R242, R243): `upset` tells of a link error on a path of the eyelet's children: 1 corrected,
2 uncorrectable. The combined message goes up, or turns at the apex; at the root of a device with a parent it leaves through
the parent port and the device waits (R238), unless that link is down, when the operation ends here. -/
def execEyeletCombine (p : PartId) (ch : Chan) (eyelet upset : Nat) (s : State) : Host.Outcome State Fault Refusal :=
  let c := if eyelet < 512 then eyelet / 64 else if eyelet < 576 then (eyelet - 512) / 8 else eyelet - 576
  let parent := s.obj 0x3200 1 255
  if !(s.eyeletWorks p.val ch.val eyelet) then .next s
  else
    match s.childMessages p.val ch.val eyelet with
    | none => .next s
    | some ms =>
      let s := if eyelet < 584 then s.laceUpset c upset else s
      let x := s.ctx p.val ch.val
      let (r, mis) := laceCombine x.sweep ms
      let m := laceUpsetMsg upset r
      let s := if mis && !x.mismatch then s.laceCount p.val 1 else s
      let s := s.setCtx p.val ch.val
        { x with active := true, passed := Sparse.set none x.passed eyelet (some m), mismatch := x.mismatch || mis }
      if eyelet ≠ s.apex p.val ch.val then .next s
      else if !(s.domainScope p.val ch.val) || parent = 255 then .next (s.laceTurn p.val ch.val m true)
      else if !(s.linked parent) then .next (s.laceTurn p.val ch.val { m with err := some .linkDown, data := [] } false)
      else
        let s := s.setCtx p.val ch.val { s.ctx p.val ch.val with sentUp := true }
        let out := s.lacing.toPorts ++ [(parent, 4 * p.val + ch.val, false, m)]
        .next { s with lacing := { s.lacing with toPorts := out } }

/-- LACE_KEY_ARRIVAL (R226, R227): the member quantises its values under the key, in a vector issue cycle that its program
loses; a key with an uncorrectable link error makes its message ERR ECC_UNCORRECTED (R215). -/
def execLaceKeyArrival (t : TileId) (down : LaceDown) (s : State) : Host.Outcome State Fault Refusal :=
  let ch := down.ch
  let upset := down.upset
  match s.partOfTile t.val with
  | none => .next s
  | some p =>
    let x := s.ctx p ch.val
    match x.key, Sparse.get none x.arrived t.val with
    | some key, some m =>
      if x.sweep = 2 ∧ m.op = 1 ∧ m.err = none ∧ x.expected.contains t.val ∧ (Sparse.get none x.quantised t.val).isNone then
        let m := laceUpsetMsg upset { m with data := List.zipWith quantise m.data key }
        let s := (s.laceUpset (clusterOfTile t.val) upset).setTile t { s.tile t with keyAt := some s.calends }
        .next (s.setCtx p ch.val { x with quantised := Sparse.set none x.quantised t.val (some m) })
      else .next s
    | _, _ => .next s

/-- Result lanes of an operation and where they stand in VQd (R183). -/
def laceLanes (op : Nat) (d : List Nat) : List Nat :=
  let z := List.replicate 8 0
  match op with
  | 4 | 5 => d.take 8 ++ z ++ d.drop 8 ++ z
  | 6 => d
  | 11 => List.replicate 32 0
  | _ => d.take 8 ++ List.replicate 24 0

/-- Lanes of VQd that hold the result of an operation (R183). -/
def laceResultLane (op l : Nat) : Bool :=
  match op with
  | 4 | 5 => l < 8 || (16 ≤ l && l < 24)
  | 6 => true
  | 11 => false
  | _ => l < 8

/-- Member `t`'s outstanding LACE of a channel belongs to the open operation (R221): the member has contributed, has not had
the result, and does not already wait with a LACE for the next operation. -/
def State.laceAwaits (s : State) (p ch t : Nat) : Bool :=
  let x := s.ctx p ch
  x.expected.contains t && (Sparse.get none x.arrived t).isSome && !(x.delivered.contains t)
    && (Sparse.get none x.heldNext t).isNone && (Sparse.get {} s.tiles t).laces.any (fun l => l.ch = ch)

/-- LACE_RESULT (R183, R184, R234, R243): the result enters VQd; an uncorrectable error, also one met on the way down
(`upset` 2; 1 is a corrected one), writes poisoned zeros; any other error is a fault of the LACE. -/
def execLaceResult (t : TileId) (down : LaceDown) (s : State) : Host.Outcome State Fault Refusal :=
  let ch := down.ch
  let upset := down.upset
  match s.partOfTile t.val with
  | none => .next s
  | some p =>
    let x := s.ctx p ch.val
    let tl := s.tile t
    match x.result, tl.laces.find? (fun l => l.ch = ch.val) with
    | some m, some w =>
      if !(s.laceAwaits p ch.val t.val) then .next s
      else
        let m := laceUpsetMsg upset m
        let s := (s.laceUpset (clusterOfTile t.val) upset).setCtx p ch.val { x with delivered := x.delivered ++ [t.val] }
        let tl := { tl with laces := tl.laces.filter (fun l => l.ch ≠ ch.val) }
        let d := BitVec.ofNat 4 w.dst
        match m.err with
        | none =>
          let v := VReg.ofLanes (laceLanes w.op m.data) (List.replicate 32 false)
          let tl := if w.op = 11 then tl else tl.setV d v
          .next (s.setTile t (tl.count wLaceOps 1))
        | some .eccUncorrected =>
          let v := VReg.ofLanes (List.replicate 32 0) ((List.range 32).map (laceResultLane w.op))
          let tl := if w.op = 11 then tl else tl.setV d v
          .next (s.setTile t { tl.count wLaceOps 1 with eccSeen := true })
        | some st =>
          let s := if st = .laceTimeout then s.lightBump (clusterOfTile t.val) 7 1 else s
          .next (s.setTile t { tl with asyncFaults := tl.asyncFaults ++ [(w.seq, w.index, st)] })
    | _, _ => .next s

/-- A context's operation begins with messages (R221, R223, R240, R241): its members are those in force now, and a
withdrawn member that has not contributed counts with ERR ABORTED. -/
def State.laceBegin (s : State) (p ch start : Nat) (msgs : Sparse (Option LaceMsg)) : State :=
  let x := s.ctx p ch
  let ms := s.members p ch
  let late := ms.filter (fun t => (Sparse.get none msgs t).isNone && (Sparse.get {} s.tiles t).withdrawn)
  let msgs := late.foldl (fun m t => Sparse.set none m t (some (laceErr .aborted))) msgs
  s.setCtx p ch { ended := x.ended, active := true, start := start, expected := ms, arrived := msgs,
                  childMsgs := x.childMsgs, timed := true }

/-- The operation of a context is over at every member (R221). -/
def State.laceAllDelivered (s : State) (p ch : Nat) : Bool :=
  let x := s.ctx p ch
  x.expected.all (fun t => !(s.laceAwaits p ch t))

/-- A context's operation ends; held messages begin the next one at once (R221). -/
def State.laceFinish (s : State) (p ch : Nat) : State :=
  let x := s.ctx p ch
  let s' := s.setCtx p ch { ended := (x.ended + 1) % 2 ^ 32, childMsgs := x.childMsgs }
  if x.heldNext = [] then s' else s'.laceBegin p ch s.calends x.heldNext

/-- LACE_OP_END (R221). -/
def execLaceOpEnd (p : PartId) (ch : Chan) (s : State) : Host.Outcome State Fault Refusal :=
  let x := s.ctx p.val ch.val
  if x.active ∧ x.result.isSome ∧ s.laceAllDelivered p.val ch.val then .next (s.laceFinish p.val ch.val) else .next s

/-- Every member that has issued its LACE in the open operation faults with a status, and the operation ends (R240). -/
def State.laceAbandon (s : State) (p ch : Nat) (st : Status) : State :=
  let x := s.ctx p ch
  let hit := x.expected.filter (s.laceAwaits p ch)
  let s := hit.foldl (fun s t =>
    let tl := Sparse.get ({} : Tile) s.tiles t
    match tl.laces.find? (fun l => l.ch = ch) with
    | none => s
    | some w =>
      let tl := { tl with laces := tl.laces.filter (fun l => l.ch ≠ ch),
                          asyncFaults := tl.asyncFaults ++ [(w.seq, w.index, st)] }
      let s := { s with tiles := Sparse.set {} s.tiles t tl }
      if st = .laceTimeout then s.lightBump (clusterOfTile t) 7 1 else s) s
  (s.setCtx p ch { s.ctx p ch with childMsgs := [] }).laceFinish p ch

end Sys2Proof.Machine
end

