-- ==== Sys2Proof/Machine/LaceInsn.lean ====
section
/-! DEFINITION. The instructions LACE (R183, R184, R219, R221, R599), DGST (R185, R498 to R501) and EVT (R186). -/

namespace Sys2Proof.Machine

/-- The source lanes of an operation (R183): lane numbers in message order. A BCAST takes lanes from the tile with ROOT = 1
alone. -/
def laceSources (op : Nat) (root : Bool) : List Nat :=
  match op with
  | 10 => if root then List.range 8 else []
  | 4 | 5 => List.range 8 ++ (List.range 8).map (· + 16)
  | 6 => List.range 32
  | 11 => []
  | _ => List.range 8

/-- Encoding of LACE (R183). -/
def legalLace (f : FmtL) : Bool :=
  f.r = 0 && f.op.toNat ≤ 12 && f.k.toNat ≤ 16 && (f.k = 0 || f.op = 6) && (!f.root || f.op = 10)
    && (f.op ≠ 11 || (f.d = 0 && f.a = 0))

/-- A member's message reaches its level-1 eyelet: it belongs to the open operation, or begins one, or is held for the
next (R221, R240). -/
def State.laceSend (s : State) (p ch t : Nat) (m : LaceMsg) : State :=
  let x := s.ctx p ch
  if !x.active then s.laceBegin p ch (s.calends + 3) (Sparse.set none [] t (some m))
  else if x.expected.contains t && (Sparse.get none x.arrived t).isNone && x.result.isNone then
    s.setCtx p ch { x with arrived := Sparse.set none x.arrived t (some m) }
  else s.setCtx p ch { x with heldNext := Sparse.set none x.heldNext t (some m) }

/-- LACE. -/
def execLace (t : TileId) (f : FmtL) (s : State) : Host.Outcome State Fault Refusal :=
  let ch := f.ch.toNat
  .next (issueTo t s (fun x => if x.laces.any (fun l => l.ch = ch) then some 3 else none) (legalLace f) false
      (if f.op = 11 then [] else [f.d, f.a]) (fun x =>
    match s.partOfTile t.val with
    | none => .fault .accessLevel
    | some p =>
      if !(s.member p ch t.val) then .fault .accessLevel
      else
        let op := f.op.toNat
        let v := x.vreg f.a
        let ls := laceSources op f.root
        let bad := ls.any (fun l => v.lanePoison l)
        let m : LaceMsg :=
          { err := if bad then some .eccUncorrected else none, op := op, k := f.k.toNat,
            roots := if f.root then 1 else 0,
            data := if bad then [] else ls.map (fun l => v.lane l) }
        let w : LaceWait := { seq := x.issueSeq, index := x.pc, ch := ch, op := op, k := f.k.toNat, dst := f.d.toNat }
        let s := s.setTile t { x with laces := x.laces ++ [w], issueSeq := x.issueSeq + 1 }
        .done (s.laceSend p ch t.val m)))

/-- Encoding of DGST (R185, R498). -/
def legalDgst (f : FmtG) : Bool :=
  f.r = 0 && (f.sta || f.dig) && (f.sta || f.fmt = 0)
    && (!f.sta || (match NumFmt.ofCode f.fmt.toNat with | some k => !k.isExpansionOnly | none => false))

/-- DGST. -/
def execDgst (t : TileId) (f : FmtG) (s : State) : Host.Outcome State Fault Refusal :=
  .next (issue t s (legalDgst f) false [] (fun x =>
    let a := x.greg f.a
    let b := x.greg f.b
    guardPoison [a.poison, b.poison] (
      let n := b.val.toNat
      let o := a.val.toNat
      let fmt := (NumFmt.ofCode f.fmt.toNat).getD .int8
      if n = 0 then .done s
      else if 0x18000 < o + n then .fault .outOfRange
      else if f.sta ∧ 8 * n % fmt.width ≠ 0 then .fault .badDescriptor
      else
        let (r, s) := s.load (tileAddr t.val o) n
        let x := s.tile t
        let b := if f.sta then (List.range (8 * n / fmt.width)).foldl (fun b i =>
            b.element fmt (laneNat r.val fmt.width i)
              (decide (bitsAt r.poison (i * fmt.width / 8) ((fmt.width + 7) / 8) ≠ 0))) x.priv else x.priv
        let b := if f.dig then b.segment (crc64 (bytesOf r.val n)) n else b
        .done (s.setTile t { x with priv := b, eccSeen := x.eccSeen || decide (r.poison ≠ 0) }))))

/-- EVT (R186): codes 0xE0 to 0xFF; a poisoned payload is written as it stands (R599). -/
def execEvt (t : TileId) (f : FmtY) (s : State) : Host.Outcome State Fault Refusal :=
  .next (issue t s (f.r = 0 && 0xE0 ≤ f.num.toNat && (if f.i then f.a = 0 && f.imm.toNat < 2 ^ 24 else f.imm = 0))
      false [] (fun x =>
    let g := x.greg f.a
    let p := if f.i then f.imm.toNat else g.val.toNat % 2 ^ 24
    let x := { x with eccSeen := x.eccSeen || (!f.i && g.poison) }
    .done (s.setTile t (x.event s.calends f.num.toNat p))))

end Sys2Proof.Machine
end

