-- ==== Sys2Proof/Machine/ShelfOps.lean ====
section
/-! DEFINITION. What the Session Shelf, the sequencers and the host's commands share of sessions: descriptors and page
tables in HBM (R336, R337), pools and their allocation (R332 to R335), hot and append pages (R331), residency (R23) and
the release of old locations (R338). -/

namespace Sys2Proof.Machine

/-! ### Sessions and descriptors -/

/-- Session `sid`. -/
def State.session (s : State) (sid : Nat) : Session := Sparse.get {} s.shelf.sessions sid

/-- The session a RUN names (R391). -/
def runSession (e : Nat) : Option Nat :=
  if (entryW e 4).testBit 16 then some (bitsAt (entryW e 4) 32 16) else none

/-- ACTIVE (R336): a RUN naming the session is accepted and not completed. -/
def State.active (s : State) (sid : Nat) : Bool :=
  s.host.cmds.any (fun c => entryOp c.entry = 1 && !c.refused && c.phase = .running && runSession c.entry = some sid)

/-- The code of STATE (R336). -/
def SessState.code : SessState → Nat
  | .closed => 0 | .live => 1 | .warm => 2 | .cool => 3 | .cold => 4

/-- Pages of a session that satisfy `f`. -/
def Session.count (x : Session) (f : Page → Bool) : Nat :=
  (x.pages.filter (fun e => match e.2 with
    | some p => f p
    | none => false)).length

/-- The eight words of a session descriptor as one number (R336). -/
def Session.descriptor (x : Session) (act : Bool) : Nat :=
  if x.state = .closed then 0
  else
    let w0 := x.layers + x.kvFmt * 2 ^ 43 + x.part * 2 ^ 45 + x.vi * 2 ^ 48 + x.profile * 2 ^ 54 + act.toNat * 2 ^ 57
      + x.demoting.toNat * 2 ^ 58 + x.promoting.toNat * 2 ^ 59 + x.pin.toNat * 2 ^ 60 + x.state.code * 2 ^ 61
    let w5 := x.count (fun p => p.tier = .t0) + x.count (fun p => p.tier = .t1) * 2 ^ 16
      + x.count (fun p => p.tier = .t2) * 2 ^ 32 + x.count (fun p => p.c) * 2 ^ 48
    let w7 := x.wakeDH + x.wakeDL0 * 2 ^ 24 + (Status.code x.wakeStatus) * 2 ^ 56
    ofLanes 64 [w0, x.tokens + x.maxTokens * 2 ^ 32, x.ptAddr + x.pMax * 2 ^ 48, x.rowBytes, x.lastRun, w5, x.wakeCal, w7]

/-- SHELF_DESC_BASE (R553). -/
def State.descBase (s : State) : Nat := hbmBytes s - 0x10400000

/-- VIGIL_AREA_BASE (R553). -/
def State.vigilBase (s : State) : Nat := hbmBytes s - 0x10000000

/-- A session changes; its descriptor is written through to HBM (R336). -/
def State.putSession (s : State) (sid : Nat) (x : Session) : State :=
  let s := { s with shelf := { s.shelf with sessions := Sparse.set {} s.shelf.sessions sid x } }
  s.store (s.descBase + 64 * sid) 64 (x.descriptor (s.active sid)) 0

/-- A lookup of a descriptor in the cache of 1,024 (R336): a miss reads it from HBM, and one that reads poisoned leaves the
session unusable until CLOSE. -/
def State.lookup (s : State) (sid : Nat) : State :=
  let h := s.shelf
  if h.cache.contains sid then { s with shelf := { h with cache := sid :: h.cache.erase sid, hits := h.hits + 1 } }
  else
    let s := { s with shelf := { h with cache := (sid :: h.cache).take 1024, misses := h.misses + 1 } }
    let (d, s) := s.load (s.descBase + 64 * sid) 64
    if d.poison ≠ 0 then
      { s with shelf := { s.shelf with
          sessions := Sparse.set {} s.shelf.sessions sid { s.session sid with broken := true } } }
    else s

/-- The entries `l` of a session's page table are read from HBM (R26 step 3, R337); one that reads poisoned leaves the
session unusable until CLOSE. -/
def State.readTable (s : State) (sid : Nat) (l : List Nat) : State :=
  let x := s.session sid
  l.foldl (fun s e =>
    let (d, s) := s.load (x.ptAddr + 8 * e) 8
    if d.poison ≠ 0 then
      { s with shelf := { s.shelf with
          sessions := Sparse.set {} s.shelf.sessions sid { s.session sid with broken := true } } }
    else s) s

/-- The session numbers that partition `p` owns (R328). -/
def State.ownsSession (s : State) (p sid : Nat) : Bool :=
  let f := s.obj (0x5030 + 0x100 * p) 0 0
  decide (f ≤ sid) && decide (sid < f + s.obj (0x5030 + 0x100 * p) 1 0)

/-- A request of VI `v` names session `sid` (R328): in the range of the VI's partition, and not another VI's. -/
def State.namesSession (s : State) (v sid : Nat) : Bool :=
  match s.viPart v with
  | some p =>
    s.ownsSession p sid && ((s.session sid).state = .closed || (s.session sid).vi = v)
  | none => false

/-! ### Profiles and shape (R330, R331) -/

/-- Field `sub` of profile `k` of VI `v` (R330, R352). -/
def State.profile (s : State) (v k sub : Nat) : Nat :=
  let d := match sub with
    | 4 => 4194304
    | 5 => 2000
    | 6 => 1
    | 7 => 1
    | _ => 0
  s.obj (0x5801 + 0x10 * v + k) sub d

/-- ceil (a / b). -/
def ceilDiv (a b : Nat) : Nat := (a + b - 1) / b

/-- Used pages per layer, U (R330). -/
def Session.used (x : Session) : Nat := ceilDiv (x.tokens * x.rowBytes) 65536

/-- Hot pages per layer, h (R331). -/
def State.hotPages (s : State) (x : Session) : Nat :=
  let w := s.profile x.vi x.profile 4
  if w = 0 ∨ x.layers = 0 then 0 else max 1 (w / (65536 * x.layers))

/-- Page-table entries of the hot window, layer by layer (R331). -/
def State.hotEntries (s : State) (x : Session) (l : Nat) : List Nat :=
  let k := min (s.hotPages x) x.used
  (List.range k).map (fun i => l * x.pMax + (x.used - k + i))

/-- Page-table entries of the append pages of a layer for a reservation of `n` tokens (R331). -/
def Session.appendEntries (x : Session) (n l : Nat) : List Nat :=
  let e := ceilDiv ((x.tokens + n) * x.rowBytes) 65536
  (List.range (e - x.used)).map (fun i => l * x.pMax + (x.used + i))

/-- Tokens an operation asks room for. -/
def ShelfKind.tokens (k : ShelfKind) : Nat :=
  match k with
  | .wake n | .run n => n
  | _ => 0

/-- An entry of the page table. -/
def Session.page (x : Session) (i : Nat) : Option Page := Sparse.get none x.pages i

/-- The parked state that follows from where a session's pages lie (R340). -/
def Session.parkedState (x : Session) : SessState :=
  let t1 := x.count (fun p => p.tier = .t1)
  let t2 := x.count (fun p => p.tier = .t2)
  if 1 ≤ x.used ∧ t1 = 0 ∧ 0 < t2 then .cold else if 0 < t2 ∧ 0 < t1 then .cool else .warm

/-! ### Page-table entries in HBM (R337, R338) -/

/-- The 64 bits of an entry (R337). -/
def pageWord (p : Option Page) : Nat :=
  match p with
  | none => 3 * 2 ^ 62
  | some p =>
    p.addr + p.moving.toNat * 2 ^ 60 + p.c.toNat * 2 ^ 61
      + (match p.tier with
         | .t0 => 0 | .t1 => 1 | .t2 => 2) * 2 ^ 62

/-- One whole 8-byte write of an entry (R338). -/
def State.putPage (s : State) (sid i : Nat) (p : Option Page) : State :=
  let x := s.session sid
  let s := s.putSession sid { x with pages := Sparse.set none x.pages i p }
  s.store (x.ptAddr + 8 * i) 8 (pageWord p) 0

/-! ### Pools (R332 to R335) -/

/-- ARENA_FRAMES of partition `p`. -/
def State.arenaFrames (s : State) (p : Nat) : Nat := s.obj (0x5030 + 0x100 * p) 2 0

/-- Striped offset of frame 0 of the arena (R332). -/
def State.arenaOffset (s : State) (p : Nat) : Nat :=
  (s.clustersOf p).length * 0x3000000 - 65536 * s.arenaFrames p

/-- Device address of frame `f`. -/
def State.frameAddr (s : State) (p f : Nat) : Nat := stripedBase + s.arenaOffset p + 65536 * f

/-- Free frames, lowest first, at most `k` of them (R335). -/
def State.freeFrames (s : State) (p k : Nat) : List Nat :=
  ((List.range (s.arenaFrames p)).filter (fun f => !(Sparse.get false (s.partition p).frames f))).take k

/-- Free frames of a partition. -/
def State.freeFrameCount (s : State) (p : Nat) : Nat := s.arenaFrames p - (s.partition p).frames.length

/-- Frames marked used. -/
def State.takeFrames (s : State) (p : Nat) (fs : List Nat) : State :=
  let x := s.partition p
  s.setPartition p { x with frames := fs.foldl (fun m f => Sparse.set false m f true) x.frames }

/-- Frames released: they are zeroed before they count as free (R335). -/
def State.releaseFrame (s : State) (p f : Nat) : State :=
  let x := s.partition p
  s.setPartition p { x with framesZeroing := x.framesZeroing ++ [f] }

/-- The bytes of frame `f` become zero, granule by granule (R335). -/
def State.zeroFrame (s : State) (p f : Nat) : State :=
  (List.range 16).foldl (fun s k =>
    match s.striped p (s.arenaOffset p + 65536 * f + 4096 * k) with
    | some (sl, b) => s.zero (sliceAddr sl b) 4096
    | none => s) s

/-- The lowest unit of a pool of `n` units where `k` of them, aligned, are free: one, or an aligned pair (R335). -/
def freeUnit (used : Nat → Bool) (count n k : Nat) : Option Nat :=
  ((List.range (count + 1)).map (· * k)).find?
    (fun u => decide (u + k ≤ n) && (List.range k).all (fun i => !(used (u + i))))

/-- Units of a page: one of 32 KiB when compressed, else an aligned pair. -/
def pageUnits (c : Bool) : Nat := if c then 1 else 2

/-- A place for a page in the T1 pool of partition `p`: the address, and the state with its units taken. -/
def State.allocT1 (s : State) (p : Nat) (c : Bool) : Option (Nat × State) :=
  let x := s.partition p
  let k := pageUnits c
  (freeUnit (fun u => Sparse.get false x.t1 u) x.t1.length (s.obj (0x5030 + 0x100 * p) 4 0 / 32768) k).map (fun u =>
    (s.obj (0x5030 + 0x100 * p) 3 0 + 32768 * u,
     s.setPartition p { x with t1 := (List.range k).foldl (fun m i => Sparse.set false m (u + i) true) x.t1 }))

/-- A place for a page in the T2 pool of VI `v`. -/
def State.allocT2 (s : State) (v : Nat) (c : Bool) : Option (Nat × State) :=
  let k := pageUnits c
  let key := 2 ^ 32 * v
  (freeUnit (fun u => Sparse.get false s.shelf.t2 (key + u)) s.shelf.t2.length (s.obj (0x5800 + 0x10 * v) 3 0 / 32768) k).map
    (fun u =>
      (s.obj (0x5800 + 0x10 * v) 2 0 + 32768 * u,
       { s with shelf := { s.shelf with
          t2 := (List.range k).foldl (fun m i => Sparse.set false m (key + u + i) true) s.shelf.t2 } }))

/-- The location of a page goes back to its pool. -/
def State.releasePage (s : State) (part vi : Nat) (p : Page) : State :=
  match p.tier with
  | .t0 => s.releaseFrame part ((p.addr - s.frameAddr part 0) / 65536)
  | .t1 =>
    let u := (p.addr - s.obj (0x5030 + 0x100 * part) 3 0) / 32768
    let x := s.partition part
    s.setPartition part { x with t1 := (List.range (pageUnits p.c)).foldl (fun m i => Sparse.set false m (u + i) false) x.t1 }
  | .t2 =>
    let u := 2 ^ 32 * vi + (p.addr - s.obj (0x5800 + 0x10 * vi) 2 0) / 32768
    { s with shelf := { s.shelf with
        t2 := (List.range (pageUnits p.c)).foldl (fun m i => Sparse.set false m (u + i) false) s.shelf.t2 } }

/-- The lowest run of `n` free blocks among `total` (R335). -/
def freeBlocks (used : Sparse Bool) (total n : Nat) : Option Nat :=
  (0 :: used.map (fun e => e.1 + 1)).find?
    (fun b => decide (b + n ≤ total) && !(used.any (fun e => decide (b ≤ e.1) && decide (e.1 < b + n))))

/-! ### Old locations (R338) -/

/-- Tasks DISPATCHED in the clusters of partition `p`. -/
def State.dispatchedIn (s : State) (p : Nat) : List (Nat × CmdKey × Nat) :=
  (s.clustersOf p).flatMap (fun c =>
    ((s.seq c).queues.flatMap (fun q => q.2)).filterMap (fun t => if t.phase = .dispatched then some (c, t.cmd, t.pos) else none))

/-- An old location is released once every task DISPATCHED now has left DISPATCHED (R338). -/
def State.retire (s : State) (part vi : Nat) (p : Page) : State :=
  let ts := s.dispatchedIn part
  if ts = [] then s.releasePage part vi p
  else { s with shelf := { s.shelf with retired := s.shelf.retired ++ [⟨part, vi, p, ts⟩] } }

/-- A task leaves DISPATCHED: old locations that waited for it alone are released (R338). -/
def State.taskLeft (s : State) (c : Nat) (k : CmdKey) (pos : Nat) : State :=
  let l := s.shelf.retired.map (fun r => { r with tasks := r.tasks.erase (c, k, pos) })
  let s := { s with shelf := { s.shelf with retired := l.filter (fun r => !r.tasks.isEmpty) } }
  (l.filter (fun r => r.tasks.isEmpty)).foldl (fun s r => s.releasePage r.part r.vi r.page) s

/-! ### Residency (R23) and the idle timer (R24, R346) -/

/-- An entry of a session is a page in T0, or one whose move into T0 ended with an error (R23, R194). -/
def Session.settled (x : Session) (e : Nat) : Bool :=
  (match x.page e with
   | some p => p.tier = .t0
   | none => false) || x.failed.any (fun f => f.1 = e)

/-- Tokens that the operations of a session not yet ended have asked room for (R331, R342, R344). -/
def State.pendingTokens (s : State) (sid : Nat) : Nat :=
  ((s.shelf.promotions.filter (fun o => o.sid = sid)).map (fun o => o.kind.tokens)).foldl max 0

/-- Layer `l` of a session is resident for a RUN that appends `a` tokens: its hot and append pages are in T0, or have had
their moves end with an error, and so are those of every layer below it (R23, R28, R194, R342 step 5). -/
def State.layerReady (s : State) (sid l a : Nat) : Bool :=
  let x := s.session sid
  x.state = .live && (List.range (l + 1)).all (fun k =>
    (s.hotEntries x k ++ x.appendEntries (max a (s.pendingTokens sid)) k).all x.settled)

/-- The failures of a layer's pages that no RUN has told the host yet are told now (R33): the first of them, and the state
after it. -/
def State.tellFailure (s : State) (sid l : Nat) : Option Status × State :=
  let x := s.session sid
  let mine := fun (f : Nat × Status × Bool) => decide (f.1 / max 1 x.pMax = l) && !f.2.2
  match x.failed.find? mine with
  | some f =>
    (some f.2.1, s.putSession sid { x with failed := x.failed.map (fun f => if mine f then (f.1, f.2.1, true) else f) })
  | none => (none, s)

end Sys2Proof.Machine
end

