-- ==== Sys2Proof/Machine/TileWord.lean ====
section
/-! DEFINITION. The words of tile instructions (R154, R157): the eleven formats, and the opcode of every instruction. -/

namespace Sys2Proof.Machine

/-! ### Formats (R154): the fields of a word below its opcode, most significant first -/

/-- The fields of a word of format R. -/
def fieldsR (w : BitVec 64) : FmtR :=
  ⟨w.extractLsb' 52 4, w.extractLsb' 48 4, w.extractLsb' 44 4, w.extractLsb' 40 4, w.getLsbD 39,
   w.extractLsb' 36 3, w.getLsbD 35, w.extractLsb' 32 3, w.extractLsb' 0 32⟩

/-- The word of format R with an opcode. -/
def wordR (opc : BitVec 8) (f : FmtR) : BitVec 64 :=
  opc ++ f.d ++ f.a ++ f.b ++ f.c ++ BitVec.ofBool f.i ++ f.msk ++ BitVec.ofBool f.s ++ f.sub ++ f.imm

/-- The fields of a word of format I. -/
def fieldsI (w : BitVec 64) : FmtI :=
  ⟨w.extractLsb' 52 4, w.extractLsb' 48 4, w.extractLsb' 0 48⟩

/-- The word of format I with an opcode. -/
def wordI (opc : BitVec 8) (f : FmtI) : BitVec 64 :=
  opc ++ f.d ++ f.r ++ f.imm

/-- The fields of a word of format J. -/
def fieldsJ (w : BitVec 64) : FmtJ :=
  ⟨w.extractLsb' 52 4, w.extractLsb' 48 4, w.extractLsb' 45 3, w.getLsbD 44, w.extractLsb' 32 12,
   w.extractLsb' 0 32⟩

/-- The word of format J with an opcode. -/
def wordJ (opc : BitVec 8) (f : FmtJ) : BitVec 64 :=
  opc ++ f.a ++ f.b ++ f.cond ++ BitVec.ofBool f.i ++ f.len ++ f.imm

/-- The fields of a word of format W. -/
def fieldsW (w : BitVec 64) : FmtW :=
  ⟨w.getLsbD 55, w.getLsbD 54, w.getLsbD 53, w.getLsbD 52, w.extractLsb' 48 4, w.extractLsb' 0 48⟩

/-- The word of format W with an opcode. -/
def wordW (opc : BitVec 8) (f : FmtW) : BitVec 64 :=
  opc ++ BitVec.ofBool f.noc ++ BitVec.ofBool f.mma ++ BitVec.ofBool f.drn ++ BitVec.ofBool f.lac ++ f.n ++ f.r

/-- The fields of a word of format Y. -/
def fieldsY (w : BitVec 64) : FmtY :=
  ⟨w.extractLsb' 48 8, w.getLsbD 47, w.extractLsb' 43 4, w.extractLsb' 32 11, w.extractLsb' 0 32⟩

/-- The word of format Y with an opcode. -/
def wordY (opc : BitVec 8) (f : FmtY) : BitVec 64 :=
  opc ++ f.num ++ BitVec.ofBool f.i ++ f.a ++ f.r ++ f.imm

/-- The fields of a word of format M. -/
def fieldsM (w : BitVec 64) : FmtM :=
  ⟨w.extractLsb' 52 4, w.extractLsb' 48 4, w.extractLsb' 39 9, w.extractLsb' 36 3, w.extractLsb' 34 2,
   w.getLsbD 33, w.getLsbD 32, w.extractLsb' 0 32⟩

/-- The word of format M with an opcode. -/
def wordM (opc : BitVec 8) (f : FmtM) : BitVec 64 :=
  opc ++ f.d ++ f.a ++ f.r1 ++ f.msk ++ f.size ++ BitVec.ofBool f.sx ++ BitVec.ofBool f.r2 ++ f.off

/-- The fields of a word of format T. -/
def fieldsT (w : BitVec 64) : FmtT :=
  ⟨w.extractLsb' 52 4, w.extractLsb' 48 4, w.extractLsb' 44 4, w.extractLsb' 36 8, w.extractLsb' 0 36⟩

/-- The word of format T with an opcode. -/
def wordT (opc : BitVec 8) (f : FmtT) : BitVec 64 :=
  opc ++ f.a ++ f.b ++ f.c ++ f.conv ++ f.r

/-- The fields of a word of format X. -/
def fieldsX (w : BitVec 64) : FmtX :=
  ⟨w.getLsbD 55, w.getLsbD 54, w.getLsbD 53, w.getLsbD 52, w.getLsbD 51, w.getLsbD 50, w.extractLsb' 48 2,
   w.extractLsb' 44 4, w.extractLsb' 40 4, w.extractLsb' 36 4, w.extractLsb' 32 4, w.extractLsb' 28 4,
   w.extractLsb' 24 4, w.extractLsb' 12 12, w.extractLsb' 0 12⟩

/-- The word of format X with an opcode. -/
def wordX (opc : BitVec 8) (f : FmtX) : BitVec 64 :=
  opc ++ BitVec.ofBool f.acc ++ BitVec.ofBool f.accum ++ BitVec.ofBool f.mode ++ BitVec.ofBool f.expk ++
    BitVec.ofBool f.early ++ BitVec.ofBool f.strict ++ f.passes ++ f.afmt ++ f.bfmt ++ f.sel ++ f.ga ++
    f.gb ++ f.gk ++ f.astr ++ f.bstr

/-- The fields of a word of format D. -/
def fieldsD (w : BitVec 64) : FmtD :=
  ⟨w.getLsbD 55, w.extractLsb' 52 3, w.extractLsb' 48 4, w.extractLsb' 0 48⟩

/-- The word of format D with an opcode. -/
def wordD (opc : BitVec 8) (f : FmtD) : BitVec 64 :=
  opc ++ BitVec.ofBool f.acc ++ f.r1 ++ f.a ++ f.r2

/-- The fields of a word of format L. -/
def fieldsL (w : BitVec 64) : FmtL :=
  ⟨w.extractLsb' 52 4, w.extractLsb' 48 4, w.extractLsb' 44 4, w.extractLsb' 42 2, w.extractLsb' 37 5,
   w.getLsbD 36, w.extractLsb' 0 36⟩

/-- The word of format L with an opcode. -/
def wordL (opc : BitVec 8) (f : FmtL) : BitVec 64 :=
  opc ++ f.d ++ f.a ++ f.op ++ f.ch ++ f.k ++ BitVec.ofBool f.root ++ f.r

/-- The fields of a word of format G. -/
def fieldsG (w : BitVec 64) : FmtG :=
  ⟨w.extractLsb' 52 4, w.extractLsb' 48 4, w.extractLsb' 44 4, w.getLsbD 43, w.getLsbD 42,
   w.extractLsb' 0 42⟩

/-- The word of format G with an opcode. -/
def wordG (opc : BitVec 8) (f : FmtG) : BitVec 64 :=
  opc ++ f.a ++ f.b ++ f.fmt ++ BitVec.ofBool f.sta ++ BitVec.ofBool f.dig ++ f.r

/-! ### Opcodes (R157) -/

/-- The instruction a word of the program of tile `t` spells; `none` where its opcode is reserved (R156). -/
def tileDecode (t : TileId) (w : BitVec 64) : Option Instr :=
  match (w.extractLsb' 56 8).toNat with
  | 0x00 => some (.nop t (fieldsR w))
  | 0x01 => some (.endTask t (fieldsR w))
  | 0x02 => some (.jmp t (fieldsJ w))
  | 0x03 => some (.br t (fieldsJ w))
  | 0x04 => some (.loop t (fieldsJ w))
  | 0x05 => some (.wait t (fieldsW w))
  | 0x06 => some (.tinc t (fieldsY w))
  | 0x07 => some (.twait t (fieldsY w))
  | 0x10 => some (.movi t (fieldsI w))
  | 0x11 => some (.movhi t (fieldsI w))
  | 0x12 => some (.add t (fieldsR w))
  | 0x13 => some (.sub t (fieldsR w))
  | 0x14 => some (.mul t (fieldsR w))
  | 0x15 => some (.and t (fieldsR w))
  | 0x16 => some (.or t (fieldsR w))
  | 0x17 => some (.xor t (fieldsR w))
  | 0x18 => some (.shl t (fieldsR w))
  | 0x19 => some (.shr t (fieldsR w))
  | 0x1A => some (.sra t (fieldsR w))
  | 0x1B => some (.min t (fieldsR w))
  | 0x1C => some (.max t (fieldsR w))
  | 0x1D => some (.minu t (fieldsR w))
  | 0x1E => some (.maxu t (fieldsR w))
  | 0x20 => some (.ld t (fieldsM w))
  | 0x21 => some (.st t (fieldsM w))
  | 0x22 => some (.vld t (fieldsM w))
  | 0x23 => some (.vst t (fieldsM w))
  | 0x24 => some (.get t (fieldsT w))
  | 0x25 => some (.put t (fieldsT w))
  | 0x26 => some (.xfer t (fieldsT w))
  | 0x30 => some (.mma t (fieldsX w))
  | 0x31 => some (.drain t (fieldsD w))
  | 0x40 => some (.vadd t (fieldsR w))
  | 0x41 => some (.vsub t (fieldsR w))
  | 0x42 => some (.vmul t (fieldsR w))
  | 0x43 => some (.vfma t (fieldsR w))
  | 0x44 => some (.vmax t (fieldsR w))
  | 0x45 => some (.vmin t (fieldsR w))
  | 0x46 => some (.vexp2 t (fieldsR w))
  | 0x47 => some (.vrcp t (fieldsR w))
  | 0x48 => some (.vrsqrt t (fieldsR w))
  | 0x50 => some (.viadd t (fieldsR w))
  | 0x51 => some (.visub t (fieldsR w))
  | 0x52 => some (.vimul t (fieldsR w))
  | 0x53 => some (.vand t (fieldsR w))
  | 0x54 => some (.vor t (fieldsR w))
  | 0x55 => some (.vxor t (fieldsR w))
  | 0x56 => some (.vshl t (fieldsR w))
  | 0x57 => some (.vshr t (fieldsR w))
  | 0x58 => some (.vsra t (fieldsR w))
  | 0x60 => some (.vcmp t (fieldsR w))
  | 0x61 => some (.vsel t (fieldsR w))
  | 0x62 => some (.vbcg t (fieldsR w))
  | 0x63 => some (.vget t (fieldsR w))
  | 0x64 => some (.vperm t (fieldsR w))
  | 0x65 => some (.vred t (fieldsR w))
  | 0x66 => some (.vcvt t (fieldsR w))
  | 0x67 => some (.mop t (fieldsR w))
  | 0x68 => some (.vtkf t (fieldsR w))
  | 0x69 => some (.vtkm t (fieldsR w))
  | 0x6C => some (.srkey t (fieldsR w))
  | 0x6D => some (.srq t (fieldsR w))
  | 0x6E => some (.sradd t (fieldsR w))
  | 0x6F => some (.srdq t (fieldsR w))
  | 0x70 => some (.lace t (fieldsL w))
  | 0x78 => some (.dgst t (fieldsG w))
  | 0x79 => some (.evt t (fieldsY w))
  | _ => none

/-- The word of a tile instruction; a command that no program holds has none. -/
def tileWord (i : Instr) : Option (BitVec 64) :=
  match i with
  | .nop _ f => some (wordR 0x00 f)
  | .endTask _ f => some (wordR 0x01 f)
  | .jmp _ f => some (wordJ 0x02 f)
  | .br _ f => some (wordJ 0x03 f)
  | .loop _ f => some (wordJ 0x04 f)
  | .wait _ f => some (wordW 0x05 f)
  | .tinc _ f => some (wordY 0x06 f)
  | .twait _ f => some (wordY 0x07 f)
  | .movi _ f => some (wordI 0x10 f)
  | .movhi _ f => some (wordI 0x11 f)
  | .add _ f => some (wordR 0x12 f)
  | .sub _ f => some (wordR 0x13 f)
  | .mul _ f => some (wordR 0x14 f)
  | .and _ f => some (wordR 0x15 f)
  | .or _ f => some (wordR 0x16 f)
  | .xor _ f => some (wordR 0x17 f)
  | .shl _ f => some (wordR 0x18 f)
  | .shr _ f => some (wordR 0x19 f)
  | .sra _ f => some (wordR 0x1A f)
  | .min _ f => some (wordR 0x1B f)
  | .max _ f => some (wordR 0x1C f)
  | .minu _ f => some (wordR 0x1D f)
  | .maxu _ f => some (wordR 0x1E f)
  | .ld _ f => some (wordM 0x20 f)
  | .st _ f => some (wordM 0x21 f)
  | .vld _ f => some (wordM 0x22 f)
  | .vst _ f => some (wordM 0x23 f)
  | .get _ f => some (wordT 0x24 f)
  | .put _ f => some (wordT 0x25 f)
  | .xfer _ f => some (wordT 0x26 f)
  | .mma _ f => some (wordX 0x30 f)
  | .drain _ f => some (wordD 0x31 f)
  | .vadd _ f => some (wordR 0x40 f)
  | .vsub _ f => some (wordR 0x41 f)
  | .vmul _ f => some (wordR 0x42 f)
  | .vfma _ f => some (wordR 0x43 f)
  | .vmax _ f => some (wordR 0x44 f)
  | .vmin _ f => some (wordR 0x45 f)
  | .vexp2 _ f => some (wordR 0x46 f)
  | .vrcp _ f => some (wordR 0x47 f)
  | .vrsqrt _ f => some (wordR 0x48 f)
  | .viadd _ f => some (wordR 0x50 f)
  | .visub _ f => some (wordR 0x51 f)
  | .vimul _ f => some (wordR 0x52 f)
  | .vand _ f => some (wordR 0x53 f)
  | .vor _ f => some (wordR 0x54 f)
  | .vxor _ f => some (wordR 0x55 f)
  | .vshl _ f => some (wordR 0x56 f)
  | .vshr _ f => some (wordR 0x57 f)
  | .vsra _ f => some (wordR 0x58 f)
  | .vcmp _ f => some (wordR 0x60 f)
  | .vsel _ f => some (wordR 0x61 f)
  | .vbcg _ f => some (wordR 0x62 f)
  | .vget _ f => some (wordR 0x63 f)
  | .vperm _ f => some (wordR 0x64 f)
  | .vred _ f => some (wordR 0x65 f)
  | .vcvt _ f => some (wordR 0x66 f)
  | .mop _ f => some (wordR 0x67 f)
  | .vtkf _ f => some (wordR 0x68 f)
  | .vtkm _ f => some (wordR 0x69 f)
  | .srkey _ f => some (wordR 0x6C f)
  | .srq _ f => some (wordR 0x6D f)
  | .sradd _ f => some (wordR 0x6E f)
  | .srdq _ f => some (wordR 0x6F f)
  | .lace _ f => some (wordL 0x70 f)
  | .dgst _ f => some (wordG 0x78 f)
  | .evt _ f => some (wordY 0x79 f)
  | _ => none

end Sys2Proof.Machine
end

