-- ==== Sys2Proof/Machine/Sequencer.lean ====
section
/-! DEFINITION. The cluster sequencers: task descriptors (R193 to R195), fetching (R191, R192), task states (R199, R200),
dispatch (R201 to R203), failure, cancellation and abort (R189, R205, R206), the program broadcast (R187, R188), duty
(R207), latches and records (R209, R210, R492, R502, R503) and completion entries (R395). -/

namespace Sys2Proof.Machine

/-! ### Task descriptors (R193) -/

def taskW (d i : Nat) : Nat := laneNat d 64 i
def taskProgLen (d : Nat) : Nat := bitsAt (taskW d 0) 48 16
def taskProgAddr (d : Nat) : Nat := bitsAt (taskW d 0) 0 48
def taskLayer (d : Nat) : Nat := bitsAt (taskW d 1) 48 16
def taskGate (d : Nat) : Bool := (taskW d 1).testBit 15
def taskRole (d : Nat) : Role := if (taskW d 1).testBit 14 then .v else .m
def taskNwait (d : Nat) : Nat := bitsAt (taskW d 1) 8 3
def taskNinc (d : Nat) : Nat := bitsAt (taskW d 1) 0 3
def taskMap (d : Nat) : Nat := bitsAt d (8 * 0x50) 512
def taskArg (d w : Nat) : Nat := bitsAt d (8 * (0x90 + 8 * w)) 64
def taskId (d : Nat) : Nat := bitsAt d (8 * 0xF0) 32

/-- Wait entries in use: tally and target. -/
def taskWaits (d : Nat) : List (Nat × Nat) :=
  (List.range (taskNwait d)).map (fun i => (bitsAt (taskW d (2 + i)) 32 8, bitsAt (taskW d (2 + i)) 0 32))

/-- Increment entries in use: tally and amount. -/
def taskIncs (d : Nat) : List (Nat × Nat) :=
  (List.range (taskNinc d)).map (fun i => (bitsAt (taskW d (6 + i)) 32 8, bitsAt (taskW d (6 + i)) 0 32))

/-- Tiles of the set in cluster `c`, ascending (R193, R195). -/
def taskTiles (c d : Nat) : List Nat :=
  ((List.range 512).filter (fun i => (taskMap d).testBit i)).map (· + 512 * c)

/-- A reserved bit of the descriptor is set; entries beyond NWAIT and NINC are reserved (R193). -/
def taskReserved (d : Nat) : Bool :=
  let w := taskW d 1
  let entry := fun i used => if used then bitsAt (taskW d i) 40 24 ≠ 0 else taskW d i ≠ 0
  bitsAt w 16 32 ≠ 0 || bitsAt w 11 3 ≠ 0 || bitsAt w 3 5 ≠ 0
    || (List.range 4).any (fun i => entry (2 + i) (decide (i < taskNwait d)))
    || (List.range 4).any (fun i => entry (6 + i) (decide (i < taskNinc d)))
    || bitsAt d (8 * 0xF4) 96 ≠ 0

/-- The checks of R194 on a descriptor that was read, in the order of its table. -/
def State.checkTask (s : State) (c vi : Nat) (sid : Option Nat) (d : Nat) : Status :=
  let tallies := (taskWaits d ++ taskIncs d).map (·.1)
  if taskReserved d then .illegalEncoding
  else if 4 < taskNwait d ∨ 4 < taskNinc d then .badValue
  else if taskProgLen d % 8 ≠ 0 ∨ taskProgAddr d % 8 ≠ 0 then .badValue
  else if 16384 < taskProgLen d then .outOfRange
  else if tallies.any (fun n => !(s.tallyAllowed c vi n)) then .accessLevel
  else if (taskTiles c d).any (fun t => !(s.enabled t)) then .targetIsolated
  else if taskGate d then
    match sid with
    | none => .badValue
    | some k => if (s.session k).layers ≤ taskLayer d then .outOfRange else .ok
  else .ok

/-! ### Queues -/

/-- Queue `q` of cluster `c`, oldest task first. -/
def State.queue (s : State) (c q : Nat) : List Task := Sparse.get [] (s.seq c).queues q

/-- A queue replaced. -/
def State.setQueue (s : State) (c q : Nat) (l : List Task) : State :=
  let x := s.seq c
  s.setSeq c { x with queues := Sparse.set [] x.queues q l }

/-- One task of a queue changed. -/
def State.setTask (s : State) (c q : Nat) (t : Task) : State :=
  s.setQueue c q ((s.queue c q).map (fun x => if x.slot = t.slot then t else x))

/-- The task in a slot. -/
def State.task (s : State) (c q slot : Nat) : Option Task := (s.queue c q).find? (fun t => t.slot = slot)

/-- The queue of cluster `c` for the RUNs of a VI's ring (R191). -/
def State.queueFor (s : State) (c vi ring : Nat) : Option Nat :=
  let bound := fun q r => decide (s.obj (0x4010 + 0x100 * c) q 255 = vi) && decide (s.obj (0x4011 + 0x100 * c) q 4 = r)
  ((List.range 16).find? (fun q => bound q ring)).or ((List.range 16).find? (fun q => bound q 4))

/-- The minimum epoch of a RUN, where it has one (R390, R393). -/
def minEpoch (e : Nat) : Option (BitVec 32) :=
  if (entryW e 0).testBit 9 then some (BitVec.ofNat 32 (entryW e 2)) else none

/-- Condition 1 of R201. -/
def State.epochReached (s : State) (c e : Nat) : Bool :=
  match minEpoch e with
  | some m => reaches (s.seq c).epoch m
  | none => true

/-- The watchdog of cluster `c` restarts (R508). -/
def State.restartWatchdog (s : State) (c : Nat) : State := s.setSeq c { s.seq c with watchdogFrom := s.calends }

/-! ### The end of a RUN (R206, R344) -/

/-- The status with which a RUN ends (R33, R206, R395). -/
def runStatus (x : Cmd) : Status :=
  match x.failure with
  | some (_, _, _, st) => st
  | none =>
    match x.cancelled with
    | some st => st
    | none =>
      if x.poisoned then .eccUncorrected else x.page.getD .ok

/-- A RUN has completed (R24, R336, R344): its session holds `n` tokens more, and its idle timer restarts. -/
def State.runOver (s : State) (e n : Nat) : State :=
  match runSession e with
  | none => s
  | some sid =>
    let y := s.session sid
    if y.state = .closed then s
    else s.putSession sid { y with tokens := y.tokens + n, lastRun := s.calends, idleSince := s.calends }

/-- Every task of a RUN has ended: the RUN ends, adds its append count to TOKENS if it ends OK, and restarts the session's
idle timer (R24, R206, R344). -/
def State.finishRun (s : State) (k : CmdKey) : State :=
  match s.cmd k with
  | none => s
  | some x =>
    let ended := x.failure.isSome || x.cancelled.isSome || (x.begun && x.blockReady && x.reserved)
    if x.phase = .running ∧ entryOp x.entry = 1 ∧ x.items = [] ∧ x.live = 0 ∧ ended then
      let st := runStatus x
      (s.endCmd k st (x.tasksDone * 2 ^ 32 + x.tasksNot)).runOver x.entry
        (if st = .ok then bitsAt (entryW x.entry 5) 0 32 else 0)
    else s

/-! ### How tasks end -/

/-- How a task ends (R199). -/
inductive TaskEnd where
  | done | failed (st : Status) | cancelled | aborted
deriving DecidableEq, Repr

/-- The status of an end in TASK_RETIRE and TASK_END (R199, R495). -/
def TaskEnd.status (e : TaskEnd) : Status :=
  match e with
  | .done => .ok | .failed st => st | .cancelled => .cancelled | .aborted => .aborted

/-- A task leaves its queue: TASK_RETIRE, the light set, the counts of its RUN, and the old page locations that waited for it
(R192, R210, R338, R491, R495). -/
def State.taskOut (s : State) (c q : Nat) (t : Task) (e : TaskEnd) : State :=
  let s := s.setQueue c q ((s.queue c q).filter (fun x => x.slot ≠ t.slot))
  let s := s.svcEvent (seqNode c) 0x11 ((Status.code e.status) * 65536 + taskId t.desc % 65536)
  let s := s.lightBump c (match e with
    | .done => 1 | .failed _ => 2 | _ => 3) 1
  let s := s.updCmd t.cmd (fun x =>
    { x with live := x.live - 1, tasksDone := x.tasksDone + (if e = .done then 1 else 0),
             tasksNot := x.tasksNot + (if e = .done then 0 else 1) })
  let s := s.taskLeft c t.cmd t.pos
  if t.phase = .dispatched then s.restartWatchdog c else s

/-- A tile that is aborted is withdrawn from its contexts (R205, R241): messages it has not yet contributed are lost, and an
open operation that expects it receives ERR ABORTED in its place. -/
def State.withdraw (s : State) (t : Nat) : State :=
  match s.partOfTile t with
  | none => s
  | some p =>
    (List.range 4).foldl (fun s ch =>
      let x := s.ctx p ch
      let x := { x with heldNext := Sparse.set none x.heldNext t none }
      if x.active ∧ x.result.isNone ∧ x.expected.contains t ∧ (Sparse.get none x.arrived t).isNone then
        s.setCtx p ch { x with arrived := Sparse.set none x.arrived t (some (laceErr .aborted)) }
      else s.setCtx p ch x) s

/-- A tile stops as in an abort (R205): nothing further issues, a running MMA or drain ends where it stands, both
accumulators are cleared, outstanding Lacing operations are left, waiting TINCs are dropped. Requests already issued keep
the tile unavailable until they end. A tile that has faulted and still waits for its issued work when another tile of its set
stops it loses its fault: it writes no INSN_FAULT entry and is not counted in light word 6 (DESIGN CHOICE, log entry 87). -/
def State.stopTile (s : State) (t : TileId) (st : Status) (id : Nat) : State :=
  let x := s.tile t
  let x :=
    { x with
      task := none, ended := false, stopped := false, fault := none, asyncFaults := [], loops := [], watch := none
      tincs := [], laces := [], mmaRun := none, mmaQueue := none, drainRun := none, drainQueue := none, bcast := none
      withdrawn := true, accPoison := []
      xfers := (x.xfers.filter (fun r : Transfer => decide (0 < r.out))).map (fun r : Transfer => { r with todo := [] }) }
  let x := x.event s.calends 0x02 ((Status.code st) * 65536 + id / 2 ^ 24)
  let s := (s.setTile t x).zero (tileAddr t.val 0x18000) 0x2000
  let c := clusterOfTile t.val
  let s := s.setSeq c { s.seq c with watches := (s.seq c).watches.filter (fun w => w.tile ≠ t.val) }
  s.withdraw t.val

/-- Tiles stop as in an abort. -/
def State.stopTiles (s : State) (ts : List Nat) (st : Status) (id : Nat) : State :=
  ts.foldl (fun s t => if h : t < 4096 then s.stopTile ⟨t, h⟩ st id else s) s

/-- One task is cancelled, or aborted where it is DISPATCHED (R205). -/
def State.cancelTask (s : State) (c q : Nat) (t : Task) : State :=
  if t.phase = .dispatched then
    (s.stopTiles (taskTiles c t.desc) .aborted (taskId t.desc)).taskOut c q t .aborted
  else s.taskOut c q t .cancelled

/-- Every task of a RUN in every cluster is cancelled or aborted, and the items not fetched count as not done (R205,
R206). -/
def State.cancelRun (s : State) (k : CmdKey) : State :=
  let s := s.updCmd k (fun x => { x with tasksNot := x.tasksNot + x.items.length, items := [] })
  let s := (List.range 8).foldl (fun s c =>
    (List.range 16).foldl (fun s q =>
      ((s.queue c q).filter (fun t => t.cmd = k)).foldl (fun s t => s.cancelTask c q t) s) s) s
  s.finishRun k

/-- A failure of a RUN is kept where it is the earliest: by Calends, cluster and list position (R206). `at_` is the cluster
plus one, 0 for a failure with no cluster. -/
def Cmd.fail (x : Cmd) (cal at_ pos : Nat) (st : Status) : Cmd :=
  match x.failure with
  | some (c, a, p, _) =>
    if cal < c ∨ (cal = c ∧ (at_ < a ∨ (at_ = a ∧ pos < p))) then { x with failure := some (cal, at_, pos, st) } else x
  | none => { x with failure := some (cal, at_, pos, st) }

/-- A RUN fails (R206): its other tasks are cancelled or aborted. -/
def State.failRun (s : State) (k : CmdKey) (at_ pos : Nat) (st : Status) : State :=
  (s.updCmd k (fun x => x.fail s.calends at_ pos st)).cancelRun k

/-- A task fails with a status: other tiles of its set stop, and its RUN fails (R205, R206). `skip` is a tile that has
stopped by itself. -/
def State.failTask (s : State) (c q : Nat) (t : Task) (st : Status) (skip : List Nat) : State :=
  let s := if t.phase = .dispatched then
      s.stopTiles ((taskTiles c t.desc).filter (fun x => !(skip.contains x))) st (taskId t.desc) else s
  (s.taskOut c q t (.failed st)).failRun t.cmd (c + 1) t.pos st

/-! ### Fetch (R192, R194) -/

/-- A task whose waits are over becomes READY (R199); with EPOCH_WAIT 0 it fails at once where condition 1 of R201 does not
hold (R202). -/
def State.makeReady (s : State) (c q : Nat) (t : Task) : State :=
  let w := s.objIn c (0x4013 + 0x100 * c) 2 100000
  let t := { t with phase := .ready, readyAt := s.calends, epochWait := w }
  let s := s.setTask c q t
  let e := ((s.cmd t.cmd).map (·.entry)).getD 0
  if w = 0 ∧ !(s.epochReached c e) then s.failTask c q t .epochWaitTimeout [] else s

/-- All wait entries reach their targets (R196, R199). -/
def State.waitsMet (s : State) (c d : Nat) : Bool :=
  (taskWaits d).all (fun w => reaches (Sparse.get 0 (s.seq c).tallies w.1) (BitVec.ofNat 32 w.2))

/-- The RUN whose next item belongs into queue `q` of cluster `c`, oldest first, with that item (R191, R192): the queue is
the one taken when the RUN was accepted, and the run block must be acknowledged (R393). -/
def State.nextItem (s : State) (c q : Nat) : Option (Cmd × Nat × Nat) :=
  s.host.cmds.findSome? (fun x =>
    if x.phase = .running ∧ !x.refused ∧ x.begun ∧ x.blockReady ∧ x.queues.contains (c, q) then
      (x.items.find? (fun i => i.1 = c)).map (fun i => (x, i.2.1, i.2.2))
    else none)

/-- TASK_FETCH (R192, R194, R199). -/
def execTaskFetch (c : ClusterId) (q : Fin 16) (host : HostData) (s : State) : Host.Outcome State Fault Refusal :=
  let l := s.queue c.val q.val
  match s.nextItem c.val q.val, (List.range 64).find? (fun i => !(l.any (fun t => t.slot = i))) with
  | some (x, a, pos), some slot =>
    let r := s.deviceRead (seqNode c.val) 0 x.key.vi x.part a 256 host
    let s := r.s.updCmd x.key (fun y => { y with items := y.items.erase (c.val, a, pos), live := y.live + 1 })
    let st := if r.st ≠ .ok then r.st
      else if r.poison ≠ 0 then .eccUncorrected
      else s.checkTask c.val x.key.vi (runSession x.entry) r.val
    let t : Task := { slot := slot, desc := r.val, cmd := x.key, pos := pos, phase := .pending }
    let s := s.setQueue c.val q.val (l ++ [t])
    if st ≠ .ok then .next (s.failTask c.val q.val t st [])
    else if taskNwait r.val = 0 then .next (s.makeReady c.val q.val t)
    else .next s
  | _, _ => .next s

/-- TASK_READY (R199). -/
def execTaskReady (c : ClusterId) (q : Fin 16) (slot : Fin 64) (s : State) : Host.Outcome State Fault Refusal :=
  match s.task c.val q.val slot.val with
  | some t =>
    if t.phase = .pending ∧ s.waitsMet c.val t.desc then .next (s.makeReady c.val q.val t) else .next s
  | none => .next s

/-- EPOCH_WAIT_TIMEOUT (R202). -/
def execEpochWaitTimeout (c : ClusterId) (q : Fin 16) (slot : Fin 64) (s : State) : Host.Outcome State Fault Refusal :=
  match s.task c.val q.val slot.val with
  | some t =>
    let e := ((s.cmd t.cmd).map (·.entry)).getD 0
    if t.phase = .ready ∧ !(s.epochReached c.val e) then .next (s.failTask c.val q.val t .epochWaitTimeout [])
    else .next s
  | none => .next s

/-! ### Dispatch (R201, R203) -/

/-- A tile is in a task, or still drains an abort (R201, R205). -/
def State.tileHeld (s : State) (t : Nat) : Bool :=
  (Sparse.get ({} : Tile) s.tiles t).task.isSome || !(s.initiator t).out.isEmpty

/-- Condition 2 of R201. A RUN whose reservation has not succeeded dispatches nothing (R344): its tasks wait here too
(DEDUCED, log entry 84). -/
def State.gateOpen (s : State) (t : Task) : Bool :=
  match s.cmd t.cmd with
  | some x =>
    x.reserved && (!(taskGate t.desc) || (match runSession x.entry with
      | some sid => s.layerReady sid (taskLayer t.desc) (bitsAt (entryW x.entry 5) 0 32)
      | none => false))
  | none => !(taskGate t.desc)

/-- Condition 7 of R201: no older task of the queue that overlaps is PENDING or READY. -/
def noOlderOverlap (l : List Task) (t : Task) : Bool :=
  (l.takeWhile (fun x => x.slot ≠ t.slot)).all
    (fun x => x.phase = .dispatched || (taskMap x.desc &&& taskMap t.desc) = 0)

/-- Conditions 1 to 7 of R201 for a task of queue `q`. -/
def State.canDispatch (s : State) (c q : Nat) (t : Task) : Bool :=
  let e := ((s.cmd t.cmd).map (·.entry)).getD 0
  t.phase = .ready && s.epochReached c e && s.gateOpen t
    && !((taskTiles c t.desc).any s.tileHeld) && !(s.offSlot c) && !(s.seq c).force
    && (match s.partOfCluster c with
        | some p => (s.partition p).state ≠ .hung
        | none => false)
    && noOlderOverlap (s.queue c q) t

/-- The class of a queue, 0 highest (R203, R211). -/
def State.queuePrio (s : State) (c q : Nat) : Nat := s.objIn c (0x4012 + 0x100 * c) q 2

/-- The task that is dispatched next: class, round robin, age (R203). -/
def State.nextDispatch (s : State) (c : Nat) : Option (Nat × Task) :=
  (List.range 4).findSome? (fun prio =>
    let last := (Sparse.get none (s.seq c).lastQueue prio).getD 15
    ((List.range 16).map (fun i => (last + 1 + i) % 16)).findSome? (fun q =>
      if s.queuePrio c q = prio then ((s.queue c q).find? (s.canDispatch c q)).map (fun t => (q, t)) else none))

/-- A task starts on a tile (R152, R203): role, registers, and the broadcast that its program needs. -/
def startTile (cal : Nat) (k : TileTask) (d index n t : Nat) (image : Option Broadcast) (x : Tile) : Tile :=
  let g : Sparse GReg := (List.range 12).foldl
    (fun g w => Sparse.set {} g w ⟨BitVec.ofNat 64 (taskArg d w), false⟩) []
  let g := Sparse.set {} (Sparse.set {} (Sparse.set {} g 12 ⟨BitVec.ofNat 64 index, false⟩) 13 ⟨BitVec.ofNat 64 n, false⟩)
    14 ⟨BitVec.ofNat 64 t, false⟩
  let progLen := if taskProgLen d = 0 then 0 else x.progLen
  let x :=
    { x with
      g := g, vq := [], m := [], pc := 0, loops := [], held := none, progLen := progLen, role := taskRole d
      mmaRun := none, mmaQueue := none, drainRun := none, drainQueue := none, xfers := [], laces := [], tincs := []
      watch := none, asyncFaults := [], fault := none, task := some k, ended := decide (taskProgLen d = 0)
      stopped := false, eccSeen := false, withdrawn := false, bcast := image, priv := {} }
  x.event cal 0x01 (taskId d)

/-- A task of tile set `ts` starts on every tile. -/
def State.startTiles (s : State) (k : TileTask) (d : Nat) (ts need : List Nat) (image : Broadcast) : State :=
  ts.zipIdx.foldl (fun s e =>
    if h : e.1 < 4096 then
      let t : TileId := ⟨e.1, h⟩
      s.setTile t (startTile s.calends k d e.2 ts.length e.1 (if need.contains e.1 then some image else none) (s.tile t))
    else s) s

/-- The sequencer's record of which program tiles hold (R187, R203). -/
def State.holdProgram (s : State) (c : Nat) (ts : List Nat) (p : Option (Nat × Nat)) : State :=
  let x := s.seq c
  s.setSeq c { x with programs := ts.foldl (fun m t => Sparse.set none m t p) x.programs }

/-- A task of command `k` becomes DISPATCHED in cluster `c`: the marks of its record and of the records of other commands
that are between their latches (R210). -/
def State.noteDispatch (s : State) (c : Nat) (t : Task) : State :=
  { s with host := { s.host with cmds := s.host.cmds.map (fun x =>
      if x.key = t.cmd then
        { x with clusters := x.clusters ||| (1#8 <<< c)
                 firstDispatch := if x.firstDispatch = 0 then s.calends else x.firstDispatch
                 dispatchWait := x.dispatchWait + (s.calends - t.readyAt) }
      else if x.start.isSome ∧ x.phase ≠ .recorded then { x with shared := x.shared ||| (1#8 <<< c) }
      else x) } }

/-- A task ends DONE (R200, R502): its increments are applied, its tiles' blocks are combined into their own and into the
command's, and its tiles are free. A task with KV_GATE has read the pages of its layer: a failed move of one of them, not yet
told, is told by its RUN (R33; DEDUCED, log entry 85). -/
def State.taskDone (s : State) (c q : Nat) (t : Task) : State :=
  let s := (taskIncs t.desc).foldl (fun s i => s.addTally c i.1 (BitVec.ofNat 32 i.2)) s
  let s := (taskTiles c t.desc).foldl (fun s u =>
    if h : u < 4096 then
      let tid : TileId := ⟨u, h⟩
      let x := s.tile tid
      let s := s.updCmd t.cmd (fun y => { y with block := y.block.combine x.priv, poisoned := y.poisoned || x.eccSeen })
      let x := { x with task := none, ended := false, block := x.block.combine x.priv, priv := {} }
      s.setTile tid (x.event s.calends 0x02 (taskId t.desc / 2 ^ 24))
    else s) s
  let sid := if taskGate t.desc then ((s.cmd t.cmd).map (·.entry)).bind runSession else none
  let s := match sid with
    | some sid =>
      let (st, s) := s.tellFailure sid (taskLayer t.desc)
      s.updCmd t.cmd (fun y => { y with page := y.page.or st })
    | none => s
  (s.taskOut c q t .done).finishRun t.cmd

/-- A dispatch of task `t` of queue `q` (R187, R188, R203): its image is read where a tile needs it. After an image read that
ends with an error status the tiles keep the program they held, and none starts (DESIGN CHOICE, log entry 86). -/
def State.dispatch (s : State) (c q : Nat) (t : Task) (host : HostData) : State :=
  let d := t.desc
  let vi := t.cmd.vi
  let part := (s.partOfCluster c).getD 0
  let prio := s.queuePrio c q
  let ts := taskTiles c d
  let x := s.seq c
  let s := s.setSeq c { x with lastQueue := Sparse.set none x.lastQueue prio (some q), lastDispatch := some s.calends
                               watchdogFrom := s.calends }
  let t := { t with phase := .dispatched }
  let s := (s.setTask c q t).noteDispatch c t
  let s := s.svcEvent (seqNode c) 0x10 (q * 2 ^ 20 + taskId d % 65536)
  let p := (taskProgAddr d, taskProgLen d)
  if ts = [] then s.taskDone c q t
  else
    let need := if taskProgLen d = 0 then []
      else ts.filter (fun u => Sparse.get none (s.seq c).programs u ≠ some p)
    let r : DeviceRead := if need = [] then ⟨.ok, 0, 0, s⟩
      else s.deviceRead (seqNode c) 0 vi part p.1 p.2 host
    if r.st ≠ .ok then r.s.failTask c q { t with desc := d - taskMap d * 2 ^ (8 * 0x50) } r.st []
    else
      let s := r.s
      let image : Broadcast := { image := cellsOf 0 p.2 r.val, len := p.2 }
      let k : TileTask := ⟨q, t.slot, BitVec.ofNat 32 (taskId d), vi, part, 3 - prio⟩
      let s := s.startTiles k d ts need image
      let s := if taskProgLen d = 0 then s.holdProgram c ts (some p) else s.holdProgram c need none
      if r.poison ≠ 0 then
        let s := need.foldl (fun s u => if h : u < 4096 then
            s.setTile ⟨u, h⟩ { s.tile ⟨u, h⟩ with progLen := 0 } else s) s
        s.failTask c q t .eccUncorrected []
      else s

/-- PROGRAM_BEAT (R187, R188): the next 32-byte beat of a broadcast; `bad` tells of an uncorrectable error in it. -/
def execProgramBeat (t : TileId) (bad : Bool) (s : State) : Host.Outcome State Fault Refusal :=
  let x := s.tile t
  match x.bcast, x.task with
  | some b, some k =>
    let c := clusterOfTile t.val
    if bad then
      let s := s.setTile t { x with bcast := none, progLen := 0 }
      match s.task c k.queue k.slot with
      | some tk => .next (s.failTask c k.queue tk .eccUncorrected [])
      | none => .next s
    else
      let o := 32 * b.beat
      let n := min 32 (b.len - o)
      let s := s.store (tileAddr t.val o) n (memNat b.image o n) 0
      let x := s.tile t
      if b.len ≤ o + n then
        let s := s.setTile t { x with bcast := none, progLen := b.len }
        match s.task c k.queue k.slot with
        | some tk => .next (s.holdProgram c [t.val] (some (taskProgAddr tk.desc, b.len)))
        | none => .next s
      else .next (s.setTile t { x with bcast := some { b with beat := b.beat + 1 } })
  | _, _ => .next s

/-- Every asynchronous operation the tile has issued has completed (R135, R189). -/
def State.tileQuiet (s : State) (t : TileId) : Bool :=
  let x := s.tile t
  x.mmaRun.isNone && x.mmaQueue.isNone && x.drainRun.isNone && x.drainQueue.isNone && x.xfers.isEmpty && x.laces.isEmpty
    && (s.initiator t.val).out.isEmpty

/-- The word at PC of tile `t` has a reserved opcode, and the tile would issue it (R149, R156, R207). -/
def State.reservedWord (s : State) (t : TileId) : Bool :=
  let x := s.tile t
  let a := tileAddr t.val (8 * x.pc)
  x.canIssue && !s.hungCluster (clusterOfTile t.val) && !s.offSlot (clusterOfTile t.val) && !(s.condAt a).bad
    && (tileDecode t (BitVec.ofNat 64 (memNat s.mem.cells a 8))).isNone

/-- INSN_FAULT (R156, R189): a reserved opcode at PC faults; the faulted tile reports to its sequencer once its issued work
has completed, and its task ends FAILED. -/
def execInsnFault (t : TileId) (s : State) : Host.Outcome State Fault Refusal :=
  let s := if s.reservedWord t then s.faultAt t .illegalEncoding else s
  let x := s.tile t
  match x.fault, x.task with
  | some (i, st), some k =>
    if !(s.tileQuiet t) then .next s
    else
      let c := clusterOfTile t.val
      let x := x.event s.calends 0x03 ((Status.code st) * 65536 + i % 2048)
      let x := x.event s.calends 0x02 ((Status.code st) * 65536 + k.taskId.toNat / 2 ^ 24)
      let s := s.setTile t { x with task := none, fault := none, asyncFaults := [], tincs := [], watch := none, ended := false }
      let s := s.lightBump c 6 1
      match s.task c k.queue k.slot with
      | some tk => .next (s.failTask c k.queue tk st [t.val])
      | none => .next s
  | _, _ => .next s

/-- TASK_DONE (R135, R199, R200). -/
def execTaskDone (c : ClusterId) (q : Fin 16) (slot : Fin 64) (s : State) : Host.Outcome State Fault Refusal :=
  match s.task c.val q.val slot.val with
  | some t =>
    let ended := (taskTiles c.val t.desc).all (fun u =>
      if h : u < 4096 then
        let x := s.tile ⟨u, h⟩
        x.ended && x.bcast.isNone && x.fault.isNone && x.asyncFaults.isEmpty && !x.stopped && s.tileQuiet ⟨u, h⟩
      else true)
    if t.phase = .dispatched ∧ ended then .next (s.taskDone c.val q.val t) else .next s
  | none => .next s

/-! ### Duty (R207) -/

/-- The duty of cluster `c`: the lesser of DUTY_CAP and the thermal duty. -/
def State.dutyOf (s : State) (c : Nat) : Nat := min (s.obj (0x4013 + 0x100 * c) 0 8) s.power.thermalDuty

/-- DUTY_SLOT (R207, R495). -/
def execDutySlot (s : State) : Host.Outcome State Fault Refusal :=
  .next ((List.range 8).foldl (fun s c =>
    let n := s.dutyOf c
    if n = (s.seq c).duty then s
    else (s.setSeq c { s.seq c with duty := n }).svcEvent (seqNode c) 0x14 n) s)

/-! ### Latches and records (R209, R210, R492, R502, R503) -/

/-- The counters as they stand (R492). -/
def State.latch (s : State) : Latch :=
  { cal := s.calends
    idleAt := (List.range 8).map (fun c =>
      if s.domain c = .on then s.calends else
        let k := Sparse.get 0 s.power.since c
        if k = 0 then s.countersFrom else k)
    epochs := (List.range 8).map (fun c => (s.seq c).epoch.toNat)
    counters := s.tiles.map (fun e => (e.1, e.2.counters))
    net := (s.net.initiators.filter (fun e => decide (e.1 < 4096))).map
      (fun e => (e.1, Sparse.get 0 e.2.stats 28, Sparse.get 0 e.2.stats 29))
    light := (List.range 8).map (fun c => Sparse.get 0 s.light (8 * c + 4)) }

/-- Cycles a tile of cluster `c` was idle, as a latch shows it: those that its domain spends off are added when it comes on (R486,
R488). -/
def Latch.idle (l : Latch) (c : Nat) (cs : Sparse Nat) (since : Nat) : Nat :=
  ((l.idleAt.getD c l.cal + 2 ^ 64 - since) % 2 ^ 64 + 2 ^ 49 - Sparse.get 0 cs wBusy - Sparse.get 0 cs wStalled) % 2 ^ 48

/-- (end - start) mod 2^48. -/
def diff48 (a b : Nat) : Nat := (b + 2 ^ 48 - a % 2 ^ 48) % 2 ^ 48

/-- One counter field of a record: (end - start) mod 2^48 of a tile counter, summed over the enabled tiles of clusters. -/
def State.sumTiles (s : State) (cl : List Nat) (f : Nat → Nat × Nat) : Nat :=
  (cl.flatMap (fun c => (List.range 512).map (· + 512 * c))).foldl (fun acc t =>
    if s.enabled t then acc + diff48 (f t).1 (f t).2 else acc) 0

/-- Words 10 to 25 and 27 of a record, from its two latches (R210, R492). -/
def State.recordCounters (s : State) (a b : Latch) (cl : List Nat) : List Nat :=
  let word := fun w t => (Sparse.get 0 (Sparse.get [] a.counters t) w, Sparse.get 0 (Sparse.get [] b.counters t) w)
  let net := fun (g : Nat × Nat × Nat → Nat) t =>
    let at_ := fun (l : Latch) => ((l.net.find? (fun e => e.1 = t)).map g).getD 0
    (at_ a, at_ b)
  [s.sumTiles cl (word wBusy), s.sumTiles cl (word wStalled),
    s.sumTiles cl (fun t => (a.idle (clusterOfTile t) (Sparse.get [] a.counters t) s.countersFrom,
      b.idle (clusterOfTile t) (Sparse.get [] b.counters t) s.countersFrom)),
    s.sumTiles cl (word wDutyHold)]
    ++ (List.range 8).map (fun i => s.sumTiles cl (word (wReason0 + i)))
    ++ [s.sumTiles cl (net (fun e => e.2.1)), s.sumTiles cl (net (fun e => e.2.2)), s.sumTiles cl (word wLaceOps),
        s.sumTiles cl (word wMmaSteps)]

/-- The session a command names (R210). -/
def entrySession (e : Nat) : Option Nat :=
  match entryOp e with
  | 1 => runSession e
  | 4 | 5 | 6 => some (bitsAt (entryW e 4) 0 16)
  | _ => none

/-- The 32 words of a record (R210). EPOCH_START of a record whose CLUSTER_MAP is 0 is 0 (DESIGN CHOICE, log entry 88). -/
def State.record (s : State) (x : Cmd) (a b : Latch) (statsAt : Nat) : List Nat :=
  let cl := (List.range 8).filter (fun c => x.clusters.getLsbD c)
  let wrap := decide (2 ^ 48 ≤ b.cal - a.cal)
  let shared := decide (x.shared &&& x.clusters ≠ 0)
  let w4 := entryOp x.entry * 2 ^ 24 + (Status.code x.status) * 2 ^ 32 + x.clusters.toNat * 2 ^ 40 + wrap.toNat * 2 ^ 48
    + shared.toNat * 2 ^ 49 + x.key.ring * 2 ^ 50 + x.key.vi * 2 ^ 52
  let epoch := match cl with
    | c :: _ => a.epochs.getD c 0
    | [] => 0
  let sess := match entrySession x.entry with
    | some sid => 2 ^ 16 + sid
    | none => 0
  let light := cl.foldl (fun acc c => acc + diff48 (a.light.getD c 0) (b.light.getD c 0)) 0
  [x.tA, a.cal, x.firstDispatch, b.cal, w4, x.key.seq % 2 ^ 32, epoch + bitsAt (entryW x.entry 2) 0 32 * 2 ^ 32,
    x.tasksNot + x.tasksDone * 2 ^ 32, if entryOp x.entry = 1 then entryW x.entry 3 else 0, sess]
    ++ s.recordCounters a b cl
    ++ [x.dispatchWait, light, x.block.digest % 2 ^ 64, x.block.bytes, statsAt, 0]

/-- LATCH_START (R209). -/
def execLatchStart (v : ViId) (r : RingId) (seq : Nat) (s : State) : Host.Outcome State Fault Refusal :=
  let k : CmdKey := ⟨v.val, r.val, seq⟩
  match s.cmd k with
  | some x =>
    if x.start.isSome ∨ x.refused ∨ (s.vi v.val).resetting.isSome then .next s
    else
      let busy := (List.range 8).filter (fun c =>
        (s.seq c).queues.any (fun q => q.2.any (fun t => t.phase = .dispatched && t.cmd ≠ k)))
      .next (s.updCmd k (fun x =>
        { x with start := some s.latch, shared := busy.foldl (fun m c => m ||| (1#8 <<< c)) x.shared }))
  | none => .next s

/-- LATCH_END (R209, R210, R503): the record is written, and the command block behind it; one that cannot be written is
counted. -/
def execLatchEnd (v : ViId) (r : RingId) (seq : Nat) (s : State) : Host.Outcome State Fault Refusal :=
  let k : CmdKey := ⟨v.val, r.val, seq⟩
  match s.cmd k with
  | some x =>
    match x.start with
    | some a =>
      if x.phase ≠ .ended ∨ (s.vi v.val).resetting.isSome then .next s
      else
        let addr := bitsAt (entryW x.entry 1) 0 48
        let s := s.updCmd k (fun x => { x with phase := .recorded })
        if addr = 0 then .next s
        else
          let stats := 0 < x.block.elements
          let ws := s.record x a s.latch (if stats then addr + 0x100 else 0)
          let (st, s) := s.deviceWrite pcieNode 0 v.val x.part addr 256 (ofLanes 64 ws)
          let s := if st ≠ .ok then s.hostStat 4 else s
          if !stats then .next s
          else
            let (st, s) := s.deviceWrite pcieNode 0 v.val x.part (addr + 0x100) 128 (ofLanes 64 x.block.words)
            .next (if st ≠ .ok then s.hostStat 4 else s)
    | none => .next s
  | none => .next s

/-- COMPLETION_WRITE (R395, R396): the entry, CQ_TAIL, the vector; a full completion ring holds it. Completions of one VI
are written in the order in which their commands ended. -/
def execCompletionWrite (v : ViId) (r : RingId) (seq : Nat) (s : State) : Host.Outcome State Fault Refusal :=
  let k : CmdKey := ⟨v.val, r.val, seq⟩
  match s.cmd k with
  | some x =>
    let y := s.vi v.val
    let earlier := s.host.cmds.any (fun c => c.key.vi = v.val && c.phase = .recorded && decide (c.tEnd < x.tEnd))
    let full := decide ((y.cqTail + 2 ^ 32 - y.cqHead) % 2 ^ 32 = y.cqSize)
    if x.phase ≠ .recorded ∨ earlier ∨ full ∨ !y.cqEnable ∨ y.resetting.isSome then .next s
    else
      let w0 := bitsAt (entryW x.entry 0) 32 32 + (if y.cqTail / y.cqSize % 2 = 0 then 2 ^ 37 else 0) + r.val * 2 ^ 38
        + (Status.code x.status) * 2 ^ 40 + entryOp x.entry * 2 ^ 48
      let a := y.cqBase + 32 * (y.cqTail % y.cqSize)
      let (_, s) := s.deviceWrite pcieNode 0 v.val x.part a 32 (ofLanes 64 [w0, seq % 2 ^ 32, x.result, s.calends])
      let s := s.setVi v.val { s.vi v.val with cqTail := (y.cqTail + 1) % 2 ^ 32 }
      let s := { s with host := { s.host with cmds := s.host.cmds.filter (fun c => c.key ≠ k) } }
      if (entryW x.entry 0).testBit 8 ∧ bitsAt (entryW x.entry 0) 16 5 ≤ 30 then
        .next (s.raiseVector v.val (bitsAt (entryW x.entry 0) 16 5))
      else .next s
  | none => .next s

end Sys2Proof.Machine
end

