-- ==== Sys2Proof/Machine/LaceEnd.lean ====
section
/-! DEFINITION. How a Lacing operation ends without a result: its timeout, and the end message of a domain (R237 to R240). -/

namespace Sys2Proof.Machine

/-- An end message, ERR with LACE_TIMEOUT, goes to the parent and the children of the device, but for the port it came from
(R238, R240, R243; log entry 93). -/
def State.laceEndOut (s : State) (p ch : Nat) (from_ : Option Nat) : State :=
  if s.domainScope p ch then
    let parent := s.obj 0x3200 1 255
    let ports := ((if parent = 255 then [] else [(parent, false)]) ++ s.childPorts.map (fun n => (n, true))).filter
      (fun e : Nat × Bool => some e.1 ≠ from_)
    let out := ports.map (fun e : Nat × Bool => (e.1, 4 * p + ch, e.2, laceErr .laceTimeout))
    { s with lacing := { s.lacing with toPorts := s.lacing.toPorts ++ out } }
  else s

/-- An operation ends for its whole context with LACE_TIMEOUT: members fault, the count grows, and Vigil is triggered where
LACE_TIMEOUT_VIGIL asks for it (R222, R240, R507). -/
def State.laceTimesOut (s : State) (p ch : Nat) : State :=
  let s := (s.laceAbandon p ch .laceTimeout).laceCount p 0
  if s.obj (0x5020 + 0x100 * p) 1 0 = 1 then s.trigger 2 p (p + 256 * ch) else s

/-- An end message has come by port `n`: it goes on to the rest of the domain, and an operation that is open here ends (R240). -/
def State.laceEnded (s : State) (p ch n : Nat) : State :=
  let s := s.laceEndOut p ch (some n)
  if (s.ctx p ch).active then s.laceTimesOut p ch else s

/-- LACE_TIMEOUT (R240); the timers of a HUNG partition stand still (R510). -/
def execLaceTimeout (p : PartId) (ch : Chan) (s : State) : Host.Outcome State Fault Refusal :=
  let x := s.ctx p.val ch.val
  if (s.partition p.val).state ≠ .hung ∧ x.active ∧ x.timed ∧ !(s.laceAllDelivered p.val ch.val && x.result.isSome) then
    .next ((s.laceEndOut p.val ch.val none).laceTimesOut p.val ch.val)
  else .next s

/-- DOMAIN_END_MESSAGE (R240): the operation ends here as well, and the message goes on to the rest of the domain. -/
def execDomainEndMessage (p : PartId) (ch : Chan) (n : NewenId) (s : State) : Host.Outcome State Fault Refusal :=
  if s.domainScope p.val ch.val then .next (s.laceEnded p.val ch.val n.val) else .next s

end Sys2Proof.Machine
end

