-- ==== Sys2Proof/Machine/Trace.lean ====
section
/-! DEFINITION. The Almanac collector's intake: trace records (R524), the three buffers and what they drop (R525, R526). -/

namespace Sys2Proof.Machine

/-- The collector takes records: D19 is on and no loopback test of the port runs (R525). -/
def State.collecting (s : State) : Bool := s.domain 19 = .on && !s.almanac.test

/-- A record is dropped (R525); one that finds its buffer full is counted by its source: 2 tile, 3 service node, 4 mark
(R526). -/
def State.dropRecord (s : State) (r : TraceRecord) (full : Bool) : State :=
  let w := if r.kind = 2 then 4 else if r.kind = 1 ∧ r.node < 4096 then 2 else 3
  { s with almanac := { s.almanac with
      counts := if full then Sparse.bump48 s.almanac.counts w 1 else s.almanac.counts, dropped := s.almanac.dropped + 1 } }

/-- A record reaches the collector: it enters its buffer, of 256 EVENT, 64 MARK or 4 VIGIL records, or is dropped (R525). -/
def State.collect (s : State) (r : TraceRecord) : State :=
  let a := s.almanac
  if !s.collecting then s.dropRecord r false
  else
    match r.kind with
    | 1 => if a.events.length < 256 then { s with almanac := { a with events := a.events ++ [r] } } else s.dropRecord r true
    | 2 => if a.marks.length < 64 then { s with almanac := { a with marks := a.marks ++ [r] } } else s.dropRecord r true
    | _ => if a.vigils.length < 4 then { s with almanac := { a with vigils := a.vigils ++ [r] } } else s.dropRecord r true

/-- A mark or VIGIL record is on its way to the collector. -/
def State.sendRecord (s : State) (r : TraceRecord) : State :=
  { s with almanac := { s.almanac with coming := s.almanac.coming ++ [r] } }

/-- A MARK record (R524): a mark sent or received on port `n`. -/
def State.markRecord (s : State) (n peer id cal : Nat) (received : Bool) (txCal : Nat) : State :=
  let own := s.obj 0x3200 0 0
  let w2 := (peer % 64) * 2 ^ 48 + own * 2 ^ 40 + (if received then 2 ^ 35 else 0) + n * 2 ^ 32 + id % 2 ^ 32
  s.sendRecord ⟨2, s.calends, newenNode n, [cal, w2, if received then txCal else 0]⟩

/-- TRACE_RECORD_COLLECT (R525): the next event-ring entry of a node, or with `mark` the next MARK or VIGIL record of it,
reaches the collector. -/
def execTraceRecordCollect (n : NodeId) (mark : Bool) (s : State) : Host.Outcome State Fault Refusal :=
  if mark then
    match s.almanac.coming.find? (fun r => r.node = n.toNat) with
    | none => .next s
    | some r => .next (({ s with almanac := { s.almanac with coming := s.almanac.coming.erase r } }).collect r)
  else
    let take := fun (r : EventRing) => match r.coming with
      | [] => (r, none)
      | e :: rest => ({ r with coming := rest },
          some (⟨1, (e.extractLsb' 32 32).toNat, n.toNat, [e.toNat]⟩ : TraceRecord))
    if h : n.toNat < 4096 then
      let t : TileId := ⟨n.toNat, h⟩
      match take (s.tile t).ring with
      | (r, some e) => .next ((s.setTile t { s.tile t with ring := r }).collect e)
      | (_, none) => .next s
    else
      let k := n.toNat % 4096
      match take (Sparse.get {} s.rings k) with
      | (r, some e) => .next (({ s with rings := Sparse.set {} s.rings k r }).collect e)
      | (_, none) => .next s

end Sys2Proof.Machine
end

