-- ==== Sys2Proof/Machine/Newen.lean ====
section
/-! DEFINITION. The Newen link: frames, acknowledgement and replay (R411 to R422), the two proxies (R423 to R426), Lacing
across the link (R427), marks (R428, R429), training, retraining and link down (R430 to R433). -/

namespace Sys2Proof.Machine

/-! ### Small parts -/

/-- LINK_STATS word `w`, counted from 0, grows (R434). -/
def State.linkStat (s : State) (n w k : Nat) : State :=
  let x := s.port n
  s.setPort n { x with stats := Sparse.bump x.stats w k }

/-- Cycles of a codeword, c of R427. -/
def codewordTime (gen width : Nat) : Nat :=
  if gen = 2 ∧ width = 8 then 13 else if gen = 1 ∧ width = 4 then 49 else 25

/-- Data flits of a packet on the link: those of its payload beyond the inline bytes (R250, R421, R424). -/
def linkData (p : Packet) : Nat :=
  let cmd := p.cmd.toNat
  if cmd = cmdWrite ∨ cmd = cmdWritePull ∨ (cmd = cmdReadResp ∧ p.status = 0) then cmdLength cmdPullData p.bytes.toNat 0 else 0

/-- Slots that a packet takes on the link: header flit, extension flit and data flits (R421, R424). -/
def linkFlits (p : Packet) : Nat := 1 + p.ext.isSome.toNat + linkData p

/-- A message as it crosses the link: the integer sweep of a sum has an OP of its own (R216). -/
def State.laceOnLink (s : State) (ctx : Nat) (down : Bool) (m : LaceMsg) : LaceMsg :=
  if !down && m.err.isNone && (s.ctx (ctx / 4) (ctx % 4)).sweep = 2 then
    if m.op = 1 then { m with op := 13 } else if m.op = 12 then { m with op := 14 } else m
  else m

/-- Sum of two triples of counts, modulo 4,096 (R422). -/
def addCounts (a b : Nat × Nat × Nat) : Nat × Nat × Nat :=
  ((a.1 + b.1) % 4096, (a.2.1 + b.2.1) % 4096, (a.2.2 + b.2.2) % 4096)

/-- Credits a sender holds (R422): of request slots, response slots and lace beats. -/
def NewenPort.credits (x : NewenPort) : Nat × Nat × Nat :=
  let f := fun b c u => (b + c + 4096 - u % 4096) % 4096
  (f x.buffers.1 x.counts.1 x.used.1, f x.buffers.2.1 x.counts.2.1 x.used.2.1, f x.buffers.2.2 x.counts.2.2 x.used.2.2)

/-- A frame of the port, with the ACK and the credit counts that every type carries (R415, R416). -/
def NewenPort.frame (x : NewenPort) (ftype seq : Nat) (slots : List (Nat × Flit)) (lace : Option LaceBeat) (origin body : Nat) : Frame :=
  mkFrame ftype seq (x.expect + 65535) x.freed slots lace origin body

/-- A frame of the port that carries nothing but its body (R416). -/
def NewenPort.plain (x : NewenPort) (ftype body : Nat) : Frame := x.frame ftype 0 [] none 0 body

/-- A frame that is sent again: with ACK and credit counts of now (R418, R420). -/
def NewenPort.again (x : NewenPort) (f : Frame) : Frame := x.frame 1 f.seq f.slots f.lace (f.byte 242 1) 0

/-! ### Link down (R433) -/

/-- A request that stands in the near proxy completes LINK_DOWN. -/
def State.nearDown (s : State) (n : Nat) : Nat → State
  | 0 => s
  | k + 1 =>
    let node := newenNode n
    match (s.target node).intake.find? (fun e => e.pkt.ext.isSome) with
    | none => s
    | some e => (s.finishEntry node e .linkDown 0 0).nearDown n k

/-- Contexts of domain scope that wait for the parent end LINK_DOWN where the parent's link is lost. -/
def State.laceLinkDown (s : State) (n : Nat) : State :=
  if s.obj 0x3200 1 255 ≠ n then s
  else
    (List.range 32).foldl (fun s k =>
      let x := s.ctx (k / 4) (k % 4)
      if s.domainScope (k / 4) (k % 4) ∧ x.active ∧ x.sentUp ∧ x.result.isNone then
        s.laceTurn (k / 4) (k % 4) (laceErr .linkDown) false
      else s) s

/-- A purpose whose response no table entry awaits any more: link tags are below 4,096 (R274). -/
def Purpose.discard : Purpose → Purpose
  | .far lt => .far (4096 + lt)
  | why => why

/-- The requests that a far proxy has re-issued run to their end, and their responses are discarded (R433). -/
def State.farDiscard (s : State) (n : Nat) : State :=
  let i := s.initiator (newenNode n)
  s.setInitiator (newenNode n) { i with out := i.out.map (fun r => { r with purpose := r.purpose.discard })
                                        waiting := i.waiting.map (fun w => (w.1, w.2.discard)) }

/-- A port goes DOWN (R433), and trains again where it is still enabled. -/
def State.portDown (s : State) (n : Nat) : State :=
  let x := s.port n
  if x.link = .down then s
  else
    let s := if x.link = .training then s else s.linkStat n 9 1
    let s := (s.nearDown n ((s.target (newenNode n)).intake.length + 1)).farDiscard n
    let y := s.port n
    let s := s.setPort n { stats := y.stats, lastMark := y.lastMark, trainFail := y.trainFail, link := y.link }
    let s := { s with lacing := { s.lacing with toPorts := s.lacing.toPorts.filter (fun m => m.1 ≠ n) } }
    let s := (s.setLink n .down 0).laceLinkDown n
    s.startTraining n

/-- An UP port enters RETRAINING (R432): its replay buffer and its proxy tables are kept. -/
def State.retrain (s : State) (n : Nat) : State :=
  let x := s.port n
  if x.link = .up then
    (s.setPort n { x with resend := [], replays := 0, badRun := 0, helloSeen := false, measured := none, nakDue := false,
                          missing := false, markDue := false, helloDue := false }).setLink n .retraining 1
  else s

/-! ### Training (R430, R431) -/

/-- A training attempt fails with a cause: the next one waits (R430). -/
def State.trainFails (s : State) (n cause : Nat) : State :=
  s.setPort n { s.port n with phase := 0, trainFail := cause }

/-- Width and first lane that the lanes of one generation allow: 8, else 4 on lanes 0 to 3 or on 4 to 7 where both ends take
width 4 (R409, R431). -/
def trainWidth (good : BitVec 8) (four : Bool) : Option (Nat × Nat) :=
  if good = 255 then some (8, 0)
  else if four ∧ good &&& 0x0F = 0x0F then some (4, 0)
  else if four ∧ good &&& 0xF0 = 0xF0 then some (4, 4)
  else none

/-- Generation, width and first lane of the link (R431): `good2` and `good1` are the lanes that meet the error ratio at Newen-2 and at
Newen-1, `peerGen` and `peerMin` the peer's GEN_MAX and WIDTH_MIN. -/
def State.trainChoice (s : State) (n peerGen peerMin : Nat) (good2 good1 : BitVec 8) : Option (Nat × Nat × Nat) :=
  let o := 0x6100 + 0x10 * n
  let four := s.obj o 2 4 = 4 ∧ peerMin = 4
  let g := min (s.obj o 1 2) peerGen
  let one := (trainWidth good1 four).map (fun w => (1, w))
  if g = 2 then ((trainWidth good2 four).map (fun w => (2, w))).or one else one

/-- The port becomes UP (R430, R432): after a retraining it resumes from the frame the peer expects. -/
def State.portUp (s : State) (n f : Nat) : State :=
  let x := s.port n
  let again := x.link = .retraining
  let s := if again then s.linkStat n 8 1 else s
  let y := s.port n
  let y := { y with flight := f, measured := none, ackAt := s.calends, resend := y.replay
                    badFrames := [], frames := (5 * y.codewords + 1) / 2 }
  let t := s.target (newenNode n)
  let s := s.setTarget (newenNode n) { t with stallSince := if t.intake.isEmpty then none else some s.calends }
  (s.setPort n y).setLink n .up 0

/-- TRAIN_PHASE_END (R430, R431). `peerGen` to `good1` are what phase 2 found. -/
def execTrainPhaseEnd (n : NewenId) (peerGen peerMin : Nat) (good2 good1 : BitVec 8) (s : State) :
    Host.Outcome State Fault Refusal :=
  let x := s.port n.val
  if x.link ≠ .training ∧ x.link ≠ .retraining then .next s
  else
    match x.phase with
    | 1 => .next (s.setPort n.val { x with phase := 2 })
    | 2 =>
      match s.trainChoice n.val peerGen peerMin good2 good1 with
      | some (g, w, l) => .next (s.setPort n.val { x with phase := 3, gen := g, width := w, firstLane := l })
      | none => .next (s.trainFails n.val 2)
    | 3 => .next (s.setPort n.val { x with phase := 4, markDue := true, helloDue := true })
    | 4 =>
      match x.measured with
      | none => .next s
      | some f =>
        if 2000 < f then .next (s.trainFails n.val 4)
        else if x.helloSeen ∧ !x.helloDue then .next (s.portUp n.val f)
        else .next s
    | _ => .next s

/-- TRAIN_PHASE_TIMEOUT (R430). -/
def execTrainPhaseTimeout (n : NewenId) (s : State) : Host.Outcome State Fault Refusal :=
  let x := s.port n.val
  if x.phase = 0 then .next s
  else
    let cause := if x.phase < 4 then x.phase else if x.measured.isNone then 4 else 5
    .next (s.trainFails n.val cause)

/-- TRAIN_RETRY (R430). -/
def execTrainRetry (n : NewenId) (s : State) : Host.Outcome State Fault Refusal :=
  let x := s.port n.val
  if (x.link = .training ∨ x.link = .retraining) ∧ x.phase = 0 then
    .next (s.setPort n.val { x with phase := 1, helloSeen := false, measured := none, markDue := false, helloDue := false })
  else .next s

/-- RETRAIN_TIME (R432). -/
def execRetrainTime (n : NewenId) (s : State) : Host.Outcome State Fault Refusal :=
  if (s.port n.val).link = .retraining then .next (s.portDown n.val) else .next s

/-- ALIGNMENT_CODEWORD_MISSING (R432). -/
def execAlignmentCodewordMissing (n : NewenId) (s : State) : Host.Outcome State Fault Refusal := .next (s.retrain n.val)

/-- PORT_ENABLE takes a value (R434, R535): 0 takes the port DOWN; 1 begins training, and wakes D18 where it is off. -/
def State.portEnable (s : State) (n v : Nat) : State :=
  let s := s.setObj (0x6100 + 0x10 * n) 0 0 v
  if v = 0 then s.portDown n
  else if s.domain 18 = .off then s.setDomain 18 .waking
  else s.startTraining n

/-! ### Codewords (R411, R412, R432) -/

/-- The frames with a bit in codeword `w`, counted from link-up (R411). -/
def framesOfCodeword (w : Nat) : List Nat :=
  (List.range 3).map (· + (5 * (w / 2) + (if w % 2 = 0 then 0 else 2)))

/-- CODEWORD_RECEIVED (R410, R412, R432): `errs` symbols were in error; more than 15 cannot be corrected. -/
def execCodewordReceived (n : NewenId) (errs : Nat) (s : State) : Host.Outcome State Fault Refusal :=
  let x := s.port n.val
  if x.link = .down ∨ (x.link ≠ .up ∧ x.phase < 4) then .next s
  else if errs ≤ 15 then .next ((s.setPort n.val { x with codewords := x.codewords + 1, badRun := 0 }).linkStat n.val 2 errs)
  else
    let s := (s.setPort n.val { x with codewords := x.codewords + 1, badRun := x.badRun + 1
                                       badFrames := x.badFrames ++ framesOfCodeword x.codewords }).linkStat n.val 3 1
    .next (if x.badRun + 1 = 8 then s.retrain n.val else s)

/-- The 5,140 data bits of the codeword with a count, of a frame stream (R411). The parity that RS(544,514) adds is that of
IEEE 802.3 and is not formed (R410, log entry 93). -/
def codewordData (count stream : Nat) : Nat := count % 65536 * 2 ^ 4 + stream % 2 ^ 5120 * 2 ^ 20

/-- The lane that carries data symbol `i` of a codeword (R409, R410). -/
def NewenPort.laneOf (x : NewenPort) (i : Nat) : Nat := x.firstLane + i % max 1 x.width

/-- The data symbols of an alignment codeword (R411). -/
def NewenPort.alignment (x : NewenPort) : Nat := ofLanes 10 ((List.range 514).map (fun i => 0x300 + x.laneOf i))

/-- The bits of a frame join the frame stream behind those of the frames before; 5,120 of them make a codeword (R411). -/
def NewenPort.encode (x : NewenPort) (f : Frame) : NewenPort :=
  let left := x.sent * 2048 % 5120
  let v := x.stream + f.bits.toNat * 2 ^ left
  if left + 2048 < 5120 then { x with sent := x.sent + 1, stream := v }
  else { x with sent := x.sent + 1, stream := v / 2 ^ 5120, codeword := codewordData (x.sent * 2048 / 5120) v }

/-- An alignment codeword is due: 16,384 codewords of frames have been sent since the last (R411). -/
def NewenPort.alignmentDue (x : NewenPort) : Bool := decide (40960 * (x.aligned + 1) ≤ x.sent)

/-- ALIGNMENT_CODEWORD (R411). -/
def execAlignmentCodeword (n : NewenId) (s : State) : Host.Outcome State Fault Refusal :=
  let x := s.port n.val
  if x.alignmentDue then .next (s.setPort n.val { x with aligned := x.aligned + 1, codeword := x.alignment }) else .next s

/-! ### Replay (R418 to R420) -/

/-- The sender resends its unacknowledged frames (R420); after REPLAY_LIMIT replays without an advance the port retrains.
Two causes in one cycle make one replay. -/
def State.replayAll (s : State) (n : Nat) : State :=
  let x := s.port n
  if x.replay = [] ∨ x.link ≠ .up then s
  else if x.replayAt = some s.calends then s.setPort n { x with resend := x.replay }
  else
    let k := x.replays + 1
    let first := match x.replay with
      | f :: _ => f.seq
      | [] => 0
    let s := (s.setPort n { x with resend := x.replay, replays := k, replayAt := some s.calends, ackAt := s.calends })
    let s := (s.linkStat n 7 1).svcEvent (newenNode n) 0x33 first
    if s.obj (0x6100 + 0x10 * n) 4 8 ≤ k then s.retrain n else s

/-- Frames acknowledged by `ack` leave the replay buffer (R418). -/
def State.acked (s : State) (n ack : Nat) : State :=
  let x := s.port n
  match x.replay.findIdx? (fun f => f.seq = ack) with
  | none => s
  | some i =>
    let rest := x.replay.drop (i + 1)
    s.setPort n { x with replay := rest, resend := x.resend.drop (x.resend.length - rest.length), replays := 0
                         ackAt := s.calends }

/-- REPLAY_TIMEOUT (R420). -/
def execReplayTimeout (n : NewenId) (s : State) : Host.Outcome State Fault Refusal := .next (s.replayAll n.val)

/-- NAK_REPEAT (R419). -/
def execNakRepeat (n : NewenId) (s : State) : Host.Outcome State Fault Refusal :=
  let x := s.port n.val
  if x.link = .up ∧ x.missing then .next (s.setPort n.val { x with nakDue := true }) else .next s

/-- MARK_PERIOD (R428): a mark is due; none with a period of 0. -/
def execMarkPeriod (n : NewenId) (s : State) : Host.Outcome State Fault Refusal :=
  let x := s.port n.val
  if x.link = .up ∧ s.obj (0x6100 + 0x10 * n.val) 3 1000 ≠ 0 then .next (s.setPort n.val { x with markDue := true })
  else .next s

/-! ### Sending (R418, R421, R422, R428) -/

/-- The messages of the Lacing tree for a port enter its queue. -/
def State.takeLaces (s : State) (n : Nat) : State :=
  let x := s.port n
  let mine := s.lacing.toPorts.filter (fun m => m.1 = n)
  let s := { s with lacing := { s.lacing with toPorts := s.lacing.toPorts.filter (fun m => m.1 ≠ n) } }
  s.setPort n { x with laceOut := x.laceOut ++ mine.map (fun m => (m.2.1, s.laceOnLink m.2.1 m.2.2.1 m.2.2.2)) }

/-- A frame leaves the port. -/
def State.emit (s : State) (n : Nat) (f : Frame) : State := s.setPort n { (s.port n).encode f with last := some f }

/-- A MARK leaves (R428, R429). -/
def State.emitMark (s : State) (n : Nat) : State :=
  let x := s.port n
  let id := (Sparse.get 0 x.lastMark 0 + 1) % 2 ^ 32
  let body := s.calends % 2 ^ 64 + id * 2 ^ 64 + s.domainDevice % 256 * 2 ^ 96 + n % 256 * 2 ^ 104
    + Sparse.get 0 x.lastMark 3 % 2 ^ 64 * 2 ^ 128 + Sparse.get 0 x.lastMark 2 % 2 ^ 32 * 2 ^ 192
  let s := s.emit n (x.plain 2 body)
  let y := s.port n
  let s := s.setPort n { y with markDue := false, lastMark := Sparse.set 0 (Sparse.set 0 y.lastMark 0 id) 1 s.calends }
  ((s.linkStat n 10 1).svcEvent (newenNode n) 0x30 (id % 2 ^ 24)).markRecord n x.peerDevice id s.calends false 0

/-- A HELLO leaves (R416, R422). -/
def State.emitHello (s : State) (n : Nat) : State :=
  let x := s.port n
  let flags := decide (s.obj 0x3200 1 255 = n) |>.toNat
  let flags := flags + 2 * ((s.obj 0x3200 2 0).testBit n).toNat + 4 * (decide (x.link = .retraining)).toNat
  let body := s.domainDevice % 256 + n % 256 * 2 ^ 8 + x.gen % 256 * 2 ^ 16 + x.width % 256 * 2 ^ 24 + 2048 * 2 ^ 32
    + 2048 * 2 ^ 48 + 64 * 2 ^ 64 + x.expect % 65536 * 2 ^ 80 + flags * 2 ^ 96
  let s := s.emit n (x.plain 4 body)
  s.setPort n { s.port n with helloDue := false }

/-- A slot of the response channel is filled, with a flit and a credit there (R421). -/
def NewenPort.fillRsp (x : NewenPort) : Option (NewenPort × Flit) :=
  match x.rspOut with
  | p :: rest =>
    if 0 < x.credits.2.1 then
      let last := x.rspFlit + 1 = linkFlits p
      some ({ x with rspOut := if last then rest else x.rspOut, rspFlit := if last then 0 else x.rspFlit + 1
                     used := addCounts x.used (0, 1, 0) }, (p.flits (linkData p)).getD x.rspFlit ⟨0, 0⟩)
    else none
  | [] => none

/-- A slot of the request channel is filled. -/
def NewenPort.fillReq (x : NewenPort) : Option (NewenPort × Flit) :=
  match x.reqOut with
  | p :: rest =>
    if 0 < x.credits.1 then
      let last := x.reqFlit + 1 = linkFlits p
      some ({ x with reqOut := if last then rest else x.reqOut, reqFlit := if last then 0 else x.reqFlit + 1
                     used := addCounts x.used (1, 0, 0) }, (p.flits (linkData p)).getD x.reqFlit ⟨0, 0⟩)
    else none
  | [] => none

/-- At most `k` slots are filled: the response channel takes the next one where both have a flit and a credit (R421). -/
def NewenPort.fillSlots (x : NewenPort) : Nat → NewenPort × List (Nat × Flit)
  | 0 => (x, [])
  | k + 1 =>
    match x.fillRsp, x.fillReq with
    | some (y, f), _ =>
      let r := y.fillSlots k
      (r.1, (2, f) :: r.2)
    | none, some (y, f) =>
      let r := y.fillSlots k
      (r.1, (1, f) :: r.2)
    | none, none => (x, [])

/-- The context whose message goes on, or goes next: the contexts take turns, a whole message at a time (R236). -/
def NewenPort.laceNext (x : NewenPort) : Option (Nat × LaceMsg) :=
  let first := fun (c : Nat) => x.laceOut.find? (fun m => m.1 = c)
  if 0 < x.laceBeat then first x.laceLast
  else ((List.range 32).map (fun i => (x.laceLast + 1 + i) % 32)).findSome? first

/-- A lace beat is carried: a message begins only with the credits and the replay room for all of its beats, so that its
beats go in consecutive frames (R421). -/
def NewenPort.fillLace (x : NewenPort) : NewenPort × Option LaceBeat :=
  match x.laceNext with
  | some (ctx, m) =>
    let bs := m.beats ctx m.op
    let b := bs.length
    if 0 < x.laceBeat ∨ (b ≤ x.credits.2.2 ∧ x.replay.length + b ≤ 1024) then
      let last := x.laceBeat + 1 = b
      ({ x with laceOut := if last then x.laceOut.erase (ctx, m) else x.laceOut, laceBeat := if last then 0 else x.laceBeat + 1
                laceLast := ctx, used := addCounts x.used (0, 0, 1) }, bs[x.laceBeat]?)
    else (x, none)
  | none => (x, none)

/-- The next DATA or IDLE frame (R416, R418): a resent frame with ACK and credits of now, else a new one while fewer than
1,024 are unacknowledged. -/
def State.emitData (s : State) (n : Nat) : State :=
  let x := s.port n
  match x.resend with
  | f :: rest => ((s.setPort n { x with resend := rest }).emit n (x.again f)).linkStat n 0 1
  | [] =>
    if 1024 ≤ x.replay.length then s.emit n (x.plain 0 0)
    else
      let (y, lace) := x.fillLace
      let (y, slots) := y.fillSlots 3
      if slots = [] ∧ lace.isNone then s.emit n (x.plain 0 0)
      else
        let f := x.frame 1 x.nextSeq slots lace s.domainDevice 0
        let y := { y with replay := y.replay ++ [f], nextSeq := (y.nextSeq + 1) % 65536
                          ackAt := if y.replay = [] then s.calends else y.ackAt }
        ((s.setPort n y).emit n f).linkStat n 0 1

/-- FRAME_SEND (R416 to R421, R428, R430). Between the beats of a message nothing but its next beat goes; a NAK goes first,
then a mark at the start of a codeword of even count, then a HELLO, then data. -/
def execFrameSend (n : NewenId) (s : State) : Host.Outcome State Fault Refusal :=
  let x := s.port n.val
  if x.link = .up then
    if x.alignmentDue then .next s
    else
      let s := s.takeLaces n.val
      if 0 < x.laceBeat then .next (s.emitData n.val)
      else if x.nakDue then
        let s := s.emit n.val (x.plain 3 0)
        .next ((s.setPort n.val { s.port n.val with nakDue := false }).linkStat n.val 6 1)
      else if x.markDue ∧ x.sent % 5 = 0 then .next (s.emitMark n.val)
      else if x.helloDue then .next (s.emitHello n.val)
      else .next (s.emitData n.val)
  else if x.phase = 4 then
    if x.markDue then .next (s.emitMark n.val)
    else if x.helloDue then .next (s.emitHello n.val)
    else .next (s.emit n.val (x.plain 0 0))
  else .next s

/-! ### Proxies (R423 to R425) -/

/-- A response over the link to a request the far proxy received (R274, R425). -/
def State.farRespond (s : State) (n : Nat) (p : Packet) (st : Status) (v poison : Nat) : State :=
  let x := s.port n
  let ok := decide (st = .ok) && p.cmd.toNat = cmdRead
  let q := mkPacket (answerCmd p.cmd.toNat) p.dest.toNat p.src.toNat p.tag.toNat p.address.toNat p.bytes.toNat p.conv.toNat
    p.vi.toNat p.part.toNat p.priority.toNat (Status.code st) (if ok then v else 0) (if ok then poison else 0)
  let q := { q with ext := p.ext.map (fun e => { e with responder := BitVec.ofNat 6 s.domainDevice })
                    poison := decide (st = .ok ∧ poison ≠ 0) }
  s.setPort n { x with rspOut := x.rspOut ++ [Packet.seal q] }

/-- Request slots are freed (R423). -/
def State.freeSlots (s : State) (n k : Nat) : State :=
  let x := s.port n
  s.setPort n { x with freed := addCounts x.freed (k, 0, 0) }

/-- The far proxy takes the requests that wait, in order, while its table has room (R425): each is answered
ILLEGAL_ENCODING or NOT_FOUND, or enters the table and waits to be re-issued under R262. One whose HDR_CRC fails is discarded
and counted (R252). -/
def State.farTake (s : State) (n : Nat) : Nat → State
  | 0 => s
  | k + 1 =>
    let x := s.port n
    match x.reqWait with
    | [] => s
    | p :: rest =>
      if s.vigil.hung then s
      else
      let fl := linkFlits p
      let t := (s.setPort n { x with reqWait := rest }).freeSlots n fl
      if !p.crcOk then (t.netError 8 2).farTake n k
      else
      match p.ext with
      | none => (t.farRespond n p .illegalEncoding 0 0).farTake n k
      | some e =>
        if Packet.illegal p || !isRequest p.cmd.toNat || (nodeKind e.node.toNat).isNone || e.responder ≠ 0 then
          (t.farRespond n p .illegalEncoding 0 0).farTake n k
        else if e.device.toNat ≠ s.domainDevice then
          (t.farRespond n p .notFound 0 0).farTake n k
        else if 512 ≤ x.far.length then s
        else
          let s := s.setPort n { x with reqWait := rest, far := x.far ++ [⟨p.tag.toNat, p, fl - 2, s.calends⟩] }
          let s := s.freeSlots n 2
          let q := mkPacket p.cmd.toNat (newenNode n) e.node.toNat 0 p.address.toNat p.bytes.toNat p.conv.toNat p.vi.toNat
            p.part.toNat p.priority.toNat 0 p.payload (Packet.damage p)
          let i := s.initiator (newenNode n)
          (s.setInitiator (newenNode n) { i with waiting := i.waiting ++ [(q, .far p.tag.toNat)] }).farTake n k

/-- The data of a re-issued write has been pulled: its slots are free (R423). -/
def State.farPulled (s : State) (n linkTag : Nat) : State :=
  let x := s.port n
  match x.far.find? (fun t => t.linkTag = linkTag) with
  | none => s
  | some t =>
    (s.setPort n { x with far := x.far.map (fun u => if u.linkTag = linkTag then { u with held := 0 } else u) }).freeSlots n t.held

/-- A re-issued request ends: its response goes back with the link tag (R425). One whose table entry is gone is discarded
(R433). -/
def farEnd (n linkTag : Nat) (st : Status) (v poison : Nat) (s : State) : State :=
  let x := s.port n
  match x.far.find? (fun t => t.linkTag = linkTag) with
  | none => s
  | some t =>
    let s := (s.farPulled n linkTag)
    let y := s.port n
    let s := (s.setPort n { y with far := y.far.filter (fun u => u.linkTag ≠ linkTag) }).farRespond n t.pkt st v poison
    s.farTake n 1

/-- A response reaches the near proxy: it is delivered with the initiator's SRC and TAG; one whose link tag is not
outstanding is stray (R283, R424), and one that R252 rejects is discarded. -/
def State.nearResponse (s : State) (n : Nat) (r : Packet) : State :=
  let node := newenNode n
  let x := s.port n
  if !r.crcOk || Packet.illegal r then s.netError 8 2
  else
  match x.near.find? (fun t => t.linkTag = r.tag.toNat) with
  | none => s.netCount node 26 1
  | some t =>
    let s := s.setPort n { x with near := x.near.erase t }
    let y := s.target node
    match y.intake.find? (fun e => e.pkt.src = t.src && e.pkt.tag = t.tag && e.phase = .inService) with
    | none => s
    | some e =>
      let e' := { e with pkt := { e.pkt with ext := e.pkt.ext.map (fun k => { k with responder := (r.ext.map (·.responder)).getD 0 }) } }
      let s := s.setTarget node (y.updEntry e e')
      s.finishEntry node e' ((Status.ofCode r.status.toNat).getD .illegalEncoding) r.payload
        (if r.status = 0 then Packet.damage r else 0)

/-- A remote request that the near proxy can send next: the first in service order whose data is here. -/
def State.nearNext (s : State) (n : Nat) (any : Bool) : Option IntakeEntry :=
  firstEntry (fun e => e.pkt.ext.isSome && e.phase ≠ .inService && (any || e.ready)) (s.target (newenNode n)).intake

/-- NEAR_PROXY_FORWARD (R424, R432, R433, R510): with a link tag `lt` that is not in use; at most 512 are held. While the port is
DOWN a request completes LINK_DOWN; while it trains it waits. -/
def execNearProxyForward (n : NewenId) (lt : Fin 512) (s : State) : Host.Outcome State Fault Refusal :=
  let node := newenNode n.val
  let x := s.port n.val
  match x.link with
  | .down =>
    match s.nearNext n.val true with
    | some e => .next (s.finishEntry node e .linkDown 0 0)
    | none => .next s
  | .up =>
    if s.vigil.hung ∨ x.near.any (fun t => t.linkTag = lt.val) then .next s
    else
      match s.nearNext n.val false with
      | none => .next s
      | some e =>
        let y := s.target node
        let s := s.setTarget node
          { y with intake := y.intake.erase e ++ [{ e with phase := .inService }], stallSince := some s.calends }
        let p := { e.pkt with src := BitVec.ofNat 14 node, tag := BitVec.ofNat 12 lt.val, poison := e.pkt.poison || e.pkt.poisoned ≠ 0 }
        .next (s.setPort n.val { x with near := x.near ++ [⟨lt.val, e.pkt.src, e.pkt.tag⟩], reqOut := x.reqOut ++ [p.seal] })
  | _ => .next s

/-! ### Receiving -/

/-- A frame is discarded: the first one after an accepted frame asks for a NAK in the next frame (R419). -/
def State.discardFrame (s : State) (n : Nat) : State :=
  let x := s.port n
  if x.link = .up ∧ !x.missing then s.setPort n { x with missing := true, nakDue := true } else s

/-- Protocol errors of a frame that passes its CRC (R417). -/
def NewenPort.protocolError (x : NewenPort) (f : Frame) : Bool :=
  let used := fun (r : Nat) (k : Nat) (m : Nat) => (r + 4096 - k) % 4096 + m
  let rq := (f.slots.filter (fun t => t.1 = 1)).length
  let rs := (f.slots.filter (fun t => t.1 = 2)).length
  f.reserved || (f.ftype = 1 && f.slots.isEmpty && f.lace.isNone)
    || decide (2048 < used x.received.1 x.freed.1 rq) || decide (2048 < used x.received.2.1 x.freed.2.1 rs)
    || decide (64 < used x.received.2.2 x.freed.2.2 f.lace.isSome.toNat)

/-- What every received frame brings: the CRC and protocol checks (R412, R417), ACK and the credit counts (R416). The answer
tells whether the frame stands. -/
def State.receiveFrame (s : State) (n : Nat) (f : Frame) : State × Bool :=
  let x := s.port n
  if x.link ≠ .up ∧ x.phase < 4 then (s, false)
  else
    let bad := x.badFrames.contains x.frames
    let s := s.setPort n { x with frames := x.frames + 1, badFrames := x.badFrames.filter (fun k => decide (x.frames < k)) }
    if bad ∨ !f.crcOk then ((s.linkStat n 4 1).discardFrame n, false)
    else if x.protocolError f then ((s.linkStat n 5 1).discardFrame n, false)
    else
      let s := s.acked n f.ack
      let y := s.port n
      (s.setPort n { y with counts := (f.reqCredits, f.rspCredits, f.laceCredits) }, true)

/-- A Lacing message of a port reaches the device root (R238, R240). -/
def State.laceArrive (s : State) (n ctx : Nat) (m : LaceMsg) : State :=
  let p := ctx / 4 % 8
  let ch := ctx % 4
  if !(s.domainScope p ch) then s
  else if m.err = some .laceTimeout then s.laceEnded p ch n
  else if s.obj 0x3200 1 255 = n then
    let x := s.ctx p ch
    if x.active ∧ x.sentUp then s.laceTurn p ch m false else s
  else if s.childPorts.contains n then
    let x := s.ctx p ch
    let s := s.setCtx p ch { x with childMsgs := Sparse.set none x.childMsgs n (some m) }
    if !x.active ∧ (s.members p ch).isEmpty ∧ m ≠ laceIdentity then s.laceBegin p ch s.calends [] else s
  else s

/-- Flits of the packet whose first flit is here (R421). -/
def flitsDue (l : List Flit) : Nat := linkFlits (packetOf (l.take 1))

/-- A slot of an accepted frame (R421, R423): its flit joins the packet of its channel, and a packet that is whole goes to
its proxy. -/
def State.takeSlot (s : State) (n : Nat) (vc : Nat) (f : Flit) : State :=
  let x := s.port n
  if vc = 1 then
    let x := { x with received := addCounts x.received (1, 0, 0) }
    let l := x.reqIn ++ [f]
    if l.length = flitsDue l then (s.setPort n { x with reqIn := [], reqWait := x.reqWait ++ [packetOf l] }).farTake n 1
    else s.setPort n { x with reqIn := l }
  else
    let x := { x with received := addCounts x.received (0, 1, 0), freed := addCounts x.freed (0, 1, 0) }
    let l := x.rspIn ++ [f]
    if l.length = flitsDue l then (s.setPort n { x with rspIn := [] }).nearResponse n (packetOf l)
    else s.setPort n { x with rspIn := l }

/-- The lace beat of an accepted frame: consumed by the device root (R216, R423, R427). -/
def State.takeBeat (s : State) (n : Nat) (b : LaceBeat) : State :=
  let x := s.port n
  let l := x.laceIn ++ [b]
  let x := { x with received := addCounts x.received (0, 0, 1), freed := addCounts x.freed (0, 0, 1) }
  if b.last ∨ 4 ≤ l.length then (s.setPort n { x with laceIn := [] }).laceArrive n ((l.headD b).context) (laceMsgOf l)
  else s.setPort n { x with laceIn := l }

/-- DATA (R419, R421): accepted where its SEQ is the one expected. -/
def execDataFrame (n : NewenId) (f : Frame) (s : State) : Host.Outcome State Fault Refusal :=
  if f.other 1 then .next s
  else
    match s.receiveFrame n.val f with
    | (s, false) => .next s
    | (s, true) =>
      let x := s.port n.val
      if x.link ≠ .up ∨ f.seq ≠ x.expect then .next (s.discardFrame n.val)
      else
        let s := (s.setPort n.val { x with expect := (x.expect + 1) % 65536, missing := false }).linkStat n.val 1 1
        let s := f.slots.foldl (fun s t => s.takeSlot n.val t.1 t.2) s
        match f.lace with
        | some b => .next (s.takeBeat n.val b)
        | none => .next s

/-- IDLE (R416). -/
def execIdleFrame (n : NewenId) (f : Frame) (s : State) : Host.Outcome State Fault Refusal :=
  if f.other 0 then .next s else .next (s.receiveFrame n.val f).1

/-- NAK (R420): the sender replays from ACK + 1. -/
def execNakFrame (n : NewenId) (f : Frame) (s : State) : Host.Outcome State Fault Refusal :=
  if f.other 3 then .next s
  else
    match s.receiveFrame n.val f with
    | (s, true) => .next (s.replayAll n.val)
    | (s, false) => .next s

/-- The flight of a mark exchange, rounded up (R430). -/
def flightOf (txA rxB txB rxA c : Nat) : Nat :=
  (((rxB : Int) - txA + ((rxA : Int) - txB) - 2 * (39 + c) + 1) / 2).toNat

/-- MARK (R429, R430): stamped and recorded; in phase 4 one that echoes the port's own mark measures the flight. -/
def execMarkFrame (n : NewenId) (f : Frame) (s : State) : Host.Outcome State Fault Refusal :=
  if f.other 2 then .next s
  else
    match s.receiveFrame n.val f with
    | (s, true) =>
      let x := s.port n.val
      let (tx, id, device, echoRx, echo) := (f.byte 16 8, f.byte 24 4, f.byte 28 1, f.byte 32 8, f.byte 40 4)
      let l := Sparse.set 0 (Sparse.set 0 (Sparse.set 0 (Sparse.set 0 x.lastMark 2 id) 3 s.calends) 4 tx) 5 echoRx
      let own := Sparse.get 0 x.lastMark 0
      let fl := flightOf (Sparse.get 0 x.lastMark 1) echoRx tx s.calends (codewordTime x.gen x.width)
      let meas := if x.link ≠ .up ∧ echo = own ∧ own ≠ 0 then some fl else x.measured
      let s := (s.setPort n.val { x with lastMark := l, measured := meas }).linkStat n.val 11 1
      let s := s.svcEvent (newenNode n.val) 0x31 (id % 2 ^ 24)
      .next (s.markRecord n.val device id s.calends true tx)
    | (s, false) => .next s

/-- SEQ numbers from the oldest unacknowledged frame to the next new one, as distances from the next one. -/
def NewenPort.resumeAt (x : NewenPort) (e : Nat) : Option (List Frame) :=
  let behind := (x.nextSeq + 65536 - e) % 65536
  if behind ≤ x.replay.length then some (x.replay.drop (x.replay.length - behind)) else none

/-- HELLO (R416, R430, R432): the peer's buffers, number and domain flags; in a retraining the port resumes at EXPECT_SEQ or
goes DOWN. -/
def execHelloFrame (n : NewenId) (f : Frame) (s : State) : Host.Outcome State Fault Refusal :=
  if f.other 4 then .next s
  else
    match s.receiveFrame n.val f with
    | (s, true) =>
      let x := s.port n.val
      let (device, port) := (f.byte 16 1, f.byte 17 1)
      let y := { x with buffers := (f.byte 20 2, f.byte 22 2, f.byte 24 2), peerDevice := device, peerPort := port
                        peerParent := (f.byte 28 1).testBit 0, helloSeen := true }
      if x.link = .retraining then
        match x.resumeAt (f.byte 26 2) with
        | none => .next (s.portDown n.val)
        | some rest =>
          if device ≠ x.peerDevice ∨ port ≠ x.peerPort then .next (s.portDown n.val)
          else .next (s.setPort n.val { y with replay := rest })
      else .next (s.setPort n.val y)
    | (s, false) => .next s

/-- DOMAIN_STATE (R237): 0 SINGLE, 1 READY, 2 FAULT. -/
def State.domainState (s : State) : Nat :=
  let parent := s.obj 0x3200 1 255
  let kids := s.childPorts
  if parent = 255 ∧ kids = [] then 0
  else
    if (parent = 255 ∨ s.linked parent) ∧ kids.all (fun n => s.linked n && (s.port n).peerParent) then 1 else 2

end Sys2Proof.Machine
end

