-- ==== Sys2Proof/Machine/Shelf.lean ====
section
/-! DEFINITION. The Session Shelf at work (spec/12_the_session_shelf.md): promotions (R342 to R344), demotions (R346 to
R348), eviction (R349, R350), page moves (R338, R345), closing (R341, R354). -/

namespace Sys2Proof.Machine

/-! ### Operations in the queues (R345) -/

/-- A promotion changed. -/
def State.updPromo (s : State) (id : Nat) (f : ShelfOp → ShelfOp) : State :=
  { s with shelf := { s.shelf with promotions := s.shelf.promotions.map (fun o => if o.id = id then f o else o) } }

/-- A demotion changed. -/
def State.updDemo (s : State) (id : Nat) (f : ShelfOp → ShelfOp) : State :=
  { s with shelf := { s.shelf with demotions := s.shelf.demotions.map (fun o => if o.id = id then f o else o) } }

/-- A demotion is queued; one that a promotion requires goes ahead of the others. -/
def State.queueDemo (s : State) (kind : ShelfKind) (sid : Nat) (cmd : Option CmdKey) : State :=
  let o : ShelfOp := { id := s.serial, kind := kind, sid := sid, cmd := cmd, tW := s.calends }
  let l := match kind with
    | .evict _ => o :: s.shelf.demotions
    | _ => s.shelf.demotions ++ [o]
  { s with shelf := { s.shelf with demotions := l }, serial := s.serial + 1 }

/-- Moves of an operation in flight. -/
def State.movesOf (s : State) (op : Nat) : List PageMove := s.shelf.moves.filter (fun m => m.op = op)

/-- Moves of a session in flight (R25). -/
def State.movesIn (s : State) (sid : Nat) : List PageMove := s.shelf.moves.filter (fun m => m.sid = sid)

/-- (cycle - t_W) / 16, saturating (R336). -/
def State.since16 (s : State) (tW : Nat) : Nat := min 0xFFFFFF ((s.calends - tW) / 16)

/-- Descriptor word 7 of a session (R336), the RESULT of SESSION_WAKE (R395). -/
def Session.word7 (x : Session) : Nat := x.wakeDH + x.wakeDL0 * 2 ^ 24 + (Status.code x.wakeStatus) * 2 ^ 56

/-- Every accepted RUN that names session `sid` fails with `st` (R194, R206, R344). -/
def State.failSession (s : State) (sid : Nat) (st : Status) : State :=
  ((s.host.cmds.filter (fun c => entryOp c.entry = 1 && !c.refused && c.phase = .running
      && runSession c.entry = some sid)).map (·.key)).foldl (fun s k => s.failRun k 0 0 st) s

/-- A promotion ends with a status (R33, R342 to R344): recorded in the descriptor and in event SESSION_WAKE, and given to
its command; frames it reserved for moves that were not made go back. A reservation that failed fails its RUN, and NO_SPACE
and OUT_OF_RANGE fail every accepted RUN that names the session (R206). An operation that moved nothing read nothing from
T2 (R352, word 8). -/
def State.endPromo (s : State) (o : ShelfOp) (st : Status) : State :=
  let s := { s with shelf := { s.shelf with promotions := s.shelf.promotions.filter (fun p => p.id ≠ o.id) } }
  let x := s.session o.sid
  let s := o.frames.foldl (fun s f => s.releaseFrame x.part f) s
  let s := if x.state = .closed then s
    else
      let x := { x with promoting := false, wakeStatus := st, wakeCal := o.tW, wakeDH := s.since16 o.tW,
                        idleSince := s.calends, h := if o.started then x.h else 0 }
      s.putSession o.sid x
  let s := if x.state = .closed then s else s.svcEvent mgmtNode 0x20 ((Status.code st) * 65536 + o.sid % 65536)
  let s := if st = .noSpace ∨ st = .outOfRange then s.failSession o.sid st else s
  match o.cmd, o.kind with
  | some k, .run _ =>
    if o.started then s
    else if st = .ok then (s.updCmd k (fun c => { c with reserved := true })).finishRun k
    else s.failRun k 0 0 st
  | some k, _ => s.endCmd k st (s.session o.sid).word7
  | none, _ => s

/-- Layer 0 is published once none of its moves is to come or in flight: WAKE_DL0 (R336, R342). -/
def State.publish (s : State) (o : ShelfOp) : State :=
  if o.started ∧ !o.shown ∧ s.layerReady o.sid 0 0 then
    let x := s.session o.sid
    (s.putSession o.sid { x with wakeDL0 := s.since16 o.tW }).updPromo o.id (fun o => { o with shown := true })
  else s

/-- A promotion with no move left, to come or in flight, ends (R342, R343). -/
def State.settlePromo (s : State) (id : Nat) : State :=
  match s.shelf.promotions.find? (fun o => o.id = id) with
  | none => s
  | some o =>
    let s := s.publish o
    if o.started ∧ o.todo = [] ∧ s.movesOf o.id = [] then s.endPromo o o.status else s

/-! ### Eviction from T0 (R349) -/

/-- The order of eviction: PRIORITY, LAST_RUN, session number (R349). -/
def State.evictsBefore (s : State) (a b : Nat) : Bool :=
  let x := s.session a
  let y := s.session b
  let p := s.profile x.vi x.profile 7
  let q := s.profile y.vi y.profile 7
  if p ≠ q then decide (p < q) else if x.lastRun ≠ y.lastRun then decide (x.lastRun < y.lastRun) else decide (a < b)

/-- The first of some sessions in the order of R349. -/
def State.firstToEvict (s : State) (l : List Nat) : Option Nat :=
  l.foldl (fun acc a => match acc with
    | none => some a
    | some b => if s.evictsBefore a b then some a else acc) none

/-- An operation evicts a session for a promotion. -/
def ShelfKind.evicts (k : ShelfKind) : Bool :=
  match k with
  | .evict _ => true
  | _ => false

/-- Sessions of partition `p` that T0 eviction may take (R349, R351, R353). A session whose WAKE is queued wins over the
choice, and one whose descriptor cannot be read is passed over (DESIGN CHOICE, log entry 84). -/
def State.evictable (s : State) (p : Nat) : List Nat :=
  (s.shelf.sessions.filter (fun e =>
    e.2.state = .live && decide (e.2.part = p) && !e.2.pin && !e.2.promoting && !e.2.demoting && !(s.active e.1)
      && !e.2.closing && !e.2.broken && !(s.shelf.promotions.any (fun o => o.sid = e.1))
      && !(s.shelf.demotions.any (fun o => decide (o.sid = e.1) && o.kind.evicts))
      && decide (0 < e.2.count (fun q => q.tier = .t0)))).map (·.1)

/-- Frames of partition `p` on their way to being free: released and not yet zeroed, or waiting for tasks. -/
def State.framesComing (s : State) (p : Nat) : Nat :=
  (s.partition p).framesZeroing.length
    + (s.shelf.retired.filter (fun r => decide (r.part = p) && r.page.tier = .t0)).length

/-! ### Promotion (R342) -/

/-- Hot pages of a session that are not in T0, in the order of R342, step 4. -/
def State.hotMissing (s : State) (x : Session) : List Nat :=
  (List.range x.layers).flatMap (fun l => (s.hotEntries x l).filter (fun e =>
    match x.page e with
    | some p => p.tier ≠ .t0
    | none => false))

/-- Append pages not yet allocated, for a reservation of `n` tokens. -/
def Session.appendMissing (x : Session) (n : Nat) : List Nat :=
  (List.range x.layers).flatMap (fun l => (x.appendEntries n l).filter (fun e => (x.page e).isNone))

/-- The append pages become zero T0 frames (R335, R342 step 3). -/
def State.allocAppend (s : State) (sid p : Nat) (l : List (Nat × Nat)) : State :=
  l.foldl (fun s e => (s.zeroFrame p e.2).putPage sid e.1 (some ⟨.t0, false, false, s.frameAddr p e.2⟩)) s

/-! ### Demotion (R346 to R350) -/

/-- Entries a demotion moves: every T0 page, and for a park to T2 every T1 page too (R347). -/
def Session.toDemote (x : Session) (tier : Nat) : List Nat :=
  (x.pages.filter (fun e => match e.2 with
    | some p => p.tier = .t0 || (p.tier = .t1 && decide (tier = 2))
    | none => false)).map (·.1)

/-- The tier a demotion aims at. -/
def ShelfKind.target (k : ShelfKind) : Nat :=
  match k with
  | .park t => t
  | _ => 1

/-- A demotion ends (R341, R346, R348): the session takes its parked state, or stays as it was with too little room. One that
parked a session for a promotion is an eviction (R349); one that failed leaves the shortfall, and one that a WAKE stopped
leaves the choice to the next candidate (R353). -/
def State.endDemo (s : State) (o : ShelfOp) : State :=
  let s := { s with shelf := { s.shelf with demotions := s.shelf.demotions.filter (fun d => d.id ≠ o.id) } }
  let x := s.session o.sid
  let y := { x with demoting := false, idleSince := s.calends }
  let parked := o.status = .ok ∧ x.count (fun p => p.tier = .t0) = 0
  let was := x.state ≠ .live
  let y := if parked ∨ was then { y with state := y.parkedState } else y
  let s := if x.state = .closed then s else s.putSession o.sid y
  let s := if parked ∧ x.state ≠ .closed then s.svcEvent mgmtNode 0x21 (o.kind.target * 2 ^ 22 + o.sid % 65536) else s
  let s := if o.status = .noSpace then
      let p := s.partition x.part
      s.setPartition x.part { p with noSpace := p.noSpace + 1 } else s
  match o.kind, o.cmd with
  | .evict op, _ =>
    if parked then
      let p := s.partition x.part
      (s.setPartition x.part { p with evictions := p.evictions + 1 }).svcEvent mgmtNode 0x22 o.sid
    else if o.status = .cancelled ∨ x.broken then s
    else s.updPromo op (fun p => { p with status := .noSpace })
  | _, some k => s.endCmd k o.status 0
  | _, none => s

/-- A demotion with no move left, to come or in flight, ends. -/
def State.settleDemo (s : State) (id : Nat) : State :=
  match s.shelf.demotions.find? (fun o => o.id = id) with
  | none => s
  | some o => if o.started ∧ o.todo = [] ∧ s.movesOf o.id = [] then s.endDemo o else s

/-- Demotions of a session stop at their next issue (R353, R354). -/
def State.stopDemotions (s : State) (sid : Nat) : State :=
  let s := { s with shelf := { s.shelf with demotions := s.shelf.demotions.map (fun o : ShelfOp =>
      if o.sid = sid then { o with todo := [], status := .cancelled, started := true } else o) } }
  (s.shelf.demotions.filter (fun o => o.sid = sid)).foldl (fun s o => s.settleDemo o.id) s

/-- A promotion is queued (R343, R345). A demotion of its session stops (R353, R354). -/
def State.queuePromo (s : State) (kind : ShelfKind) (sid : Nat) (cmd : Option CmdKey) (pin : Nat) (looked : Bool) : State :=
  let s := s.stopDemotions sid
  let o : ShelfOp := { id := s.serial, kind := kind, sid := sid, cmd := cmd, tW := s.calends, pin := pin, looked := looked }
  { s with shelf := { s.shelf with promotions := s.shelf.promotions ++ [o] }, serial := s.serial + 1 }

/-- The start of step 2 of R342: PROMOTING reads 1, the pin argument takes effect (R329, R351), and the hot window's
page-table entries are read (R26, step 3). -/
def State.beginPromo (s : State) (o : ShelfOp) : State :=
  if o.begun then s
  else
    let x := s.session o.sid
    let x := { x with promoting := true, failed := [], pin := if o.pin = 1 then true else if o.pin = 2 then false else x.pin,
                      idleSince := if o.pin = 2 then s.calends else x.idleSince }
    let s := (s.putSession o.sid x).updPromo o.id (fun o => { o with begun := true })
    s.readTable o.sid ((List.range x.layers).flatMap (s.hotEntries x))

/-- Steps 1 to 3 of R342 for a queued promotion, and the start of step 4. With a shortfall of frames it asks for the next
eviction, or waits for one. -/
def State.startPromo (s : State) (o : ShelfOp) : State :=
  let s := if o.looked then s else (s.lookup o.sid).updPromo o.id (fun o => { o with looked := true })
  let x := s.session o.sid
  let p := x.part
  let n := o.kind.tokens
  if x.state = .closed then s.endPromo o .notFound
  else if x.broken then s.endPromo o .eccUncorrected
  else if (s.partition p).state = .hung then s.endPromo o .hung
  else if o.status ≠ .ok then s.endPromo o o.status
  else if x.maxTokens < x.tokens + n then s.endPromo o .outOfRange
  else
    let s := s.beginPromo o
    let x := s.session o.sid
    if x.broken then s.endPromo o .eccUncorrected
    else
      let hot := s.hotMissing x
      let app := x.appendMissing n
      let need := hot.length + app.length
      let free := s.freeFrameCount p
      if need ≤ free then
        let fs := s.freeFrames p need
        let s := s.takeFrames p fs
        let x := s.session o.sid
        let s := s.putSession o.sid { x with state := .live, h := 0 }
        let s := s.allocAppend o.sid p (app.zip fs)
        let s := s.updPromo o.id (fun o => { o with started := true, todo := hot, frames := fs.drop app.length })
        let s := match o.cmd, o.kind with
          | some k, .run _ => (s.updCmd k (fun c => { c with reserved := true })).finishRun k
          | _, _ => s
        s.settlePromo o.id
      else if s.shelf.demotions.any (fun d => d.kind = .evict o.id) ∨ need ≤ free + s.framesComing p then s
      else
        match s.firstToEvict ((s.evictable p).filter (· ≠ o.sid)) with
        | some v =>
          let s := s.lookup v
          if (s.session v).broken then s else s.queueDemo (.evict o.id) v none
        | none => s.endPromo o .noSpace

/-- WAKE (R342 to R345): the promotion at the head of the queue starts, where it is of session `sid` and the moves of a
demotion it has stopped are over. -/
def execWake (sid : Nat) (s : State) : Host.Outcome State Fault Refusal :=
  match s.shelf.promotions with
  | [] => .next s
  | o :: _ => if o.sid ≠ sid ∨ o.started ∨ s.movesIn sid ≠ [] then .next s else .next (s.startPromo o)

/-- A demotion at the head of its queue starts (R348): the entries of the pages it moves are read (R337). -/
def State.startDemo (s : State) (o : ShelfOp) : State :=
  let l := (s.session o.sid).toDemote o.kind.target
  let s := s.readTable o.sid l
  let x := s.session o.sid
  if x.broken then s.endDemo { o with status := .eccUncorrected }
  else
    let s := s.putSession o.sid { x with demoting := true }
    (s.updDemo o.id (fun o => { o with started := true, todo := l })).settleDemo o.id

/-! ### Page moves (R338, R345) -/

/-- The conversion value a Shelf copy carries between LF4 and a KV format, both ways exact or RNE and SAT (R82, R85). -/
def carriedConv (x : Session) (toLf4 : Bool) : Nat :=
  let f := match x.kvFmt with
    | 1 => 5 | 2 => 6 | _ => 8
  if toLf4 then 2 ^ 31 + f + 16 * 7 else 2 ^ 31 + 7 + 16 * f

/-- The eight words of a Shelf copy descriptor of one row of `n` bytes (R316). -/
def shelfCopy (src dst n e : Nat) : Nat := ofLanes 64 [src, dst, n + 2 ^ 32 + 2 ^ 48, 0, 0, 0, e * 256, 0]

/-- The engine a Shelf descriptor goes to: not isolated, with room, the fewest active Shelf descriptors (R345). -/
def State.shelfEngine (s : State) : Option Nat :=
  leastBy (fun e => (((s.engine e).queue 0).filter (fun d => d.active && d.done.isNone)).length)
    ((List.range 16).filter (fun e => !(s.ceIsolated e) && decide (((s.engine e).queue 0).length < 16)))

/-- The descriptor of a move is queued on an engine. -/
def State.queueMove (s : State) (m : PageMove) (src : Page) (x : Session) (e : Nat) : State :=
  let n := if src.c then 32768 else 65536
  let carried := if src.c = m.target.c then some 0 else some (carriedConv x m.target.c)
  let d : CopyDesc :=
    { id := s.serial, owner := .shelf m.id, vi := x.vi, part := x.part, words := shelfCopy src.addr m.target.addr n e
      carried := if src.c = m.target.c then none else carried }
  ({ s with serial := s.serial + 1 }).enqueueCopy e d

/-- Steps 1 and 2 of R338: MOVING is set and the copy is queued. -/
def State.beginMove (s : State) (op sid entry : Nat) (src target : Page) (e : Nat) : State :=
  let m : PageMove := { id := s.serial, op := op, sid := sid, entry := entry, target := target }
  let s := { s with serial := s.serial + 1, shelf := { s.shelf with moves := s.shelf.moves ++ [m] } }
  (s.putPage sid entry (some { src with moving := true })).queueMove m src (s.session sid) e

/-- The next move of a promotion: its entry goes to the lowest reserved frame (R342). -/
def State.issuePromo (s : State) (o : ShelfOp) (e : Nat) : State :=
  match o.todo, o.frames with
  | i :: rest, f :: fs =>
    let x := s.session o.sid
    match x.page i with
    | some p =>
      if p.tier = .t0 then
        ((s.updPromo o.id (fun o => { o with todo := rest })).settlePromo o.id)
      else
        (s.updPromo o.id (fun o => { o with todo := rest, frames := fs })).beginMove o.id o.sid i p
          ⟨.t0, false, false, s.frameAddr x.part f⟩ e
    | none => (s.updPromo o.id (fun o => { o with todo := rest })).settlePromo o.id
  | _, _ => (s.updPromo o.id (fun o => { o with todo := [] })).settlePromo o.id

/-- The page T1 eviction moves next (R350): candidates in the order of R349, first pages outside the hot window. A page for
which the T2 pool of its VI has no room is passed over (DESIGN CHOICE, log entry 84). -/
def State.t1Victim (s : State) (p : Nat) : Option (Nat × Nat) :=
  let cands := (s.shelf.sessions.filter (fun e =>
    (e.2.state = .warm || e.2.state = .cool) && decide (e.2.part = p) && !e.2.pin && !e.2.promoting && !e.2.demoting
      && !e.2.closing && !e.2.broken
      && decide (0 < s.obj (0x5800 + 0x10 * e.2.vi) 3 0))).map (·.1)
  let pages := fun sid (hot : Bool) =>
    let x := s.session sid
    let w := (List.range x.layers).flatMap (s.hotEntries x)
    ((x.pages.filter (fun e => match e.2 with
      | some q => q.tier = .t1 && !q.moving && (w.contains e.1 == hot) && (s.allocT2 x.vi q.c).isSome
      | none => false)).map (·.1)).head?
  let pick := fun hot =>
    let l := cands.filter (fun sid => (pages sid hot).isSome)
    (s.firstToEvict l).bind (fun sid => (pages sid hot).map (fun i => (sid, i)))
  (pick false).or (pick true)

/-- The units of the T1 pool of partition `p` that stay in use once the pages of its sessions that move out of T1, and the
old locations in T1 that wait for tasks, are released. -/
def State.t1After (s : State) (p : Nat) : Sparse Bool :=
  let gone := (s.shelf.retired.filter (fun r => decide (r.part = p))).map (·.page)
    ++ (s.shelf.moves.filter (fun m => decide ((s.session m.sid).part = p) && m.target.tier ≠ .t1)).filterMap
      (fun m => (s.session m.sid).page m.entry)
  (gone.filter (fun q => q.tier = .t1)).foldl (fun l q =>
    let u := (q.addr - s.obj (0x5030 + 0x100 * p) 3 0) / 32768
    (List.range (pageUnits q.c)).foldl (fun l i => Sparse.set false l (u + i) false) l) (s.partition p).t1

/-- A demotion lacks room in T1 for a page of form `c` (R348, R350): it waits where the units on their way to being free
cover the shortfall, else a move of T1 eviction is made for it, else it stops. A victim has at most four moves in flight
(R25). -/
def State.demoShort (s : State) (o : ShelfOp) (p : Nat) (c : Bool) (e : Nat) : State :=
  let l := s.t1After p
  let stop := (s.updDemo o.id (fun o => { o with todo := [], status := .noSpace })).settleDemo o.id
  if (freeUnit (fun u => Sparse.get false l u) l.length (s.obj (0x5030 + 0x100 * p) 4 0 / 32768) (pageUnits c)).isSome then s
  else
    match s.t1Victim p with
    | some (sid, i) =>
      let x := s.session sid
      if 4 ≤ (s.movesIn sid).length then s
      else
        match x.page i with
        | some pg =>
          match s.allocT2 x.vi pg.c with
          | some (a, s) => s.beginMove o.id sid i pg { pg with tier := .t2, moving := false, addr := a } e
          | none => stop
        | none => stop
    | none => stop

/-- The next move of a demotion (R347, R348). -/
def State.issueDemo (s : State) (o : ShelfOp) (e : Nat) : State :=
  match o.todo with
  | [] => s.settleDemo o.id
  | i :: rest =>
    let x := s.session o.sid
    match x.page i with
    | none => (s.updDemo o.id (fun o => { o with todo := rest })).settleDemo o.id
    | some pg =>
      let c := pg.c || (pg.tier = .t0 && x.kvFmt ≠ 0 && s.profile x.vi x.profile 8 = 1)
      let go := fun (s : State) t a => (s.updDemo o.id (fun o => { o with todo := rest })).beginMove o.id o.sid i pg ⟨t, c, false, a⟩ e
      if o.kind.target = 2 then
        match s.allocT2 x.vi c with
        | some (a, s) => go s .t2 a
        | none => (s.updDemo o.id (fun o => { o with todo := [], status := .noSpace })).settleDemo o.id
      else
        match s.allocT1 x.part c with
        | some (a, s) => go s .t1 a
        | none => s.demoShort o x.part c e

/-- Moves of an operation may start: its session has fewer than four in flight and its partition is not HUNG (R25). -/
def State.mayMove (s : State) (o : ShelfOp) : Bool :=
  decide ((s.movesIn o.sid).length < 4) && decide ((s.movesOf o.id).length < 4)
    && (s.partition (s.session o.sid).part).state ≠ .hung

/-- A queued demotion that has become void: its session is in use again or pinned (R346, R351, R353), no longer LIVE where
no command asked for the park, or the promotion that required it has ended. -/
def State.demoVoid (s : State) (o : ShelfOp) : Bool :=
  let x := s.session o.sid
  !o.started && (x.state = .closed || s.active o.sid || x.pin || (o.cmd.isNone && x.state ≠ .live)
    || (match o.kind with
        | .evict op => !(s.shelf.promotions.any (fun p => p.id = op))
        | _ => false))

/-- Operations of HUNG partitions start no move and end HUNG once their moves in flight are over (R33, R345). -/
def State.stopHung (s : State) : State :=
  let hung := fun sid => decide ((s.partition (s.session sid).part).state = .hung)
  let s := (s.shelf.promotions.filter (fun o => o.started && !o.todo.isEmpty && hung o.sid)).foldl (fun s o =>
    (s.updPromo o.id (fun o => { o with todo := [], status := .hung })).settlePromo o.id) s
  (s.shelf.demotions.filter (fun o => hung o.sid)).foldl (fun s o =>
    if !o.started then s.endDemo { o with status := .hung }
    else if o.todo = [] then s
    else (s.updDemo o.id (fun o => { o with todo := [], status := .hung })).settleDemo o.id) s

/-- PAGE_MOVE_ISSUE (R345): the next promotion's move before any demotion's; an eviction runs ahead of the promotion that
requires it; a demotion starts when it reaches the head of its queue and no promotion of its session is left. -/
def execPageMoveIssue (s : State) : Host.Outcome State Fault Refusal :=
  let s := s.stopHung
  match if s.vigil.hung then none else s.shelfEngine with
  | none => .next s
  | some e =>
    match s.shelf.promotions.find? (fun o => o.started && !o.todo.isEmpty && s.mayMove o) with
    | some o => .next (s.issuePromo o e)
    | none =>
      match s.shelf.demotions with
      | [] => .next s
      | o :: _ =>
        if s.demoVoid o then .next (s.endDemo { o with status := .cancelled })
        else if !o.started ∧ (s.shelf.promotions.any (fun p => p.sid = o.sid)) then .next s
        else if !o.started then .next (s.startDemo o)
        else if s.mayMove o then .next (s.issueDemo o e)
        else .next s

/-- A move ends without success: its target goes back to its pool, its entry stays (R338). -/
def State.dropMove (s : State) (m : PageMove) : State :=
  let x := s.session m.sid
  let s := match x.page m.entry with
    | some p => s.putPage m.sid m.entry (some { p with moving := false })
    | none => s
  s.releasePage x.part x.vi m.target

/-- The operation of a move goes on, or ends. -/
def State.afterMove (s : State) (op : Nat) : State := (s.settlePromo op).settleDemo op

/-- Every page and the page table of a session are released; it is CLOSED (R341). -/
def State.closeNow (s : State) (sid : Nat) : State :=
  let x := s.session sid
  let s := x.pages.foldl (fun s e => match e.2 with
    | some p => s.releasePage x.part x.vi p
    | none => s) s
  let y := s.partition x.part
  let b := (x.ptAddr - s.obj (0x5030 + 0x100 * x.part) 5 0) / 4096
  let n := ceilDiv (x.layers * x.pMax * 8) 4096
  let s := s.setPartition x.part { y with pt := (List.range n).foldl (fun m i => Sparse.set false m (b + i) false) y.pt }
  let s := (s.putSession sid {}).svcEvent mgmtNode 0x23 sid
  match x.closeCmd with
  | some k => s.endCmd k .ok 0
  | none => s

/-- A CLOSE whose moves in flight are over is carried out (R354). -/
def State.settleClose (s : State) (sid : Nat) : State :=
  if (s.session sid).closing ∧ s.movesIn sid = [] then s.closeNow sid else s

/-- A session is to be closed (R341, R354): its operations stop, and it is released once its moves in flight are over. -/
def State.closeSession (s : State) (sid : Nat) (k : Option CmdKey) : State :=
  let x := s.session sid
  let s := s.putSession sid { x with closing := true, closeCmd := k }
  let s := (s.shelf.promotions.filter (fun o => o.sid = sid)).foldl (fun s o =>
    s.endPromo o (if o.started then .cancelled else .notFound)) s
  let s := (s.shelf.demotions.filter (fun o => o.sid = sid)).foldl (fun s o => s.endDemo { o with status := .cancelled }) s
  s.settleClose sid

/-- PAGE_MOVE_COMPLETE (R33, R338): step 3 of the move whose copy has been reported. A T2 read that timed out is tried once
more, and a move whose engine was isolated is issued once more on another. -/
def execPageMoveComplete (mv : Nat) (s : State) : Host.Outcome State Fault Refusal :=
  match s.shelf.moves.find? (fun m => m.id = mv) with
  | none => .next s
  | some m =>
    match m.result, (s.session m.sid).page m.entry with
    | some st, some old =>
      let x := s.session m.sid
      let again := !m.again && !x.closing && ((st = .timeout && old.tier = .t2) || st = .targetIsolated)
      match again, s.shelfEngine with
      | true, some e =>
        let m' := { m with again := true, result := none }
        let s := { s with shelf := { s.shelf with moves := s.shelf.moves.map (fun y : PageMove => if y.id = mv then m' else y) } }
        .next (s.queueMove m' old x e)
      | true, none => .next s
      | false, _ =>
        let s := { s with shelf := { s.shelf with moves := s.shelf.moves.filter (fun y : PageMove => y.id ≠ mv) } }
        let s := if st = .ok then
            let s := s.putPage m.sid m.entry (some m.target)
            let y := s.session m.sid
            let y := { y with h := if old.tier = .t2 then max y.h m.longest else y.h
                              failed := y.failed.filter (fun f => f.1 ≠ m.entry) }
            let s := s.putSession m.sid y
            let s := if y.state = .live then s else s.putSession m.sid { s.session m.sid with state := (s.session m.sid).parkedState }
            s.retire x.part x.vi { old with moving := false }
          else
            let s := s.dropMove m
            let y := s.session m.sid
            let s := if m.target.tier = .t0 then
                s.putSession m.sid { y with failed := y.failed.filter (fun f => f.1 ≠ m.entry) ++ [(m.entry, st, false)] }
              else s
            let note := fun (o : ShelfOp) => { o with status := if o.status = .ok then st else o.status }
            (s.updPromo m.op note).updDemo m.op (fun o => { note o with todo := [] })
        .next ((s.afterMove m.op).settleClose m.sid)
    | _, _ => .next s

/-- FRAME_ZEROED (R335): a released frame is zero and counts as free. -/
def execFrameZeroed (p : PartId) (fr : Nat) (s : State) : Host.Outcome State Fault Refusal :=
  let x := s.partition p.val
  if x.framesZeroing.contains fr then
    let s := s.zeroFrame p.val fr
    let x := s.partition p.val
    .next (s.setPartition p.val { x with framesZeroing := x.framesZeroing.erase fr, frames := Sparse.set false x.frames fr false })
  else .next s

/-- The idle timer of a session runs (R346, R351). -/
def State.idleRuns (s : State) (sid : Nat) : Bool :=
  let x := s.session sid
  x.state = .live && !x.pin && !(s.active sid) && !x.promoting && !x.demoting && !x.closing
    && !(s.shelf.promotions.any (fun o => o.sid = sid)) && !(s.shelf.demotions.any (fun o => o.sid = sid))

/-- IDLE_PARK (R346): the idle timer has reached IDLE_TIME, and a park to PARK_TIER is queued. -/
def execIdlePark (sid : Nat) (s : State) : Host.Outcome State Fault Refusal :=
  if s.idleRuns sid then
    let s := s.lookup sid
    let x := s.session sid
    if x.broken then .next s else .next (s.queueDemo (.park (s.profile x.vi x.profile 6)) sid none)
  else .next s

/-! ### Resets (R354, R355, R369) -/

/-- RESET_POLICY for every session of a VI (R369). -/
def State.applyResetPolicy (s : State) (v : Nat) : State :=
  let sids := (s.shelf.sessions.filter (fun e => decide (e.2.vi = v) && e.2.state ≠ .closed)).map (·.1)
  if s.obj (0x5809 + 0x10 * v) 1 0 = 1 then sids.foldl (fun s sid => s.closeSession sid none) s
  else
    sids.foldl (fun (s : State) (sid : Nat) =>
      -- a running promotion stops at its next issue
      let s : State := { s with shelf := { s.shelf with promotions := s.shelf.promotions.map (fun o : ShelfOp =>
        if o.sid = sid then { o with todo := [], started := true, status := .cancelled, cmd := none } else o) } }
      let s : State := (s.shelf.promotions.filter (fun o => o.sid = sid)).foldl (fun s o => s.settlePromo o.id) s
      let x : Session := s.session sid
      if (x.state = .live ∧ x.pin = false) then (s.putSession sid x).queueDemo (.park 1) sid none else s.putSession sid x) s

/-- What a device reset, or a partition reset, does to the sessions of partition `p` (R355). -/
def State.shelfReset (s : State) (p : Nat) : State :=
  let sids := (s.shelf.sessions.filter (fun e => decide (e.2.part = p))).map (·.1)
  let h := s.shelf
  let s := { s with shelf := { h with
      promotions := h.promotions.filter (fun o => !(sids.contains o.sid))
      demotions := h.demotions.filter (fun o => !(sids.contains o.sid))
      moves := h.moves.filter (fun m => !(sids.contains m.sid))
      retired := h.retired.filter (fun r => r.part ≠ p)
      cache := [] } }
  -- targets of moves and old locations that were on their way go back to their pools
  let s := (h.moves.filter (fun m => sids.contains m.sid)).foldl (fun s m =>
    s.releasePage p (s.session m.sid).vi m.target) s
  let s := (h.retired.filter (fun r => decide (r.part = p))).foldl (fun s r => s.releasePage r.part r.vi r.page) s
  let s := sids.foldl (fun s sid =>
    let x := s.session sid
    if 0 < x.count (fun q => q.tier = .t0) ∨ x.closing then s.closeNow sid
    else
      let s := (x.pages.filter (fun e => match e.2 with
        | some q => q.moving
        | none => false)).foldl (fun s e => s.putPage sid e.1 (e.2.map (fun q => { q with moving := false }))) s
      let x := s.session sid
      -- a LIVE session without T0 pages keeps no state that R340 would not give it
      s.putSession sid { x with promoting := false, demoting := false, failed := [] }) s
  -- the slices are zero after the reset, so every frame is free
  let y := s.partition p
  s.setPartition p { y with frames := [], framesZeroing := [] }

end Sys2Proof.Machine
end

