-- ==== Sys2Proof/Machine/Partition.lean ====
section
/-! DEFINITION. Partitions (R356, R357, R371), fences (R360, R362) and the reset of virtual instances (R364 to R370, R379,
R402, R403). -/

namespace Sys2Proof.Machine

/-! ### VI reset (R367 to R369, R403) -/

/-- Tasks of VI `v` in cluster `c`, with their queues. -/
def State.viTasks (s : State) (v c : Nat) : List (Nat × Task) :=
  (s.seq c).queues.flatMap (fun q => (q.2.filter (fun t => t.cmd.vi = v)).map (fun t => (q.1, t)))

/-- Step 2 of R367: PENDING and READY tasks of `v` leave CANCELLED; tiles of the DISPATCHED ones stop issuing. -/
def State.viCancelTasks (s : State) (v : Nat) : State :=
  (List.range 8).foldl (fun s c =>
    (s.viTasks v c).foldl (fun s e =>
      if e.2.phase = .dispatched then
        (taskTiles c e.2.desc).foldl (fun s t =>
          if h : t < 4096 then s.setTile ⟨t, h⟩ { s.tile ⟨t, h⟩ with stopped := true } else s) s
      else s.taskOut c e.1 e.2 .cancelled) s) s

/-- Step 3 of R367: every descriptor of `v` in a VI queue is void, and one that waits for a queue is dropped. -/
def State.viVoidCopies (s : State) (v : Nat) : State :=
  let s := { s with copyWait := s.copyWait.filter (fun d => !(d.vi = v && d.owner.queue v = 2 + v)) }
  (List.range 16).foldl (fun s e =>
    ((s.engine e).queue (2 + v)).foldl (fun s d => s.settleCopy e (2 + v) { d with voided := true }) s) s

/-- The link on which VI `v` appears (R383). -/
def State.linkOf (s : State) (v : Nat) : Nat :=
  if s.host.bifurcation = 1 ∧ v ≠ 0 ∧ (s.obj 0x6000 9 0).testBit v then 1 else 0

/-- The SR-IOV settings enable VI `v`, by its number among the VFs of its link (R364, R383). -/
def State.vfOn (s : State) (v : Nat) : Bool :=
  let l := s.linkOf v
  let g := if l = 0 then s.host.sriov else s.host.sriov1
  let n := ((List.range v).filter (fun w => s.linkOf (w + 1) = l)).length
  v ≠ 0 && g.2 && decide (n ≤ g.1)

/-- A reset of higher priority than one of a VI or a cluster is under way: a power-on or device reset is held, or partition
`p` reads RESETTING (R21). -/
def State.absorbs (s : State) (p : Option Nat) : Bool :=
  s.power.porHeld || !s.power.holds.isEmpty || p.any (fun p => (s.partition p).state = .resetting)

/-- A VI reset starts (R367, steps 1 to 3); one of a VI already RESETTING is merged into the running one, and one that comes
during a reset of higher priority is absorbed (R21, R379). The commands of the VI end VI_RESET. -/
def State.startViReset (s : State) (v : Nat) : State :=
  let x := s.vi v
  if x.resetting.isSome then s
  else if s.absorbs (s.viPart v) then s.setVi v { x with vf := x.vf && s.vfOn v }
  else
    let rings := x.rings.map (fun r => (r.1, { r.2 with fetch := none }))
    let s := s.setVi v { x with resetting := some s.calends, rings := rings }
    let s : State := { s with
      host := { s.host with cmds := s.host.cmds.map (fun c : Cmd =>
        if c.key.vi ≠ v then c
        else
          let c := { c with cancelled := some .viReset, tasksNot := c.tasksNot + c.items.length, items := [] }
          if entryOp c.entry = 1 ∧ c.phase = CmdPhase.running then c else { c with phase := .ended, status := .viReset, tEnd := s.calends }) }
      loads := s.loads.filter (fun l : Load => l.key.vi ≠ v) }
    let s := (s.viCancelTasks v).viVoidCopies v
    (s.host.cmds.filter (fun c => c.key.vi = v)).foldl (fun s c => s.finishRun c.key) s

/-- Requests of VI `v` outstanding at tiles, copy engines, the PCIe/CXL port and the management core, Shelf page moves
left out (R367): node and request. -/
def State.viRequests (s : State) (v : Nat) : List (Nat × Req) :=
  s.net.initiators.flatMap (fun i =>
    let counts := match nodeKind i.1 with
      | some (.tile _) | some (.copyEngine _) | some .pcie | some .mgmt => true
      | _ => false
    if counts then
      (i.2.out.filter (fun r => r.pkt.vi.toNat = v && (match r.purpose with
        | .copyRead 0 _ _ _ _ | .copyWrite 0 _ _ _ => false
        | _ => true))).map (fun r => (i.1, r))
    else [])

/-- The base of the resident band in every tile of partition `p` (R373). -/
def State.bandBase (s : State) (p : Nat) : Nat := 0x18000 - s.obj (0x5040 + 0x100 * p) 2 0

/-- Replies to the tile's outstanding requests will be discarded and not written (R367, step 4). -/
def State.voidTags (s : State) (t : Nat) : State :=
  let i := s.initiator t
  s.setInitiator t { i with out := i.out.map (fun r => { r with purpose := .other }), waiting := [] }

/-- Steps 4 and 5 of R367 for one tile. -/
def State.scrubTile (s : State) (t : TileId) (id : Nat) : State :=
  let s := s.stopTile t .aborted id
  let s := s.setTile t { s.tile t with xfers := [], progLen := 0 }
  let s := s.voidTags t.val
  let c := clusterOfTile t.val
  let s := s.holdProgram c [t.val] none
  let p := (s.partOfCluster c).getD 0
  (s.zero (tileAddr t.val 0) (s.bandBase p)).zero (tileAddr t.val 0x1A000) 0xC00

/-- VI_TILE_SCRUB (R367): the tiles that run tasks of the VI stop and are cleared, and those tasks end ABORTED. -/
def execViTileScrub (v : ViId) (s : State) : Host.Outcome State Fault Refusal :=
  if (s.vi v.val).resetting.isNone then .next s
  else
    .next ((List.range 8).foldl (fun s c =>
      ((s.viTasks v.val c).filter (fun e => e.2.phase = .dispatched)).foldl (fun s e =>
        let s := (taskTiles c e.2.desc).foldl (fun s t =>
          if h : t < 4096 then s.scrubTile ⟨t, h⟩ (taskId e.2.desc) else s) s
        (s.taskOut c e.1 e.2 .aborted).finishRun e.2.cmd) s) s)

/-- A VI reset completes (R367 to R369, R403). -/
def State.endViReset (s : State) (v : Nat) : State :=
  let x := s.vi v
  let t0 := x.resetting.getD s.calends
  let rings := x.rings.map (fun r => (r.1, { r.2 with enable := false, head := 0, tail := 0, fetch := none }))
  let s := s.setVi v
    { x with resetting := none, lastReset := min (2 ^ 32 - 1) (s.calends - t0), rings := rings, cqEnable := false,
             cqTail := 0, cqHead := 0, vf := x.vf && s.vfOn v }
  let s := { s with host := { s.host with cmds := s.host.cmds.filter (fun c => c.key.vi ≠ v) } }
  ((s.svcEvent mgmtNode 0x27 v).fnEvent v 0).applyResetPolicy v

/-- Tasks of the VI are still DISPATCHED. -/
def State.viDispatched (s : State) (v : Nat) : Bool :=
  (List.range 8).any (fun c => (s.viTasks v c).any (fun e => e.2.phase = .dispatched))

/-- A freeze that is not yet dumped covers partition `p` (R509, R521). -/
def State.freezing (s : State) (p : Nat) : Bool := s.vigil.freezes.any (fun f => f.scope = p || f.scope = 8)

/-- A VI reset is requested: after the freeze of its scope it waits for DONE (R530). -/
def State.requestViReset (s : State) (v : Nat) : State :=
  if s.freezing ((s.viPart v).getD 8) then
    { s with vigil := { s.vigil with waitingVis := (s.vigil.waitingVis ++ [v]).eraseDups } }
  else s.startViReset v

/-- VI_RESET (R367, R379, R530). -/
def execViReset (v : ViId) (s : State) : Host.Outcome State Fault Refusal := .next (s.requestViReset v.val)

/-- VI_RESET_COMPLETE (R367): no request of the VI is in flight and its tiles are cleared. -/
def execViResetComplete (v : ViId) (s : State) : Host.Outcome State Fault Refusal :=
  if (s.vi v.val).resetting.isSome ∧ s.viRequests v.val = [] ∧ !(s.viDispatched v.val) then .next (s.endViReset v.val)
  else .next s

/-! ### Resets of a cluster and of a partition (R96, R123, R148, R212, R244, R326, R371) -/

/-- The nodes of cluster `c` that a reset of the cluster covers: tiles, slices and the sequencer. -/
def inCluster (c n : Nat) : Bool :=
  match nodeKind n with
  | some (.tile t) => decide (clusterOfTile t = c)
  | some (.slice sl) => decide (sl / 64 = c)
  | some (.sequencer k) => decide (k = c)
  | _ => false

/-- A tile after a reset of its scope (R123, R148, R506): counters keep counting, the event ring is emptied. -/
def Tile.reset (x : Tile) : Tile := { counters := x.counters, ring := x.ring.empty }

/-- Every request held in an intake of the scope whose initiator lies outside it is answered ABORTED (R546, step 2). -/
def State.abortIntakes (s : State) (scope : Nat → Bool) : State :=
  (s.net.targets.flatMap (fun t => if scope t.1 then t.2.intake.filter (fun e => !(scope e.pkt.src.toNat)) else [])).foldl
    (fun s e => s.respond e.pkt e.mesh (answerCmd e.pkt.cmd.toNat) .aborted 0 0) s

/-- Isolation in cluster `c` is lifted, except of the nodes that fail the reset's test (R291, R294). -/
def State.liftIsolation (s : State) (c : Nat) (failing : List NodeId) : State :=
  let stays := fun (n : Nat) => failing.any (fun f => f.toNat = n)
  let lifted := fun (n : Nat) => inCluster c n && !(stays n)
  let s := [c, 8 + c].foldl (fun s d =>
    s.setPorch d { s.porch d with failed := (s.porch d).failed && failing.any (fun f => domainOf f.toNat = some d) }) s
  { s with net := { s.net with
      targets := s.net.targets.filterMap (fun t =>
        let x := if lifted t.1 then { t.2 with shim := false } else t.2
        if x = {} then none else some (t.1, x))
      isolated := s.net.isolated.filter (fun e => !(lifted e.1)) } }

/-- Buffers of the nodes of a cluster and its porches are emptied; slots and entries they held come back (R278, R299, R546). A
node that is isolated stays so until the reset's test (R291). -/
def State.resetBuffers (s : State) (c : Nat) : State :=
  let ini := s.net.initiators.filterMap (fun i =>
    let x := i.2
    let x := if inCluster c i.1 then { x with out := [], held := [], waiting := [] }
      else { x with held := x.held.filter (fun h => !(inCluster c h.1)) }
    if x = {} then none else some (i.1, x))
  let s := [c, 8 + c].foldl (fun s d => s.setPorch d { failed := (s.porch d).failed }) s
  { s with net := { s.net with initiators := ini
                               targets := s.net.targets.filterMap (fun t =>
                                 if !(inCluster c t.1) then some t
                                 else if t.2.shim then some (t.1, { shim := true }) else none) } }

/-- A reset of cluster `c` (R123, R148, R212): its tiles, its queues and tallies, its buffers. -/
def State.resetCluster (s : State) (c : Nat) : State :=
  let tiles := s.tiles.filterMap (fun e =>
    if clusterOfTile e.1 = c then
      let x := e.2.reset
      if x = {} then none else some (e.1, x)
    else some e)
  let s := ({ s with tiles := tiles }).zero (tileAddr (512 * c) 0) (512 * 0x20000)
  let q := s.seq c
  let s := s.setSeq c { q with queues := [], tallies := [], watches := [], programs := [], lastDispatch := none }
  s.resetBuffers c

/-- A cluster reset leaves the tree (R244): its eyelets lose what they hold, and in every open operation each member tile of
the cluster counts as having contributed ERR ABORTED; an operation that waits above the cluster root has its higher eyelets
combine again with the ERR that comes from it. -/
def State.laceClusterReset (s : State) (c : Nat) : State :=
  match s.partOfCluster c with
  | none => s
  | some p =>
    (List.range 4).foldl (fun s ch =>
      let x := s.ctx p ch
      let mine := x.expected.filter (fun t => clusterOfTile t = c)
      let arr := if x.active then mine.foldl (fun a t => Sparse.set none a t (some (laceErr .aborted))) x.arrived else x.arrived
      let above := x.result.isNone && !mine.isEmpty
      let eyelets := fun e => decide (e < 512 ∧ e / 64 = c) || decide (512 ≤ e ∧ e < 576 ∧ (e - 512) / 8 = c) || decide (e = 576 + c)
        || (above && !x.sentUp && (e = 584 + c / 4 || e = 586))
      s.setCtx p ch { x with arrived := arr, heldNext := x.heldNext.filter (fun e => clusterOfTile e.1 ≠ c)
                             passed := x.passed.filter (fun e => !(eyelets e.1)) }) s

/-- The Lacing contexts, member maps and objects of partition `p` (R244). -/
def State.laceReset (s : State) (p : Nat) : State :=
  let l := s.lacing
  let s := { s with lacing := { l with
      ctxs := l.ctxs.filter (fun e => e.1 / 4 ≠ p), counters := l.counters.filter (fun e => e.1 / 3 ≠ p)
      toPorts := l.toPorts.filter (fun m => m.2.1 / 4 ≠ p) } }
  s.clearObjs (0x5020 + 0x100 * p) (0x5021 + 0x100 * p)

/-- VIs bound to partition `p` (R365). -/
def State.visOf (s : State) (p : Nat) : List Nat := (List.range 64).filter (fun v => s.viPart v = some p)

/-- What a partition reset does (R371): its VIs are reset, its tasks aborted, its tables, tiles, queues, contexts, slices and
sessions initialised, its models released. HBM, fences and bindings are kept. The conversion table is cleared, but a commit
that is still pending keeps its values, and COMMIT_APPLY writes them after the reset (DESIGN CHOICE, log entry 89: R96 does
not say which is last). -/
def State.resetPartition (s : State) (p : Nat) : State :=
  let s := (s.visOf p).foldl (fun s v => s.startViReset v) s
  let cl := s.clustersOf p
  let s := s.abortIntakes (fun n => cl.any (fun c => inCluster c n))
  let s := cl.foldl (fun s c =>
    ((s.seq c).queues.flatMap (fun q => q.2.map (fun t => (q.1, t)))).foldl (fun s e =>
      (s.cancelTask c e.1 e.2).finishRun e.2.cmd) s) s
  let s := cl.foldl (fun s c => (s.resetCluster c).zero (sliceAddr (64 * c) 0) (64 * sliceBytes)) s
  let s := (s.clearObjs (0x5010 + 0x100 * p) (0x5010 + 0x100 * p)).laceReset p
  let s := s.shelfReset p
  let x := s.partition p
  s.setPartition p { x with models := [] }

/-! ### CLUSTER_MAP and PART_STATE (R356, R357) -/

/-- Pending values of the objects of partition `p` are discarded (R449). -/
def State.dropPartValues (s : State) (p : Nat) : State :=
  let ofPart := fun (k : Nat) => decide (0x5000 + 0x100 * p ≤ k / 256 ∧ k / 256 < 0x5100 + 0x100 * p)
  { s with dict := { s.dict with
      commits := s.dict.commits.map (fun c : Commit => { c with values := c.values.filter (fun e => !(ofPart e.1)) }) } }

/-- A partition is dissolved: its clusters leave it, and their domains are turned off (R96, R212, R244, R357). -/
def State.dissolve (s : State) (p : Nat) : State :=
  let cl := s.clustersOf p
  let s := s.abortIntakes (fun n => cl.any (fun c => inCluster c n))
  let s := cl.foldl (fun s c =>
    let s := ((s.resetCluster c).clearObjs (0x4010 + 0x100 * c) (0x4011 + 0x100 * c)).zero (sliceAddr (64 * c) 0) (64 * sliceBytes)
    (s.setDomain c .off).setDomain (8 + c) .off) s
  let s := (s.clearObjs (0x5010 + 0x100 * p) (0x5010 + 0x100 * p)).laceReset p
  let x := s.partition p
  let s := s.dropPartValues p
  s.setPartition p { x with clusters := 0, state := .dissolved, since := s.calends, models := [], frames := []
                            framesZeroing := [], evictions := 0, noSpace := 0 }

/-- The disable map governs the clusters of a mask from the cycle in which they join a partition (R59, R62). -/
def State.takeDisableMap (s : State) (v : Nat) : State :=
  let map := s.obj 0x1006 0 0
  let joins := fun (t : Nat) => v.testBit (clusterOfTile t)
  { s with disabledTiles := s.disabledTiles.filter (fun t => !(joins t))
      ++ (if map = 0 then [] else (List.range 4096).filter (fun t => joins t && map.testBit t)) }

/-- Links that failed a test of a cluster's mesh are left out of the route tables from the join of the cluster on (R570). -/
def State.takeBadLinks (s : State) (v : Nat) : State :=
  let l := s.test.badLinks.filter (fun k => decide (k.c < 8) && v.testBit k.c)
  { s with net := { s.net with failedLinks := (s.net.failedLinks ++ l).eraseDups }
           test := { s.test with badLinks := s.test.badLinks.filter (fun k => !(l.contains k)) } }

/-- A partition is formed (R357): the disable map is taken for its clusters, its domains are turned on and the partition
reset is applied. -/
def State.form (s : State) (p v : Nat) : State :=
  let s := (s.takeDisableMap v).takeBadLinks v
  let x := s.partition p
  let s := s.setPartition p { x with clusters := BitVec.ofNat 8 v, state := .forming, since := s.calends, evictions := 0
                                     noSpace := 0 }
  let s := (s.clustersOf p).foldl (fun s c =>
    let s := (s.setPorch c { s.porch c with failed := false }).setPorch (8 + c) { s.porch (8 + c) with failed := false }
    (s.setDomain c .waking).setDomain (8 + c) .waking) s
  (s.clearObjs (0x5030 + 0x100 * p) (0x5030 + 0x100 * p)).resetPartition p

/-- A write of CLUSTER_MAP: its status, and the state after it (R356, R357, R365, R520, R575). -/
def State.writeClusterMap (s : State) (p v : Nat) : Status × State :=
  let others := (List.range 8).any (fun q => q ≠ p && decide ((s.partition q).clusters &&& BitVec.ofNat 8 v ≠ 0))
  if 256 ≤ v then (.illegalEncoding, s)
  else if s.visOf p ≠ [] ∨ (s.partition p).state = .hung ∨ s.power.bootSel = 3 then (.busyStopClass, s)
  else if others then (.badValue, s)
  else
    let s := if (s.partition p).clusters ≠ 0 then s.dissolve p else s
    (.ok, if v ≠ 0 then s.form p v else s)

/-- The greatest epoch of the clusters of `p`, under the comparison of R196 (R449). -/
def State.greatestEpoch (s : State) (p : Nat) : BitVec 32 :=
  match s.clustersOf p with
  | [] => 0
  | c :: cs => cs.foldl (fun e k => if reaches (s.seq k).epoch e then (s.seq k).epoch else e) (s.seq c).epoch

/-- Every cluster of `p` takes the greatest of their epochs (R449). -/
def State.levelEpochs (s : State) (p : Nat) : State :=
  let e := s.greatestEpoch p
  (s.clustersOf p).foldl (fun s c => s.setSeq c { s.seq c with epoch := e }) s

/-- The reset of a partition has tested the isolated nodes of its clusters: those that do not fail are isolated no longer
(R291). -/
def State.liftPartition (s : State) (p : Nat) (failing : List NodeId) : State :=
  (s.clustersOf p).foldl (fun s c => s.liftIsolation c failing) s

/-- PARTITION_READY (R291, R357, R449): the domains of a forming partition are on, its epochs are made equal, its isolated nodes
are tested, and it reports ready. -/
def execPartitionReady (up : PartUp) (s : State) : Host.Outcome State Fault Refusal :=
  let p := up.part
  let x := s.partition p.val
  if x.state = .forming ∧ (s.clustersOf p.val).all (fun c => s.domain c = .on && s.domain (8 + c) = .on) then
    .next (((s.levelEpochs p.val).liftPartition p.val up.failing).setPartition p.val { x with state := .ready, since := s.calends })
  else .next s

/-- FORMING_TIMEOUT (R357, R294, spec/13 "When it fails"): PART_STATE stays FORMING; the nodes of the failing cluster are
isolated and its tiles are not enabled. -/
def execFormingTimeout (p : PartId) (failing : Nat) (s : State) : Host.Outcome State Fault Refusal :=
  let x := s.partition p.val
  if x.state = .forming ∧ failing < 8 ∧ x.clusters.getLsbD failing then
    let s := (s.setPorch failing { s.porch failing with failed := true }).setPorch (8 + failing)
      { s.porch (8 + failing) with failed := true }
    let ts := ((List.range 512).map (· + 512 * failing)).filter (fun t => !(s.disabledTiles.contains t))
    .next ({ s with disabledTiles := s.disabledTiles ++ ts }.declareDead (seqNode failing) 3)
  else .next s

/-- A partition reset is started (R371), unless a reset of higher priority absorbs it (R21). -/
def State.startPartReset (s : State) (p : Nat) : State :=
  let x := s.partition p
  if x.clusters = 0 ∨ s.absorbs none then s
  else
    let s := s.resetPartition p
    let x := s.partition p
    s.setPartition p { x with state := if x.state = .forming then .forming else .resetting, since := s.calends }

/-- A partition reset is requested (R371, R520): refused while the device is HUNG; while the partition's freeze is not yet
dumped it waits for DONE. -/
def State.requestPartReset (s : State) (p : Nat) : Status × State :=
  if s.vigil.hung then (.busyStopClass, s)
  else if s.freezing p then
    (.ok, { s with vigil := { s.vigil with waitingParts := (s.vigil.waitingParts ++ [p]).eraseDups } })
  else (.ok, s.startPartReset p)

/-- PART_RESET (R371, R520). -/
def execPartReset (p : PartId) (s : State) : Host.Outcome State Fault Refusal := .next (s.requestPartReset p.val).2

/-- PART_RESET_COMPLETE (R291, R371): the resets of the partition's VIs are over, and its isolated nodes are tested. -/
def execPartResetComplete (up : PartUp) (s : State) : Host.Outcome State Fault Refusal :=
  let p := up.part
  let x := s.partition p.val
  if x.state = .resetting ∧ (s.visOf p.val).all (fun v => (s.vi v).resetting.isNone) then
    .next ((s.liftPartition p.val up.failing).setPartition p.val { x with state := .ready, since := s.calends })
  else .next s

/-! ### Fences (R360 to R362) -/

/-- What is left of a list of ranges once `[b, b + m)` is taken out of each. -/
def cutRange (l : List (Nat × Nat)) (b m : Nat) : List (Nat × Nat) :=
  l.flatMap (fun r =>
    if overlaps r.1 r.2 b m then
      [(r.1, b - r.1), (b + m, r.1 + r.2 - (b + m))].filter (fun x => decide (x.2 ≠ 0))
    else [r])

/-- Parts of some ranges that others do not cover. -/
def cutAll (l cuts : List (Nat × Nat)) : List (Nat × Nat) := cuts.foldl (fun l c => cutRange l c.1 c.2) l

/-- Every byte of `[b, b + m)` lies in one of some ranges (R333, R360). -/
def coveredBy (l : List (Nat × Nat)) (b m : Nat) : Bool := decide (m = 0) || (cutAll [(b, m)] l).isEmpty

/-- The Shelf area and the Vigil area (R553): base and size. -/
def State.reservedAreas (s : State) : List (Nat × Nat) :=
  [(s.descBase, s.vigilBase - s.descBase), (s.vigilBase, hbmBytes s - s.vigilBase)]

/-- A write of one fence object, sub-index `i` (R360, R362): its status, and the state after it. -/
def State.writeFence (s : State) (p i v : Nat) : Status × State :=
  let old := s.fences p
  let k := i % 4
  let upd := fun (r : Nat × Nat) => if i < 4 then (v, r.2) else (r.1, v)
  let new := old.zipIdx.map (fun e => if e.2 = k then upd e.1 else e.1)
  let r := new.getD k (0, 0)
  let clash := (List.range 8).any (fun q => q ≠ p && (s.fences q).any (fun f => overlaps r.1 r.2 f.1 f.2))
    || s.reservedAreas.any (fun f => overlaps r.1 r.2 f.1 f.2)
  let sub := fun j => s.obj (0x5030 + 0x100 * p) j 0
  let covered := coveredBy new
  let srcs := (s.partition p).models.flatMap (fun e => match e.2 with
    | some m => m.srcs
    | none => [])
  if v % 0x20000 ≠ 0 ∨ hbmBytes s < r.1 + r.2 ∨ clash then (.badValue, s)
  else if !(covered (sub 3) (sub 4)) ∨ !(covered (sub 5) (sub 6)) ∨ !(srcs.all (fun m => covered m.1 m.2)) then
    (.busyStopClass, s)
  else if (List.range 8).any (fun q => (s.partition q).zeroing.any (fun z => overlaps r.1 r.2 z.1 z.2)) then
    (.busyStopClass, s)
  else
    let gone := cutAll (old.filter (fun f => decide (f.2 ≠ 0))) new
    let x := s.partition p
    let s := s.setPartition p { x with zeroing := x.zeroing ++ gone.filter (fun g => !(x.zeroing.contains g)) }
    (.ok, s.setObj (0x5001 + 0x100 * p) i 0 v)

/-- FENCE_ZEROING_DONE (R362). -/
def execFenceZeroingDone (p : PartId) (s : State) : Host.Outcome State Fault Refusal :=
  let x := s.partition p.val
  let s := x.zeroing.foldl (fun s r => s.zero r.1 r.2) s
  .next (s.setPartition p.val { s.partition p.val with zeroing := [] })

end Sys2Proof.Machine
end

