-- ==== Sys2Proof/Machine/Objects.lean ====
section
/-! DEFINITION. The objects of the dictionary: the description of every object (R61, R92, R211, R222, R237, R275, R298,
R325, R352, R378, R405, R434, R468, R471 to R484) and the value a READ returns (R437, R441, R472). -/

namespace Sys2Proof.Machine

/-! ### Descriptions (R437) -/

/-- Access of an object (R13). -/
inductive ObjAccess where
  | ro | rw | wo
deriving DecidableEq, Repr

/-- Change class of an object (R19). -/
inductive ObjChange where
  | none | live | boundary | stop
deriving DecidableEq, Repr

/-- An object: access, level, change class; bytes of an element and how many elements it takes, with other counts a value
may have, or any count up to the greatest; default; the values an ENUM or BOOL may have; reserved bits; ranges. A value of
variable length is kept with a 1 above its last byte. -/
structure ObjDesc where
  acc : ObjAccess
  expert : Bool := false
  change : ObjChange := .none
  elem : Nat
  max : Nat := 1
  counts : List Nat := []
  any : Bool := false
  dflt : Nat := 0
  enums : List Nat := []
  reserved : Nat := 0
  ranges : List (Nat × Nat) := []
  mult : Nat := 1
deriving DecidableEq, Repr

/-- A read-only object of `n` elements of `e` bytes. -/
def ro (e n : Nat) : ObjDesc := { acc := .ro, elem := e, max := n }
/-- A read-only array, or string, of at most `n` elements. -/
def roVar (e n : Nat) : ObjDesc := { acc := .ro, elem := e, max := n, any := true }
/-- A number of `e` bytes from `lo` to `hi`. -/
def rwNum (e : Nat) (ex : Bool) (c : ObjChange) (d lo hi : Nat) : ObjDesc :=
  { acc := .rw, elem := e, expert := ex, change := c, dflt := d, ranges := [(lo, hi)] }
/-- A number from `lo` to `hi`, or 255 for none. -/
def rwOr255 (ex : Bool) (c : ObjChange) (d hi : Nat) : ObjDesc :=
  { acc := .rw, elem := 1, expert := ex, change := c, dflt := d, ranges := [(0, hi), (255, 255)] }
/-- A number of `e` bytes without limits. -/
def rwAny (e : Nat) (ex : Bool) (c : ObjChange) (d : Nat) : ObjDesc :=
  { acc := .rw, elem := e, expert := ex, change := c, dflt := d }
/-- An ENUM of one byte. -/
def rwEnum (ex : Bool) (c : ObjChange) (d : Nat) (vs : List Nat) : ObjDesc :=
  { acc := .rw, elem := 1, expert := ex, change := c, dflt := d, enums := vs }
/-- A BOOL. -/
def rwBool (ex : Bool) (c : ObjChange) (d : Nat) : ObjDesc := rwEnum ex c d [0, 1]
/-- A BOOL to which only 1 is written. -/
def woOne (ex : Bool) : ObjDesc :=
  { acc := .wo, elem := 1, expert := ex, change := .live, enums := [0, 1], ranges := [(1, 1)] }
/-- An array of `n` elements of `e` bytes, written whole. -/
def rwArray (e n : Nat) (ex : Bool) (c : ObjChange) : ObjDesc :=
  { acc := .rw, elem := e, max := n, expert := ex, change := c }
/-- An array of no or `n` bytes. -/
def rwBytes (n : Nat) (ex : Bool) (c : ObjChange) : ObjDesc :=
  { acc := .rw, elem := 1, max := n, counts := [0, n], expert := ex, change := c, dflt := 1 }

/-- The objects of identity, transports and device (R61, R468, R475 to R479). -/
def descDevice (i sub : Nat) : Option ObjDesc :=
  match i with
  | 0x1000 => [roVar 1 32, roVar 1 16, roVar 1 16, roVar 1 16][sub]?
  | 0x1001 => [ro 2 1, roVar 1 24, ro 2 1][sub]?
  | 0x1002 => [ro 4 1, ro 4 1, ro 4 1][sub]?
  | 0x1003 => [ro 1 1, ro 4 1][sub]?
  | 0x1004 => if sub ≤ 8 then some (ro 2 1) else none
  | 0x1005 => if sub ≤ 2 then some (ro 8 64) else none
  | 0x1006 => [rwArray 8 64 true .stop][sub]?
  | 0x1007 => [ro 1 1, ro 4 1][sub]?
  | 0x1008 => [roVar 2 264, roVar 2 264, ro 2 1, ro 2 1][sub]?
  | 0x1010 => [rwEnum false .live 0 [0, 1]][sub]?
  | 0x1020 => [ro 4 1, ro 2 1, ro 1 1, roVar 1 40, rwNum 4 false .live 100 1 60000, woOne false][sub]?
  | 0x1021 => [ro 4 8][sub]?
  | 0x1100 => [rwNum 1 false .stop 1 1 254, rwBool false .live 1, rwEnum false .stop 0 [0, 1],
      rwEnum false .stop 2 [0, 1, 2, 3], rwEnum false .stop 2 [0, 1, 2, 3, 4, 5], rwNum 2 false .stop 800 500 900,
      rwNum 2 false .stop 750 500 900, ro 1 1, rwNum 1 false .live 8 1 31][sub]?
  | 0x1110 => [rwBool false .stop 0, rwNum 2 false .stop 10 1 1000, rwNum 1 false .stop 0 0 16, ro 4 1][sub]?
  | 0x1111 => if sub < 16 then some (rwNum 4 false .stop 0 0 999999) else none
  | 0x1112 => if sub < 16 then some (rwNum 4 false .stop 0 0 1000000) else none
  | 0x1150 => [rwBool false .live 1, rwEnum false .stop 1 [0, 1], rwAny 4 false .stop 0, rwNum 1 false .stop 0 0 32,
      rwAny 4 false .stop 0, rwBytes 16 false .stop, ro 8 1][sub]?
  | 0x1151 => if sub < 16 then some (rwBytes 17 true .live) else none
  | 0x1160 => [ro 8 10][sub]?
  | 0x2000 => [ro 1 1, ro 1 1, ro 1 1][sub]?
  | 0x2100 => [ro 1 1, ro 8 1, ro 8 1, ro 8 1][sub]?
  | 0x3000 => [ro 2 1, ro 2 1, ro 2 8][sub]?
  | 0x3001 => [rwBool true .boundary 0, rwBool true .boundary 0][sub]?
  | 0x3100 => if sub < 64 then some (rwOr255 true .stop 255 7) else none
  | 0x3101 => [rwNum 4 true .boundary 4096 64 1048576][sub]?
  | 0x3102 => if sub < 5 then some (rwNum 4 true .live 50 1 10000) else none
  | 0x3103 => [rwNum 4 true .live 1000 10 1000000, rwBool true .live 1, rwNum 2 true .live 16 1 65535,
      rwNum 4 true .live 1000 1 1000000][sub]?
  | 0x3104 => [{ acc := .wo, elem := 2, expert := true, change := .live }, roVar 2 4674][sub]?
  | 0x3105 => [rwNum 2 true .live 4 1 65535, rwNum 4 true .live 1000 1 1000000][sub]?
  | 0x3200 => [rwNum 1 true .stop 0 0 63, rwOr255 true .stop 255 7, rwAny 1 true .stop 0, ro 1 1][sub]?
  | 0x3300 => [rwNum 4 true .live 1000 100 86400000, rwNum 4 true .live 24 1 720, rwBool true .live 1][sub]?
  | 0x3400 => [rwNum 4 true .live 30 1 3600, rwBool true .live 0][sub]?
  | 0x3500 => [rwNum 4 true .live 100 1 60000, { acc := .wo, elem := 1, expert := true, change := .live, ranges := [(0, 8)] },
      ro 1 1, ro 1 1, ro 8 1, ro 4 1][sub]?
  | 0x8000 => [rwEnum true .stop 0 [0, 1, 2, 3, 4, 5, 6, 7, 8, 9], rwNum 1 true .stop 0 0 31, rwNum 1 true .stop 1 1 4,
      rwEnum true .stop 2 [0, 1, 2, 3], rwNum 4 true .stop 1000 1 86400000, woOne true, ro 1 1, ro 8 4][sub]?
  | 0x9000 => if sub < 6 then some (ro 1 1) else none
  | 0x9001 => [woOne true][sub]?
  | 0x9002 => [ro 1 1, ro 4 1, ro 1 1][sub]?
  | 0x9010 => [ro 1 1, ro 4 1, woOne true][sub]?
  | 0x9020 => [ro 2 1, ro 2 1, ro 1 1, rwNum 2 true .live 95 70 110, rwNum 1 true .live 2 1 5, ro 4 1][sub]?
  | 0x9030 => [ro 1 20][sub]?
  | 0x9031 => [rwBool false .live 0, rwNum 4 false .live 1000 1 3600000][sub]?
  | _ => if 0x1120 ≤ i ∧ i < 0x1140 then
      [rwBool false .live 0, rwNum 4 false .live 0 0 0xFFFFFF, rwNum 1 false .live 0 0 15, rwNum 1 false .live 1 1 255,
        rwNum 1 false .live 255 1 255, rwNum 1 false .live 4 1 31, ro 4 1, ro 4 1][sub]?
    else none

/-- The objects of a cluster, offset `k` from 0x4000 + 0x100 c (R211, R480). -/
def descCluster (k sub : Nat) : Option ObjDesc :=
  match k with
  | 0x00 => [ro 1 1, ro 1 1, ro 1 1, ro 2 1, ro 4 1][sub]?
  | 0x10 => if sub < 16 then some (rwOr255 false .stop 255 63) else none
  | 0x11 => if sub < 16 then some (rwNum 1 false .stop 4 0 4) else none
  | 0x12 => if sub < 16 then some (rwNum 1 false .boundary 2 0 3) else none
  | 0x13 => [rwNum 1 false .live 8 1 8, ro 1 1, rwNum 4 false .boundary 100000 0 10000000][sub]?
  | 0x14 => [ro 4 1][sub]?
  | 0x15 => [ro 4 256][sub]?
  | 0x16 => [{ acc := .wo, elem := 2, change := .live }, woOne false][sub]?
  | _ => none

/-- The objects of partition `p` of `m` clusters, offset `k` from 0x5000 + 0x100 p (R92, R222, R352, R378). -/
def descPartition (m k sub : Nat) : Option ObjDesc :=
  match k with
  | 0x00 => [rwAny 1 true .stop 0, ro 1 1, woOne true][sub]?
  | 0x01 => if sub < 8 then some (rwAny 8 true .live 0) else if sub = 8 then some (ro 1 1) else none
  | 0x10 => if sub = 0 then some (ro 4 1) else if sub < 256 then some (rwAny 4 false .boundary 0) else none
  | 0x20 => [rwNum 4 false .live 10000 1 60000000, rwBool false .live 0, rwEnum true .stop 0 [0, 1], rwEnum true .stop 0 [0, 1],
      rwEnum true .stop 0 [0, 1], rwEnum true .stop 0 [0, 1], ro 4 1, ro 4 1, ro 4 1][sub]?
  | 0x21 => if sub < 4 then some (rwArray 8 64 false .boundary) else none
  | 0x30 => [rwAny 2 false .stop 0, rwNum 4 false .stop 0 0 65536, rwNum 2 false .stop 0 0 (512 * m), rwAny 8 false .stop 0,
      rwAny 8 false .stop 0, rwAny 8 false .stop 0, rwAny 8 false .stop 0, ro 2 1, ro 8 1, ro 8 1, ro 8 1, ro 4 1][sub]?
  | 0x40 => [rwEnum false .live 0 [0, 1, 2], rwNum 2 false .live 256 0 4096,
      { rwNum 4 false .stop 0 0 81920 with mult := 64 }][sub]?
  | 0x41 => [roVar 8 1033][sub]?
  | 0x42 => [roVar 8 16][sub]?
  | _ => none

/-- The objects of a VI, offset `k` from 0x5800 + 0x10 v (R325, R352, R378). -/
def descVi (k sub : Nat) : Option ObjDesc :=
  if k = 0 then [rwAny 2 false .live 0xFFFF, rwNum 1 false .live 4 1 16, rwAny 8 false .stop 0, rwAny 8 false .stop 0,
    ro 8 1, ro 4 1][sub]?
  else if k ≤ 8 then [rwNum 2 false .live 0 0 256, rwNum 4 false .live 0 0 65536, rwAny 4 false .live 0,
    rwEnum false .live 0 [0, 1, 2, 3], rwNum 4 false .live 4194304 0 1073741824, rwNum 4 false .live 2000 0 3600000,
    rwEnum false .live 1 [1, 2], rwNum 1 false .live 1 0 3, rwBool false .live 0][sub]?
  else if k = 9 then [rwOr255 true .stop 255 7, rwEnum false .live 0 [0, 1], ro 1 1, woOne false, ro 4 1, ro 4 1][sub]?
  else none

/-- The objects of the host port, the links and the stacks (R325, R405, R434). -/
def descPorts (cap i sub : Nat) : Option ObjDesc :=
  if i = 0x6000 then [ro 1 1, ro 1 1, ro 1 1, ro 1 1, ro 1 1, rwEnum true .live 0 [0, 1], rwEnum true .live 0 [0, 1], ro 1 1,
    { rwNum 8 false .live 0 0 (cap - 1) with mult := 2 ^ 30 }, { rwAny 8 true .stop 0 with reserved := 1 },
    rwOr255 true .stop 255 7][sub]?
  else if i = 0x6001 then [ro 8 5][sub]?
  else if 0x6100 ≤ i ∧ i < 0x6180 ∧ i % 16 = 0 then
    [rwBool false .live 0, rwEnum true .stop 2 [1, 2], { rwAny 1 true .stop 4 with ranges := [(4, 4), (8, 8)] },
      rwNum 4 false .live 1000 0 1000000, rwNum 1 true .live 8 1 255, rwNum 4 true .live 100 10 10000, ro 1 1, ro 1 1, ro 1 1,
      ro 2 1, ro 1 1, ro 1 1, ro 1 1, ro 8 12, ro 8 6, ro 1 1][sub]?
  else if 0x6200 ≤ i ∧ i < 0x6280 ∧ i % 16 = 0 then
    [ro 1 1, ro 2 1, ro 8 1, ro 8 1, ro 8 1, ro 8 1, ro 8 1, ro 4 1][sub]?
  else none

/-- The objects of observation (R298, R325, R352, R481). -/
def descObserve (i sub : Nat) : Option ObjDesc :=
  match i with
  | 0x7000 => [ro 8 1][sub]?
  | 0x7010 => if sub < 8 then some (ro 8 8) else none
  | 0x7100 => if sub < 8 ∨ (0x10 ≤ sub ∧ sub < 0x40) ∨ (0x48 ≤ sub ∧ sub < 0x50) then some (ro 8 11) else none
  | 0x7200 => if sub < 35 then some (ro 8 30) else none
  | 0x7201 => if sub < 9 then some (ro 8 6) else none
  | 0x7202 => if sub < 4 then some (ro 4 264) else none
  | 0x7203 => [ro 4 20, ro 1 20, ro 4 20][sub]?
  | 0x7300 => [ro 8 32][sub]?
  | 0x7301 => if sub < 16 then some (ro 8 8) else none
  | 0x7302 => if sub < 8 then some (ro 8 6) else none
  | 0x7500 => if (nodeKind (0x2000 + sub)).isSome then some (ro 8 64) else none
  | _ => if 0x7400 ≤ i ∧ i < 0x7500 ∧ sub < 256 then some (ro 8 9) else none

/-- The description of an object; `none` where none exists (R471, R472, R474). -/
def State.objDesc (s : State) (i sub : Nat) : Option ObjDesc :=
  if 0x4000 ≤ i ∧ i < 0x4800 then descCluster (i % 0x100) sub
  else if 0x5000 ≤ i ∧ i < 0x5800 then descPartition (s.clustersOf ((i - 0x5000) / 0x100)).length (i % 0x100) sub
  else if 0x5800 ≤ i ∧ i < 0x5C00 then descVi (i % 0x10) sub
  else if 0x6000 ≤ i ∧ i < 0x6300 then descPorts (hbmBytes s) i sub
  else if 0x7000 ≤ i ∧ i < 0x8000 then descObserve i sub
  else descDevice i sub

/-- The persistent objects (R473). -/
def persistent (i sub : Nat) : Bool :=
  match i with
  | 0x1100 => sub ≤ 6 || sub = 8
  | 0x1110 => sub ≤ 2
  | 0x1111 | 0x1112 => true
  | 0x1150 => sub ≤ 5
  | 0x1151 => true
  | 0x3400 => sub = 0
  | 0x6000 => sub = 5 || sub = 6
  | 0x9020 => sub = 3 || sub = 4
  | 0x9031 => sub ≤ 1
  | _ => (decide (0x1120 ≤ i ∧ i < 0x1140) && sub ≤ 5) || (decide (0x6100 ≤ i ∧ i < 0x6180) && i % 16 = 0 && sub = 0)

/-! ### Values -/

/-- A value of variable length as it is kept: with a 1 above its last byte. -/
def withLength (n v : Nat) : Nat := 2 ^ (8 * n) + v % 2 ^ (8 * n)

/-- The value and the length of what `withLength` keeps. -/
def ofLength (k : Nat) : Nat × Nat := (k - 2 ^ Nat.log2 k, Nat.log2 k / 8)

/-- A list of elements of `e` bytes as a value of variable length. -/
def varList (e : Nat) (l : List Nat) : Nat := withLength (e * l.length) (ofLanes (8 * e) l)

/-- A signed number in `w` bits. -/
def signedNat (w : Nat) (x : Int) : Nat := (x % (2 ^ w : Int)).toNat

/-- The characters of a name. -/
def nameBytes (n : String) : List Nat := n.toList.map Char.toNat

/-- Bits of the tiles that satisfy `f`, tile t at bit t (R61). -/
def tileMap (l : List Nat) : Nat := l.foldl (fun m t => m ||| 2 ^ (t % 4096)) 0

/-- Tiles fused out or failed in the self-test, in cluster `c` (R60). -/
def State.badTiles (s : State) : List Nat := (s.part.fusedTiles ++ s.selfTestFail).eraseDups

/-- The enabled tiles of cluster `c` (R59). -/
def State.enabledIn (s : State) (c : Nat) : Nat :=
  512 - (((s.badTiles ++ s.disabledTiles).eraseDups).filter (fun t => clusterOfTile t = c)).length

/-- DEGRADE_CAUSE (R60, R61). -/
def State.degradeCause (s : State) : Nat :=
  let bad := s.badTiles
  let tooMany := (List.range 8).any (fun c => decide (8 < (bad.filter (fun t => clusterOfTile t = c)).length))
  tooMany.toNat + 2 * (decide (4096 - bad.length < 4032)).toNat + 4 * (decide (s.weltWorking 0 < 256)).toNat
    + 8 * (decide (s.weltWorking 1 < 256)).toNat

/-- Failed physical lanes of a Welt direction, ascending (R38, R61). -/
def State.failedLanes (s : State) (dir : Nat) : List Nat :=
  (List.range 264).filter (fun l => s.part.fusedLanes.contains (dir, l) || s.weltFailed.contains (dir, l))

/-- DEVICE_STATE (R476): 0 BOOTING, 1 READY, 2 RESET_HELD, 3 HUNG, 4 FAILED. -/
def State.deviceState (s : State) : Nat :=
  if s.power.resetHeld then 2
  else if s.power.bootState = 2 then 4
  else if s.power.bootState = 0 then 0
  else if s.vigil.hung then 3 else 1

/-- PART_STATE as a number (R378). -/
def PartState.code (x : PartState) : Nat :=
  match x with
  | .dissolved => 0 | .forming => 1 | .ready => 2 | .resetting => 3 | .hung => 4

/-- DOMAIN_POWER of a domain (R484). -/
def DomainState.code (x : DomainState) : Nat :=
  match x with
  | .off => 0 | .retain => 1 | .on => 2 | .waking => 3 | .deepSleep => 4

/-- ISOLATED_NODES (R294, R298, R299): the nodes whose shim is active, ascending. -/
def State.isolatedNodes (s : State) : List Nat := (List.range 0x2051).filter (fun n => canIsolate n && s.shimActive n)

/-- ENGINE_COUNTERS of service number `k` (R481, R486): busy, stalled, idle, the eight reasons. -/
def State.engineWords (s : State) (k : Nat) : List Nat :=
  let w := fun j => Sparse.get 0 s.engineCounts (16 * k + j)
  let total := (s.calends + 2 ^ 64 - s.countersFrom) % 2 ^ 64
  [w 0, w 1, (total + 2 * 2 ^ 48 - w 0 - w 1) % 2 ^ 48] ++ (List.range 8).map (fun r => w (3 + r))

/-- The initiator of NET_STATS_SVC_i (R298). -/
def statsNode (i : Nat) : Nat :=
  if i < 8 then seqNode i else if i < 24 then ceNode (i - 8) else if i < 32 then newenNode (i - 24)
  else if i = 32 then pcieNode else if i = 33 then mgmtNode else vigilNode

/-- Words 0 to n - 1 of a sparse record. -/
def wordsOf (m : Sparse Nat) (lo n : Nat) : List Nat := (List.range n).map (fun i => Sparse.get 0 m (lo + i))

/-- The light set of cluster `c` (R491): word 0 is the sum of its tiles' busy counters. -/
def State.lightWords (s : State) (c : Nat) : List Nat :=
  let busy := s.tiles.foldl (fun n e => if clusterOfTile e.1 = c then n + Sparse.get 0 e.2.counters wBusy else n) 0
  busy % 2 ^ 48 :: wordsOf s.light (8 * c + 1) 7

/-- Sessions of partition `p` that are not CLOSED. -/
def State.openSessions (s : State) (p : Nat) : Nat :=
  (s.shelf.sessions.filter (fun e => e.2.state ≠ .closed && e.2.part = p)).length

/-- HBM_STATE of stack `k` (R307, R314, R325). -/
def State.hbmState (s : State) (k : Nat) : Nat :=
  let ports := (List.range 4).map (fun q => Sparse.get ({} : HbmPortState) s.hbm (4 * k + q))
  if s.hbmFailed.contains k then 3
  else if ports.any (fun p => p.selfRefresh) then 2
  else if ports.all (fun p => p.powerDown) then 1 else 0

/-- The handles of the models loaded in partition `p` (R375, R378). -/
def State.handles (s : State) (p : Nat) : List Nat :=
  (s.partition p).models.filterMap (fun e => e.2.map (fun m => e.1 + m.gen * 2 ^ 32 + p * 2 ^ 48))

/-- A latched event ring: the entries present, oldest first, then zeros (R494). -/
def EventRing.words (r : EventRing) : List Nat :=
  let l := ((List.range 64).map (fun i => (Sparse.get (0 : BitVec 64) r.slots ((r.written + i) % 64)).toNat)).filter (· ≠ 0)
  l ++ List.replicate (64 - l.length) 0

/-- The value of a read-only object of the device (R61, R468, R475 to R483). -/
def State.roDevice (s : State) (i sub : Nat) : Nat :=
  let pw := s.power
  match i with
  | 0x1000 => varList 1 (nameBytes (match sub with
      | 0 => "Stavul Devices" | 1 => "Irber" | 2 => "Gaelo" | _ => if s.part.variant = 0 then "GL8-128" else "GL8-288"))
  | 0x1001 => if sub = 0 then Config.siliconRev.toNat
      else if sub = 1 then withLength Config.serialLength.val Config.serialBytes.toNat else 4096
  | 0x1002 => if sub = 0 then pw.fwVersion else if sub = 1 then Config.romVersion.toNat else pw.fwCrc
  | 0x1003 => if sub = 0 then s.part.variant else if s.part.variant = 0 then 128 else 288
  | 0x1004 => if sub = 0 then ((List.range 8).map s.enabledIn).foldl (· + ·) 0 else s.enabledIn (sub - 1)
  | 0x1005 => if sub = 0 then (2 ^ 4096 - 1) ^^^ tileMap (s.badTiles ++ s.disabledTiles)
      else if sub = 1 then tileMap s.part.fusedTiles else tileMap s.selfTestFail
  | 0x1007 => if sub = 0 then (decide (s.degradeCause ≠ 0)).toNat else s.degradeCause
  | 0x1008 => if sub < 2 then varList 2 (s.failedLanes sub) else min 256 (s.weltWorking (sub - 2))
  | 0x1020 => if sub = 0 then s.dict.commitNo else if sub = 1 then s.dict.staged.length
      else if sub = 2 then s.dict.commits.length else withLength s.dict.lastResult.2 s.dict.lastResult.1
  | 0x1021 => ofLanes 32 ((List.range 8).map (fun c => (s.seq c).epoch.toNat))
  | 0x1100 => s.dict.canNode
  | 0x1110 => s.dict.round
  | 0x1150 => Config.macAddress.toNat
  | 0x1160 => ofLanes 64 (wordsOf s.dict.stats 0 10)
  | 0x2000 => if sub = 0 then s.deviceState else if sub = 1 then (decide (s.deviceState = 1)).toNat
      else ofBits ((List.range 8).map (fun p => (s.partition p).state = .ready))
  | 0x2100 => if sub = 0 then s.shelf.ready.toNat else if sub = 1 then s.descBase
      else if sub = 2 then s.shelf.hits else s.shelf.misses
  | 0x3000 => if sub = 0 then 1 else if sub = 1 then 0x0FFF
      else ofLanes 16 [1024, 1117, 1218, 1328, 1448, 1579, 1722, 1878]
  | 0x3104 => varList 2 s.isolatedNodes
  | 0x3200 => s.domainState
  | 0x3500 => if sub = 2 then s.vigil.state else if sub = 3 then s.vigil.scope else if sub = 4 then s.vigilBase else s.vigil.count
  | 0x8000 => if sub = 6 then s.test.state
      else ofLanes 64 [s.test.result.1, s.test.result.2.1, s.test.result.2.2.1, s.test.result.2.2.2]
  | 0x9000 => [pw.resetCause, pw.bootSel, pw.nodeSel, pw.stage, pw.bootState, pw.bootFail].getD sub 0
  | 0x9002 => if sub = 0 then pw.resetHeld.toNat
      else if sub = 1 then
        min 0xFFFFFFFF (if pw.resetHeld then (s.calends - pw.heldFrom) / 2000000 else pw.heldTime)
      else pw.pinStuck.toNat
  | 0x9010 => if sub = 0 then s.dict.defaulted.toNat else s.dict.persistFails
  | 0x9020 => if sub = 0 then signedNat 16 pw.dieTemp else if sub = 1 then signedNat 16 pw.dieTempMax
      else if sub = 2 then pw.thermalDuty else pw.trips
  | 0x9030 => ofLanes 8 ((List.range 20).map (fun d => (s.domain d).code))
  | _ => if sub = 6 then Sparse.get 0 s.dict.recSent (i - 0x1120) else Sparse.get 0 s.dict.recDeferred (i - 0x1120)

/-- The value of a read-only object of cluster `c`. -/
def State.roCluster (s : State) (c k sub : Nat) : Nat :=
  match k with
  | 0x00 => [(s.partOfCluster c).getD 255, (match s.domain c with
        | .on => 1 | .waking => 2 | _ => 0), (match s.domain (8 + c) with
        | .off => 0 | .retain => 1 | .on => 2 | _ => 3), signedNat 16 (Sparse.get 0 s.power.clusterTemp c),
      (s.seq c).watchdogTrips].getD sub 0
  | 0x13 => (s.seq c).duty
  | 0x14 => (s.seq c).epoch.toNat
  | _ => ofLanes 32 ((List.range 256).map (fun i => (Sparse.get (0 : BitVec 32) (s.seq c).tallies i).toNat))

/-- The value of a read-only object of partition `p`. -/
def State.roPartition (s : State) (p k sub : Nat) : Nat :=
  let x := s.partition p
  match k with
  | 0x00 => x.state.code
  | 0x01 => (!x.zeroing.isEmpty).toNat
  | 0x10 => 0
  | 0x20 => Sparse.get 0 s.lacing.counters (3 * p + (sub - 6))
  | 0x30 => [s.freeFrameCount p, s.obj (0x5030 + 0x100 * p) 4 0 - 32768 * x.t1.length, x.evictions, x.noSpace,
      s.openSessions p].getD (sub - 7) 0
  | 0x41 => varList 8 x.fitReport
  | _ => varList 8 (s.handles p)

/-- The value of a read-only object of VI `v`. -/
def State.roVi (s : State) (v k sub : Nat) : Nat :=
  let x := s.vi v
  if k = 0 then
    if sub = 4 then s.obj (0x5800 + 0x10 * v) 3 0 - 32768 * (s.shelf.t2.filter (fun e => e.1 / 2 ^ 32 = v)).length
    else x.wakeRefused
  else if sub = 2 then s.viState v else if sub = 4 then x.lastReset else x.doorbellsRefused

/-- The value of a read-only object of the host port, a link or a stack. -/
def State.roPorts (s : State) (i sub : Nat) : Nat :=
  let h := s.host
  if i = 0x6000 then [h.linkState, h.linkSpeed, h.linkWidth, h.flit.toNat, h.bifurcation, 0, 0, h.cxl].getD sub 0
  else if i = 0x6001 then ofLanes 64 (wordsOf h.stats 0 5)
  else if i < 0x6200 then
    let x := s.port ((i - 0x6100) / 16)
    match sub with
    | 6 => LinkState.code x.link
    | 7 => x.gen
    | 8 => x.width
    | 9 => x.flight
    | 10 => x.peerDevice
    | 11 => x.peerPort
    | 12 => x.peerParent.toNat
    | 13 => ofLanes 64 (wordsOf x.stats 0 12)
    | 14 => ofLanes 64 (wordsOf x.lastMark 0 6)
    | _ => x.trainFail
  else
    let k := (i - 0x6200) / 16
    if sub = 0 then s.hbmState k
    else if sub = 1 then signedNat 16 (Sparse.get 0 s.hbmTemp k)
    else Sparse.get 0 s.hbmCounts (8 * k + (sub - 2))

/-- The value of an object of observation. -/
def State.roObserve (s : State) (i sub : Nat) : Nat :=
  match i with
  | 0x7000 => s.calends
  | 0x7010 => ofLanes 64 (s.lightWords sub)
  | 0x7100 => ofLanes 64 (s.engineWords sub)
  | 0x7200 => ofLanes 64 (wordsOf (s.initiator (statsNode sub)).stats 0 30)
  | 0x7201 => ofLanes 64 (wordsOf s.net.errors (6 * sub) 6)
  | 0x7202 => ofLanes 32 (wordsOf s.net.weltCounts (264 * sub) 264)
  | 0x7203 => ofLanes (if sub = 1 then 8 else 32) (wordsOf s.net.porchCounts (20 * sub) 20)
  | 0x7300 => ofLanes 64 (s.mem.errorLog.flatMap (fun e => [e.1.toNat, e.2.toNat]))
  | 0x7301 => ofLanes 64 (wordsOf (s.engine sub).stats 0 8)
  | 0x7302 => ofLanes 64 (wordsOf s.memEcc (6 * sub) 6)
  | 0x7500 => ofLanes 64 (Sparse.get ({} : EventRing) s.rings sub).words
  | _ =>
    let sid := (i - 0x7400) * 256 + sub
    (s.session sid).descriptor (s.active sid) + (s.session sid).h * 2 ^ 512

/-- The value of a read-only object. -/
def State.roValue (s : State) (i sub : Nat) : Nat :=
  if 0x4000 ≤ i ∧ i < 0x4800 then s.roCluster ((i - 0x4000) / 0x100) (i % 0x100) sub
  else if 0x5000 ≤ i ∧ i < 0x5800 then s.roPartition ((i - 0x5000) / 0x100) (i % 0x100) sub
  else if 0x5800 ≤ i ∧ i < 0x5C00 then s.roVi ((i - 0x5800) / 0x10) (i % 0x10) sub
  else if 0x6000 ≤ i ∧ i < 0x6300 then s.roPorts i sub
  else if 0x7000 ≤ i ∧ i < 0x8000 then s.roObserve i sub
  else s.roDevice i sub

/-- A key of an object: index x 256 + sub. -/
def objKey (i sub : Nat) : Nat := i * 256 + sub

/-- Unit 9 holds the value of a class B object that was last taken into a commit (R441). -/
def committedUnit : Nat := 9

/-- The access level of a requester (R439). -/
def State.isExpert (s : State) (r : Requester) : Bool := s.dict.expert.contains r

/-- The value of a writable object as most recently accepted (R439, R441). -/
def State.rwValue (s : State) (r : Requester) (i sub : Nat) (d : ObjDesc) : Nat :=
  if i = 0x1010 then (s.isExpert r).toNat
  else if i = 0x3400 ∧ sub = 1 then s.power.pinMask.toNat
  else if 0x5000 ≤ i ∧ i < 0x5800 ∧ i % 0x100 = 0 then (s.partition ((i - 0x5000) / 0x100)).clusters.toNat
  else if d.change = .boundary then
    match Sparse.get none s.dict.staged (objKey i sub) with
    | some v => v
    | none => (Sparse.get none s.dict.objs (committedUnit * 2 ^ 24 + objKey i sub)).getD d.dflt
  else s.obj i sub d.dflt

/-- Length of a value is variable. -/
def ObjDesc.variable (d : ObjDesc) : Bool := d.any || !d.counts.isEmpty

/-- A value as OAP carries it: the bytes as a number, and how many (R437). -/
def ObjDesc.carried (d : ObjDesc) (v : Nat) : Nat × Nat :=
  if d.variable then ofLength v else (v % 2 ^ (8 * d.elem * d.max), d.elem * d.max)

/-- What a READ of an object returns (R438, R440): value and length, or a status. -/
def State.readObject (s : State) (r : Requester) (i sub : Nat) : Except Status (Nat × Nat) :=
  match s.objDesc i sub with
  | none => .error .notFound
  | some d =>
    match d.acc with
    | .wo => .error .accessLevel
    | .ro => .ok (d.carried (s.roValue i sub))
    | .rw => .ok (d.carried (s.rwValue r i sub d))

end Sys2Proof.Machine
end

