-- ==== Sys2Proof/Machine/Power.lean ====
section
/-! DEFINITION. Supplies, pins, resets, the boot, power domains and thermal control (R56, R401, R402, R532 to R558). -/

namespace Sys2Proof.Machine

/-! ### The PCIe port's resets (R401, R402) -/

/-- Configuration space of a function at its defaults (R402, log entry 9). -/
def Vi.configDefaults (x : Vi) : Vi :=
  { x with busMaster := false, msixEnable := false, functionMask := false, maxPayload := 128, maxRead := 512, ats := false
           d3hot := false }

/-- A reset of VI `v`'s function (R402, R530). -/
def State.resetFunction (s : State) (v : Nat) : State :=
  let s := s.requestViReset v
  let s := s.setVi v (s.vi v).configDefaults
  if v = 0 then { s with host := { s.host with bar4 := 64 } } else s

/-- The functions that are enabled. -/
def State.enabledVis (s : State) : List Nat := (List.range 64).filter (fun v => s.viState v ≠ 0)

/-- A VI reset of every VI at once, the configuration space at its defaults and VF Enable cleared (R402). -/
def State.resetAllVis (s : State) : State :=
  let l := s.enabledVis
  let s := { s with host := { s.host with sriov := (0, false), sriov1 := (0, false), hdmCommitted := false } }
  l.foldl (fun s v => s.resetFunction v) s

/-- The port is reset and its link is down (R401, R402). The reads that the host has not answered end LINK_DOWN (R33; DEDUCED,
log entry 91). -/
def State.portReset (s : State) (link : Nat) : State :=
  let s := s.resetAllVis
  let l := (s.target pcieNode).intake.filter (fun e => e.toHost && e.phase = .inService)
  let s := l.foldl (fun s e => (s.hostStat 3).finishEntry pcieNode e .linkDown 0 0) s
  { s with host := { s.host with
      reqs := [], linkState := link, linkSpeed := 0, linkWidth := 0, flit := false, cxl := 0, atc := [], hostLines := [], snoops := [] } }

/-! ### Device reset (R21, R546) -/

/-- A hold cause as RESET_CAUSE gives it (R483). -/
def HoldCause.code (c : HoldCause) : Nat :=
  match c with
  | .thermal => 5 | .resetPin => 2 | .perst => 3 | .dictionary => 4

/-- The first of several causes in the order of R546. -/
def firstCause (l : List HoldCause) : Option HoldCause :=
  [HoldCause.thermal, .resetPin, .perst, .dictionary].find? (fun c => l.contains c)

/-- The objects that a device reset leaves at their values: the persistent ones (R473, R485). -/
def keepsObject (k : Nat) : Bool := persistent (k % 2 ^ 24 / 256) (k % 256)

/-- The dictionary after a device reset (R470, R485). -/
def Dict.deviceReset (d : Dict) : Dict :=
  { d with objs := d.objs.filter (fun e => keepsObject e.1), staged := [], commitNo := 0, commits := [], lastResult := (0, 0)
           expert := [], repeats := [], more := [], stats := [], recSent := [], recDeferred := [], round := 0
           defaulted := false, persistFails := 0 }

/-- What a device reset makes of the units (R546, steps 1 to 4): everything but the management core's own state, Calends,
HBM, persistent objects, the loaded image and the values R485 lists. -/
def State.resetUnits (s : State) : State :=
  let s := s.abortIntakes (fun n => n ≠ mgmtNode)
  let answers := s.net.flights.filter (fun f => decide (f.pkt.dest.toNat = mgmtNode ∧ f.pkt.status ≠ 0))
  let s := (List.range 8).foldl (fun s p => s.shelfReset p) s
  let s := s.zero sliceBase (hostBase - sliceBase)
  let parts := s.parts.filterMap (fun e =>
    let x : Partition := { t1 := e.2.t1, pt := e.2.pt, zeroing := e.2.zeroing }
    if x = {} then none else some (e.1, x))
  let seqs := s.seqs.filterMap (fun e =>
    let x : Sequencer := { watchdogTrips := e.2.watchdogTrips }
    if x = {} then none else some (e.1, x))
  let on := if s.power.strapped then s.power.domains else []
  let lanes := s.obj 0x6000 5 0
  { s with
    countersFrom := s.calends, mem := { s.mem with errorLog := [] }, tiles := [], seqs := seqs, lacing := {}
    net := { flights := answers, weltFailing := s.net.weltFailing
             initiators := s.net.initiators.filterMap (fun e =>
               let i : Initiator := { out := e.2.out, waiting := e.2.waiting }
               if e.1 = mgmtNode ∧ i ≠ {} then some (e.1, i) else none) }
    dict := s.dict.deviceReset, light := [], rings := [], parts := parts, selfTestFail := [], disabledTiles := []
    weltFailed := [], hbmCounts := [], hbm := (List.range 32).map (fun p => (p, { selfRefresh := true })), hbmFailed := []
    scrubs := [], memEcc := [], engines := [], copyWait := [], newen := [], loads := [], engineCounts := []
    host := { perstLow := s.host.perstLow, bifurcation := lanes }
    shelf := { s.shelf with promotions := [], demotions := [], moves := [], retired := [], cache := [], hits := 0, misses := 0
                            ready := false }
    vigil := { count := s.vigil.count }, almanac := {}, test := { badLinks := s.test.badLinks }
    power := { s.power with domains := on, since := [], thermalDuty := 8, aboveSince := none } }

/-- The port begins to train where PERST_N is high, no device reset is held and the boot mode trains it (R401, R554, R555). -/
def State.trainPcie (s : State) : State :=
  let x := s.power
  if !s.host.perstLow ∧ !x.porHeld ∧ x.bootSel < 2 ∧ x.stage ≠ 0 ∧ x.stage ≠ 1 ∧ x.stage ≠ 2 ∧ s.host.linkState = 0 then
    { s with host := { s.host with linkState := 1 } }
  else s

/-- A device reset, and the boot from WELT unless a cause holds it (R546, R548); the port trains anew (R554). -/
def State.deviceReset (s : State) : State :=
  let s := s.resetUnits
  let x := s.power
  { s with power := { x with
      asked := false
      stage := if x.strapped then x.stage else if x.holds = [] then 5 else 0
      bootState := if x.thermTrip then 2 else 0
      bootFail := if x.thermTrip then Status.code .aborted else 0
      coldBoot := false } }.trainPcie

/-- No device reset is applied yet: the power-on reset is held, or the boot has not come to WELT (R549). -/
def Power.early (x : Power) : Bool := x.porHeld || x.stage = 1 || x.stage = 2 || x.stage = 4

/-- A cause begins to hold a device reset (R541, R543, R545, R549). -/
def State.hold (s : State) (c : HoldCause) : State :=
  let x := s.power
  let l := if x.holds.contains c then x.holds else x.holds ++ [c]
  let code := ((firstCause l).getD c).code
  let s := { s with power := { x with holds := l, resetCause := if x.early && c = .perst then x.resetCause else code } }
  if x.early && c ≠ .thermal then s else s.deviceReset

/-- A cause no longer holds: once none does, the boot goes on at WELT (R541, R543, R549). -/
def State.unhold (s : State) (c : HoldCause) : State :=
  let x := s.power
  let l := x.holds.erase c
  let go := !x.holds.isEmpty && l.isEmpty && (x.stage = 0 || (x.stage = 4 && x.imageDone)) && !x.porHeld
  { s with power := { x with holds := l, stage := if go then 5 else x.stage } }.trainPcie

/-! ### Power-on reset (R533, R540) -/

/-- A power-on reset is applied and held (R56, R533, R540): nothing is kept but what the board drives, what the flash
stores and what the part is made with. The findings of field tests are kept for the boot (R570). -/
def State.powerOnReset (s : State) (cause : Nat) : State :=
  let x := s.power
  { State.reset with
    pending := s.pending, free := s.free, part := s.part
    net := { weltFailing := s.net.weltFailing }, test := { badLinks := s.test.badLinks }, tap := s.tap
    host := { perstLow := s.host.perstLow }
    dict := { store := s.dict.store, storeOk := s.dict.storeOk, storeOld := s.dict.storeOld, storeOldOk := s.dict.storeOldOk }
    power := { porLow := x.porLow, railsBad := x.railsBad, resetLow := x.resetLow, resetCause := cause
               dieTemp := x.dieTemp, clusterTemp := x.clusterTemp } }

/-- The supplies are good and POR_N is high: the boot waits for the PLL (R533, R548). -/
def State.tryPll (s : State) : State :=
  if s.power.porHeld ∧ !s.power.porLow ∧ !s.power.railsBad then { s with power := { s.power with stage := 1 } } else s

/-- POR_N (R540): low for more than the glitch filter. -/
def execPorN (s : State) : Host.Outcome State Fault Refusal :=
  .next (({ s with power := { s.power with porLow := true } }).powerOnReset 0)

/-- POR_RELEASE (R533). -/
def execPorRelease (s : State) : Host.Outcome State Fault Refusal :=
  .next ({ s with power := { s.power with porLow := false } }).tryPll

/-- SUPPLY_FAULT (R533): a monitored rail leaves tolerance. -/
def execSupplyFault (s : State) : Host.Outcome State Fault Refusal :=
  .next (({ s with power := { s.power with railsBad := true } }).powerOnReset 0)

/-- SUPPLY_IN_TOLERANCE (R533): every rail has been in tolerance for 1 ms. -/
def execSupplyInTolerance (s : State) : Host.Outcome State Fault Refusal :=
  .next ({ s with power := { s.power with railsBad := false } }).tryPll

/-- PLL_UNLOCK (R56): the reset is held until the PLL locks again. -/
def execPllUnlock (s : State) : Host.Outcome State Fault Refusal :=
  if s.power.porHeld then .next s else .next (s.powerOnReset 1).tryPll

/-- RESET_N counts as low (R541). -/
def State.resetPinLow (s : State) : State :=
  ({ s with power := { s.power with resetHeld := true, heldFrom := s.calends, heldTime := 0 } }).hold .resetPin

/-- PLL_LOCK (R56, R57, R540, R541, R543, R579): the power-on reset is released, Calends starts, the straps are latched, and
pins that are low already count, and so does a thermal trip (R586). -/
def execPllLock (bootSel : Fin 4) (nodeSel : Fin 8) (s : State) : Host.Outcome State Fault Refusal :=
  if s.power.porHeld ∧ s.power.stage = 1 then
    let s := { s with
      calends := 0
      power := { s.power with porHeld := false, locked := true, stage := 2, bootSel := bootSel.val, nodeSel := nodeSel.val } }
    let s := if s.power.resetLow then s.resetPinLow else s
    .next (if s.power.thermTrip then s.hold .thermal else s)
  else .next s

/-! ### Reset pins (R541 to R545) -/

/-- RESET_N (R541): low for 10 µs. A masked pin has no effect (R542). -/
def execResetN (s : State) : Host.Outcome State Fault Refusal :=
  let s := { s with power := { s.power with resetLow := true } }
  if s.power.pinMask ∨ s.power.porHeld ∨ s.power.resetHeld then .next s else .next s.resetPinLow

/-- The hold of RESET_N ends: the pin rises, or is masked (R541, R542). -/
def State.resetPinUp (s : State) : State :=
  let x := s.power
  if x.resetHeld then
    ({ s with power := { x with resetHeld := false, heldTime := (s.calends - x.heldFrom) / 2000000 } }).unhold .resetPin
  else s

/-- RESET_N_RISE (R541, R542). -/
def execResetNRise (s : State) : Host.Outcome State Fault Refusal :=
  .next ({ s with power := { s.power with resetLow := false, pinStuck := false } }).resetPinUp

/-- RESET_PIN_STUCK (R542): the pin has been held for RESET_STUCK_TIME. -/
def execResetPinStuck (s : State) : Host.Outcome State Fault Refusal :=
  if s.power.resetHeld then .next { s with power := { s.power with pinStuck := true } } else .next s

/-- RESET_PIN_MASK takes effect (R542): the pin counts as high until the next power-on reset. -/
def State.maskResetPin (s : State) : State := ({ s with power := { s.power with pinMask := true } }).resetPinUp

/-- PERST_N (R401, R543): the port is held in reset; under PERST_SCOPE = DEVICE so is the device. -/
def execPerstN (s : State) : Host.Outcome State Fault Refusal :=
  let s := { s with host := { s.host with perstLow := true } }
  if s.power.porHeld then .next s
  else
    let s := s.portReset 0
    let s := { s with host := { s.host with ready := false } }
    .next (if s.obj 0x6000 6 0 = 0 ∧ s.power.stage ≠ 2 then s.hold .perst else s)

/-- PERST_N_RISE (R401, R543, R554). -/
def execPerstNRise (s : State) : Host.Outcome State Fault Refusal :=
  let s := { s with host := { s.host with perstLow := false } }
  .next (s.unhold .perst)

/-- A sensor reaches 125 °C (R545): THERMTRIP_N is latched and a device reset is held until the next power-on reset. The
comparator works in a power-on reset too; the device reset then follows its release (R586). -/
def State.thermalTrip (s : State) : State :=
  let t := { s with power := { s.power with thermTrip := true } }
  if s.power.thermTrip then s else if s.power.porHeld then t else t.hold .thermal

/-- THERMTRIP_N (R545). -/
def execThermtripN (s : State) : Host.Outcome State Fault Refusal := .next s.thermalTrip

/-! ### Reset sequences (R546) -/

/-- A reset of cluster `c` on its own (R123, R148, R212, R244, R538, R546): its tasks are cancelled, and so are the RUNs that
have them (R205, R206). -/
def State.clusterReset (s : State) (c : Nat) : State :=
  let ts := (s.seq c).queues.flatMap (fun q => q.2.map (fun t => (q.1, t)))
  let s := ts.foldl (fun s e =>
    ((s.cancelTask c e.1 e.2).updCmd e.2.cmd (fun x =>
      { x with cancelled := x.cancelled.or (some .cancelled), tasksNot := x.tasksNot + x.items.length, items := [] })).finishRun
        e.2.cmd) s
  ((s.abortIntakes (inCluster c)).laceClusterReset c).resetCluster c

/-- DEVICE_RESET_SEQUENCE (R546): the device reset that a write of DEVICE_RESET asked for (R483), or a reset of a partition
or of a cluster, which a reset of higher priority absorbs (R21). -/
def execDeviceResetSequence (scope : ResetScope) (s : State) : Host.Outcome State Fault Refusal :=
  match scope with
  | .device =>
    if s.power.asked then
      .next (({ s with power := { s.power with
        resetCause := ((firstCause (.dictionary :: s.power.holds)).getD .dictionary).code } }).deviceReset)
    else .next s
  | .partition p => .next (s.startPartReset p.val)
  | .cluster c failing =>
    if s.absorbs (s.partOfCluster c.val) then .next s else .next ((s.clusterReset c.val).liftIsolation c.val failing)

/-! ### The boot image (R414, R551) -/

/-- A firmware image is valid (R551). -/
def imageValid (img : Nat) : Bool :=
  let w := fun i => laneNat img 64 i
  let n := w 0 / 2 ^ 32
  decide (w 0 % 2 ^ 32 = 0x46384C47) && decide (64 ≤ n ∧ n ≤ 8388608) && decide (w 1 < 2 ^ 32)
    && [2, 3, 4, 5, 6].all (fun i => decide (w i = 0)) && decide (w 7 < 2 ^ 32) && decide (w 7 = crc32 img 64 n)

/-- The image that is taken runs (R475, R551); the boot goes on unless a hold of R549 stops it. -/
def State.imageLoaded (s : State) (img : Nat) : State :=
  let x := s.power
  { s with power := { x with
      imageDone := true, fwVersion := laneNat img 64 1 % 2 ^ 32, fwCrc := laneNat img 64 7 % 2 ^ 32, bootFail := 0
      stage := if x.holds = [] then 5 else x.stage } }

/-- The boot ends (R551, R556, R571). -/
def State.bootFails (s : State) (st : Status) : State :=
  { s with power := { s.power with bootState := 2, bootFail := Status.code st } }

/-- IMAGE_GO (R552): the image is read from the host and checked. -/
def execImageGo (host : HostData) (s : State) : Host.Outcome State Fault Refusal :=
  let x := s.power
  if x.bootSel ≠ 1 ∨ x.stage ≠ 4 ∨ x.imageDone then .next s
  else
    let img := host.data % 2 ^ (8 * x.imageLen)
    let n := laneNat img 64 0 / 2 ^ 32
    if host.outcome = .ok ∧ x.imageAddr % 4096 = 0 ∧ 64 ≤ x.imageLen ∧ x.imageLen ≤ 8388608 ∧ n ≤ x.imageLen
        ∧ imageValid img then .next (s.imageLoaded img)
    else .next { s with power := { x with bootFail := Status.code .badDescriptor } }

/-! ### Boot stages (R548 to R556) -/

/-- Persistent objects take the values of a copy of the store. -/
def State.takeStore (s : State) (copy : Sparse (Option Nat)) : State :=
  copy.foldl (fun s e =>
    match e.2, s.objDesc (e.1 / 256) (e.1 % 256) with
    | some v, some d => s.setObj (e.1 / 256) (e.1 % 256) d.dflt v
    | _, _ => s) s

/-- Persistent objects are restored from the newer copy of the store whose CRC passes (R442). -/
def State.restorePersistent (s : State) (newer older : Bool) : State :=
  let d := s.dict
  if newer && d.storeOk then s.takeStore d.store
  else if older && d.storeOldOk then
    { s with dict := { d with store := d.storeOld, storeOk := true } }.takeStore d.storeOld
  else { s with dict := { d with defaulted := true } }

/-- The CAN node id that is in force (R458). -/
def State.takeCanNode (s : State) : State :=
  let n := s.obj 0x1100 0 1 + s.power.nodeSel
  { s with dict := { s.dict with canNode := if 254 < n then 0 else n } }

/-- The stage of the boot. -/
def State.setStage (s : State) (n : Nat) : State := { s with power := { s.power with stage := n } }

/-- The end of ROM (R442, R458, R548, R554, R555, R575, R577). -/
def State.endRom (s : State) (f : BootFound) : State :=
  let s := (s.restorePersistent f.storeOk f.storeOldOk).takeCanNode
  let s := { s with power := { s.power with opened := true } }
  let s := { s with host := { s.host with bifurcation := s.obj 0x6000 5 0 } }
  match s.power.bootSel with
  | 2 => s.setStage 0xE0
  | 3 => (List.range 20).foldl (fun s d => s.setDomain d .on) (s.setStage 0xF0)
  | _ =>
    let s := (s.setStage 4).trainPcie
    if s.host.perstLow ∧ s.obj 0x6000 6 0 = 0 then s.hold .perst else s

/-- Every compute and slice domain takes a state (R548). -/
def State.setClusterDomains (s : State) (x : DomainState) : State := (List.range 16).foldl (fun s d => s.setDomain d x) s

/-- Tiles that fail their self-test at TILES (R571): by their own, or beneath an eyelet of level 1 to 3 that failed. -/
def failedTiles (f : BootFound) : List Nat :=
  let low := f.eyelets.filter (fun e => decide (e < 584))
  (f.tiles.filter (fun t => decide (t < 4096))
    ++ low.flatMap (fun e => (List.range 4096).filter (fun t => belowEyelet e t))).eraseDups

/-- The end of TILES (R59, R246, R571): what the fuse map says and the self-tests found. -/
def State.endTiles (s : State) (f : BootFound) : State :=
  let s := { s with
    selfTestFail := failedTiles f
    net := { s.net with failedLinks := (s.part.fusedLinks
      ++ f.links.map (fun (l : Nat × Nat × Nat × Nat) => (⟨l.1, l.2.1, l.2.2.1, l.2.2.2⟩ : LinkId)) ++ s.test.badLinks
      ++ (s.part.fusedRouters ++ f.routers).flatMap (fun (r : Nat × Nat × Nat) => linksAt r.1 r.2.1 r.2.2)).eraseDups } }
  let s := f.slices.foldl (fun s sl => if sl < 512 then s.declareDead (sliceNode sl) 3 else s) (s.setClusterDomains .off)
  if f.eyelets.any (fun e => decide (584 ≤ e)) then s.bootFails .targetIsolated
  else ({ s with test := { s.test with badLinks := [] } }).setStage 7

/-- The end of HBM_TRAIN (R307, R556). -/
def State.endTraining (s : State) (f : BootFound) : State :=
  let s := [16, 17].foldl (fun s d => (s.setDomain d .on).leaveSelfRefresh d) s
  let bad := f.failedStacks.filter (fun k => decide (k < 8))
  let s := { s with hbmFailed := bad }
  let s := (bad.flatMap (fun k => (List.range 4).map (fun q => hbmNode (4 * k + q)))).foldl (fun s n => s.declareDead n 3) s
  s.setStage (if s.power.coldBoot then 9 else 10)

/-- NEWEN (R436, R548): D18 on and training started where a port is enabled. -/
def State.startLinks (s : State) : State :=
  if (List.range 8).any (fun n => s.portEnabled n) then
    (List.range 8).foldl (fun s n => s.startTraining n) (s.setDomain 18 .on)
  else s

/-- BOOT_STAGE_END (R548): the running stage ends with what it found, and the next begins. -/
def execBootStageEnd (f : BootFound) (s : State) : Host.Outcome State Fault Refusal :=
  let x := s.power
  if x.porHeld ∨ x.bootState ≠ 0 then .next s
  else
    match x.stage with
    | 2 => .next (s.endRom f)
    | 4 =>
      if x.bootSel = 1 ∨ x.imageDone then .next s
      else if imageValid f.imageA then .next (s.imageLoaded f.imageA)
      else if imageValid f.imageB then .next (s.imageLoaded f.imageB)
      else .next (s.bootFails .badDescriptor)
    | 5 =>
      .next (({ s with weltFailed := (s.net.weltFailing ++ f.lanes).eraseDups
                       net := { s.net with weltFailing := [] } }.setClusterDomains .on).setStage 6)
    | 6 => .next (s.endTiles f)
    | 7 => .next (s.setStage 8)
    | 8 => .next (s.endTraining f)
    | 9 => .next ((s.zero 0 (hbmBytes s)).setStage 10)
    | 10 => .next (s.setStage 11)
    | 11 => .next (({ s with host := { s.host with ready := !s.host.perstLow } }).setStage 12)
    | 12 => .next (s.startLinks.setStage 13)
    | 13 =>
      let s := ({ s with shelf := { s.shelf with ready := true } }).setStage 0xFF
      .next { s with power := { s.power with bootState := 1 } }
    | _ => .next s

/-- BOOT_STAGE_TIMEOUT (R548, R556): a stage that has a bound exceeds it. -/
def execBootStageTimeout (s : State) : Host.Outcome State Fault Refusal :=
  let x := s.power
  let bounded := x.stage = 2 || (x.stage = 4 && x.bootSel ≠ 1 && !x.imageDone) || decide (5 ≤ x.stage ∧ x.stage ≤ 13)
  if !x.porHeld && x.bootState = 0 && bounded then .next (s.bootFails .timeout) else .next s

/-! ### Power domains (R535 to R539) -/

/-- A compute domain is idle (R536). -/
def State.computeIdle (s : State) (c : Nat) : Bool :=
  let mine := fun t => decide (t / 512 = c)
  (s.tiles.all (fun e => !(mine e.1) || (e.2.task.isNone && e.2.xfers.isEmpty)))
    && !((s.seq c).queues.any (fun q => q.2.any (fun t => t.phase = .dispatched)))
    && s.net.initiators.all (fun e => !(mine e.1) || e.2.out.isEmpty)
    && s.net.targets.all (fun e => !(mine e.1) || e.2.lent.isEmpty)
    && (s.porch c).packets.isEmpty
    && s.lacing.ctxs.all (fun e => e.2.arrived.all (fun m => !(mine m.1))
        && e.2.passed.all (fun m => !(decide (m.1 < 512 ∧ m.1 / 64 = c) || decide (512 ≤ m.1 ∧ m.1 < 576 ∧ (m.1 - 512) / 8 = c))))

/-- COMPUTE_DOMAIN_IDLE (R535, R536): in a READY partition the idle domain is turned off with its storage retained. -/
def execComputeDomainIdle (c : ClusterId) (s : State) : Host.Outcome State Fault Refusal :=
  match s.partOfCluster c.val with
  | some p =>
    if (s.partition p).state = .ready ∧ s.domain c.val = .on ∧ s.computeIdle c.val then .next ((s.setDomain c.val .off).scrubsSleep c.val)
    else .next s
  | none => .next s

/-- SLICE_RETAIN (R535). -/
def execSliceRetain (c : ClusterId) (s : State) : Host.Outcome State Fault Refusal :=
  match s.partOfCluster c.val with
  | some p =>
    let quiet := (List.range 64).all (fun i => (s.target (sliceNode (64 * c.val + i))).intake.isEmpty)
    if (s.partition p).state = .ready ∧ s.domain (8 + c.val) = .on ∧ quiet ∧ (s.porch (8 + c.val)).packets = [] then
      .next ((s.setDomain (8 + c.val) .retain).scrubsSleep (8 + c.val))
    else .next s
  | none => .next s

/-- NEWEN_DOMAIN_OFF (R433, R535). -/
def execNewenDomainOff (s : State) : Host.Outcome State Fault Refusal :=
  if s.domain 18 = .on ∧ !((List.range 8).any (fun n => s.portEnabled n)) ∧ (s.porch 18).packets = [] then
    .next (((List.range 8).foldl (fun s n => s.portDown n) s).setDomain 18 .off)
  else .next s

/-- ALMANAC_RECEIVER_CHECK (R535): D19 is woken for a receiver, and turned off where none of its wake conditions holds. -/
def execAlmanacReceiverCheck (present : Bool) (s : State) : Host.Outcome State Fault Refusal :=
  let a := s.almanac
  if present ∧ s.domain 19 = .off then .next (s.setDomain 19 .waking)
  else if !present ∧ s.domain 19 = .on ∧ a.streams = [] ∧ a.test = false then
    .next (({ s with almanac := { counts := a.counts, frameSeq := a.frameSeq } }).setDomain 19 .off)
  else .next s

/-- Words of a domain's storage that hold an error. -/
def State.faultyWords (s : State) (f : Nat → Bool) : List Nat :=
  (s.mem.cond.map (fun e => 8 * e.1)).filter f

/-- SCRUB_BURST (R539): the scrubbers of a slice or compute domain that is not on complete a whole pass, never late. -/
def execScrubBurst (d : Fin 16) (s : State) : Host.Outcome State Fault Refusal :=
  let c := d.val % 8
  if s.domain d.val = .on ∨ (s.partOfCluster c).isNone ∨ s.obj 0x3300 2 1 = 0 then .next s
  else
    let mine : Nat → Bool := fun a => match regionOf s a with
      | .sliceDirect sl _ => decide (8 ≤ d.val ∧ sl / 64 = c)
      | .tile t o => decide (d.val < 8 ∧ t / 512 = c ∧ o < 0x18000)
      | _ => false
    let s := (s.faultyWords mine).foldl (fun s a => s.scrubAt a) s
    let nodes := if d.val < 8 then (List.range 512).map (fun i => 512 * c + i)
      else (List.range 64).map (fun i => sliceNode (64 * c + i))
    .next (nodes.foldl (fun s n => s.passEnds n 0 true) s)

/-! ### Thermal control (R557, R558) -/

/-- The target duty at a temperature (R557). -/
def State.dutyTarget (s : State) (t : Int) : Nat :=
  let start : Int := s.obj 0x9020 3 95
  let stp : Int := s.obj 0x9020 4 2
  if t < start then 8 else (max 1 (7 - (t - start) / stp)).toNat

/-- THERMAL_DUTY after a reading (R557, R558). -/
def State.thermalStep (s : State) : State :=
  let x := s.power
  let t := x.dieTemp
  let again := x.tripping && decide (110 < t)
  if again || decide (115 ≤ t) then
    { s with power := { x with tripping := true, trips := x.trips + (!again).toNat, thermalDuty := 1, aboveSince := none } }
  else
    let g := s.dutyTarget t
    { s with power := { x with
        tripping := false, thermalDuty := min x.thermalDuty g
        aboveSince := if x.thermalDuty < g then some (x.aboveSince.getD s.calends) else none } }

/-- SENSOR_READ (R557, R558, R480, R484): the hottest sensor of each cluster and the hottest of the others. -/
def execSensorRead (clusters : List Int) (other : Int) (s : State) : Host.Outcome State Fault Refusal :=
  if s.power.porHeld then .next s
  else
    let l := clusters.take 8
    let t := l.foldl max other
    let x := s.power
    let ct := l.zipIdx.foldl (fun m e => Sparse.set 0 m e.2 e.1) x.clusterTemp
    let s := { s with power := { x with dieTemp := t, dieTempMax := max x.dieTempMax t, clusterTemp := ct } }
    .next (if 125 ≤ t then s.thermalStep.thermalTrip else s.thermalStep)

/-- DUTY_RAISE (R557): 10 ms have passed in which every reading found the target above the duty. -/
def execDutyRaise (s : State) : Host.Outcome State Fault Refusal :=
  let x := s.power
  let g := s.dutyTarget x.dieTemp
  if x.aboveSince.isSome ∧ !x.tripping ∧ x.thermalDuty < g then
    let n := x.thermalDuty + 1
    .next { s with power := { x with thermalDuty := n, aboveSince := if n < g then some s.calends else none } }
  else .next s

/-- TRST_N (R544, R572): while it is low the port is in Test-Logic-Reset, which selects IDCODE. -/
def execTrstN (low : Bool) (s : State) : Host.Outcome State Fault Refusal :=
  .next { s with tap := { s.tap with trstLow := low, code := if low then 1 else s.tap.code } }

end Sys2Proof.Machine
end

