-- ==== Sys2Proof/Machine/Tick.lean ====
section
/-! DEFINITION. A cycle of CLK_CORE in which no command comes: Calends counts (R57) and every engine classes the cycle
(R486, R487). -/

namespace Sys2Proof.Machine

/-! ### Held tasks (R201) -/

/-- The conditions of R201 that a task does not meet, ascending. -/
def State.unmet (s : State) (c q : Nat) (t : Task) : List Nat :=
  let e := ((s.cmd t.cmd).map (·.entry)).getD 0
  let whole := match s.partOfCluster c with
    | some p => decide ((s.partition p).state ≠ .hung)
    | none => false
  let met := [s.epochReached c e, s.gateOpen t, !((taskTiles c t.desc).any s.tileHeld), !(s.offSlot c),
    !(s.seq c).force, whole, noOlderOverlap (s.queue c q) t]
  (met.zipIdx.filter (fun m => !m.1)).map (fun m => m.2 + 1)

/-- The stall reason of a READY task that only condition 1, 2 or 5 holds (R487). -/
def State.heldReason (s : State) (c q : Nat) (t : Task) : Option Nat :=
  let u := s.unmet c q t
  if t.phase = .ready ∧ u ≠ [] ∧ u.all (fun k => k = 1 || k = 2 || k = 5) then some (if u.head? = some 2 then 6 else 7) else none

/-- Held tasks of cluster `c` in the order of R203, with their reasons. -/
def State.heldTasks (s : State) (c : Nat) : List (Nat × Task × Nat) :=
  (List.range 4).flatMap (fun prio =>
    let last := (Sparse.get none (s.seq c).lastQueue prio).getD 15
    ((List.range 16).map (fun i => (last + 1 + i) % 16)).flatMap (fun q =>
      if s.queuePrio c q = prio then (s.queue c q).filterMap (fun t => (s.heldReason c q t).map (fun r => (q, t, r))) else []))

/-! ### Classes of a cycle (R487) -/

/-- Class of a cycle of an engine: busy, stalled with a reason, or idle. -/
inductive CycleClass where
  | busy
  | stalled (reason : Nat)
  | idle
deriving DecidableEq, Repr

/-- A sequencer's cycle. -/
def State.seqClass (s : State) (c : Nat) : CycleClass :=
  let reasons := (s.heldTasks c).map (fun h => ((s.unmet c h.1 h.2.1).headD 0, h.2.2))
  if (s.seq c).queues.any (fun q => q.2.any (fun t => t.phase = .dispatched)) then .busy
  else
    match reasons.find? (fun r => reasons.all (fun x => decide (r.1 ≤ x.1))) with
    | some r => .stalled r.2
    | none => .idle

/-- A copy engine's cycle. -/
def State.copyClass (s : State) (e : Nat) : CycleClass :=
  let x := s.engine e
  if x.workAt = some s.calends then .busy
  else if x.queues.any (fun q => q.2.any (fun d => d.active)) then
    .stalled (if (s.initiator (ceNode e)).waiting.isEmpty then 2 else 1)
  else .idle

/-- An HBM port's cycle. -/
def State.portClass (s : State) (p : Nat) : CycleClass :=
  let l := (s.target (hbmNode p)).intake
  if l.any (fun e => e.phase = .inService) || (Sparse.get ({} : HbmPortState) s.hbm p).refreshAt = some s.calends then .busy else .idle

/-- A Newen port proxy's cycle. -/
def State.proxyClass (s : State) (n : Nat) : CycleClass :=
  let x := s.port n
  let c := x.credits
  if x.near = [] ∧ x.far = [] then .idle
  else if x.link ≠ .up ∨ (x.reqOut ≠ [] ∧ c.1 = 0) ∨ (x.rspOut ≠ [] ∧ c.2.1 = 0) then .stalled 1
  else .busy

/-- A cycle of the engine at node `n` is counted (R486, R489). -/
def State.countEngine (s : State) (n : Nat) (x : CycleClass) : State :=
  let k := 16 * (n % 4096)
  match x with
  | .busy => { s with engineCounts := Sparse.bump48 s.engineCounts k 1 }
  | .stalled r =>
    { s with engineCounts := Sparse.bump48 (Sparse.bump48 s.engineCounts (k + 1) 1) (k + 3 + r) 1 }
  | .idle => s

/-- A cycle of a tile in no task, selected by a held task (R487); what its issue attempts leave to be counted is done there. -/
def State.countTile (s : State) (t reason : Nat) : State :=
  if h : t < 4096 then
    let x := s.tile ⟨t, h⟩
    if x.task.isNone ∧ s.enabled t then
      s.setTile ⟨t, h⟩ ((x.count wStalled 1).count (wReason0 + reason) 1)
    else s
  else s

/-- Tiles whose program has ended and whose task awaits outstanding work are busy (R135, R487). -/
def State.countEnding (s : State) : State :=
  { s with tiles := s.tiles.map (fun e =>
      let x : Tile := e.2
      (e.1, if x.task.isSome && x.ended && !x.stopped && x.fault.isNone then x.count wBusy 1 else x)) }

/-- Tiles that held tasks of cluster `c` select, each with the reason of the first such task. -/
def State.heldTiles (s : State) (c : Nat) : List (Nat × Nat) :=
  (s.heldTasks c).foldl (fun l h =>
    l ++ ((taskTiles c h.2.1.desc).filter (fun t => !(l.any (fun e => e.1 = t)))).map (fun t => (t, h.2.2))) []

/-- Every engine classes the cycle (R486 to R488). -/
def State.countCycle (s : State) : State :=
  let held := (List.range 8).flatMap (fun c => if s.offSlot c then [] else s.heldTiles c)
  let classes := (List.range 8).map (fun c => (seqNode c, s.seqClass c)) ++ (List.range 16).map (fun e => (ceNode e, s.copyClass e))
    ++ (List.range 32).map (fun p => (hbmNode p, s.portClass p)) ++ (List.range 8).map (fun n => (newenNode n, s.proxyClass n))
  let s := held.foldl (fun s e => s.countTile e.1 e.2) s.countEnding
  classes.foldl (fun s e => s.countEngine e.1 e.2) s

/-- Every running MMA does its next step (R172). -/
def State.arrayCycle (s : State) : State :=
  (s.tiles.filter (fun e => e.2.mmaRun.isSome)).foldl (fun s e => if h : e.1 < 4096 then s.mmaCycle ⟨e.1, h⟩ else s) s

/-- One cycle of CLK_CORE with no command: running MMAs do their next step (R172), engines class the cycle (R486) and Calends
counts (R57), modulo 2^64, unless the power-on reset is held. -/
def tick (s : State) : State :=
  if s.power.porHeld then s
  else
    let s := s.arrayCycle.countCycle
    { s with calends := (s.calends + 1) % 2 ^ 64 }

end Sys2Proof.Machine
end

