-- ==== Sys2Proof/Machine/Vigil.lean ====
section
/-! DEFINITION. Vigil: the watchdog and the freeze (R507 to R510, R521), the sections of a snapshot (R511 to R518), the dump
and what follows it (R513, R514, R519, R520); and the event entries that wait (R496). -/

namespace Sys2Proof.Machine

/-! ### Sections of a dump (R515 to R518) -/

/-- Parts of a body: byte offset and value. -/
def bodyOf (l : List (Nat × Nat)) : Nat := l.foldl (fun n p => n + p.2 * 2 ^ (8 * p.1)) 0

/-- An intake or outstanding-request entry (R516): 16 bytes. -/
def entry16 (p : Packet) (address cal : Nat) (aged await serving : Bool) : Nat :=
  let w0 := aged.toNat * 2 ^ 59 + await.toNat * 2 ^ 58 + serving.toNat * 2 ^ 57 + 2 ^ 56 + p.priority.toNat * 2 ^ 54
    + p.cmd.toNat * 2 ^ 48 + address
  let w1 := cal % 2 ^ 23 * 2 ^ 41 + p.part.toNat * 2 ^ 38 + p.vi.toNat * 2 ^ 32 + p.conv.toNat * 2 ^ 24
    + p.bytes.toNat * 2 ^ 12 + p.tag.toNat
  w0 + w1 * 2 ^ 64

/-- An intake entry as a dump shows it. -/
def IntakeEntry.dump (e : IntakeEntry) : Nat :=
  entry16 e.pkt e.pkt.address.toNat e.arrival e.aged.isSome (e.phase = .pulling) (e.phase = .inService)

/-- The intake of node `n` by slot index. -/
def State.intakeBody (s : State) (n : Nat) : Nat :=
  bodyOf ((s.target n).intake.filterMap (fun e =>
    (slotIndex e.pkt.src.toNat e.pkt.tag.toNat).map (fun k => (16 * k, IntakeEntry.dump e))))

/-- Event ring of service node `n`. -/
def State.ringBody (s : State) (n : Nat) : Nat := ofLanes 64 (Sparse.get ({} : EventRing) s.rings (n % 4096)).words

/-- Words W0 to W27 of a tile (R517). -/
def State.tileWords (s : State) (t : TileId) : List Nat :=
  let x := s.tile t
  let i := s.initiator t.val
  let y := s.target t.val
  let holding := x.task.isSome && x.held.isSome
  let w0 := x.pc % 2048 + x.task.isSome.toNat * 2 ^ 11 + holding.toNat * 2 ^ 12
    + (if holding then x.held.getD 0 else 0) * 2 ^ 13 + (if x.role = .v then 2 ^ 16 else 0) + x.loops.length * 2 ^ 17
    + x.progLen * 2 ^ 32
  let w1 := if holding then memNat s.mem.cells (tileAddr t.val (8 * x.pc)) 8 else 0
  let w2 := match x.task with
    | some k => k.taskId.toNat + k.queue * 2 ^ 32
    | none => 0
  let loop := fun (k : Nat) => match x.loops[k]? with
    | some l => l.first + l.last * 2 ^ 11 + l.left * 2 ^ 32
    | none => 0
  let req := fun (k : Nat) => match i.out[k]? with
    | some r => r.pkt.dest.toNat + r.tag * 2 ^ 14 + 2 ^ 26 + (r.start + r.limit - s.calends) * 2 ^ 32
    | none => 0
  let held := (List.range 0x2052).flatMap (fun n => i.held.filter (fun h => h.1 = n))
  let slot := fun (k : Nat) => match held[k]? with
    | some h => h.1 + h.2 * 2 ^ 14
    | none => 0
  let w25 := (x.mmaRun.isSome.toNat + x.mmaQueue.isSome.toNat) + (x.drainRun.isSome.toNat + x.drainQueue.isSome.toNat) * 4
    + ((List.range 4).foldl (fun m ch => if x.laces.any (fun l => l.ch = ch) then m + 2 ^ ch else m) 0) * 2 ^ 4
    + x.xfers.length * 2 ^ 8 + y.lent.length * 2 ^ 16
  let w26 := match x.watch with
    | some w => w.tally + 2 ^ 8 + w.target.toNat * 2 ^ 32
    | none => 0
  [w0, w1, w2] ++ (List.range 4).map loop ++ [x.statusReg] ++ (List.range 8).map req ++ (List.range 8).map slot
    ++ [held.length, w25, w26, x.ring.written]

/-- The ports that the router of tile `t` has (R245). -/
def routerPorts (t : Nat) : List Nat :=
  let x := t % 32
  (List.range 7).filter (fun p =>
    if p = 2 then decide (x ≤ 30) else if p = 4 then decide (1 ≤ x) else if p = 5 then x % 8 = 0 || x % 8 = 7
    else if p = 6 then x = 0 || x = 31 else true)

/-- The word of an input (R518): for each half of each channel the flits in its queue, and the credits for that half at the next
hop of the output with the input's port code, a full depth where the output leads to a node. VC0 has no credits (log entry
17). -/
def State.queueWord (s : State) (here next : Leg → Option Place) : Nat :=
  ((List.range 8).map (fun k =>
    let leg : Leg := if k % 2 = 0 then .out else .inward
    let vc : BitVec 2 := BitVec.ofNat 2 (k / 2)
    let d := queueDepth (k / 2)
    let flits := fun (pl : Option Place) => min d ((pl.map (fun p => s.queueFlits p vc)).getD 0)
    let free := if k < 2 then 0 else d - flits (next leg)
    flits (here leg) * 2 ^ (4 * k) + free * 2 ^ (32 + 4 * k))).foldl (· + ·) 0

/-- The word of port `k` of the router of tile `t` (R245, R518). -/
def State.routerWord (s : State) (t k : Nat) : Nat :=
  let c := clusterOfTile t
  let (y, x) := tilePos t
  let edge := if x = 0 then 0 else 1
  let here := fun (i : InPort) (l : Leg) => some (Place.router c y x l i)
  if k = 0 then s.queueWord (here (.node t)) (fun _ => none)
  else if k = 6 then s.queueWord (here (.gate edge y)) (fun l => if l = .out then none else some (.switch c (.gate edge y)))
  else
    match meshHop y x k with
    | some (y', x') => s.queueWord (here (.mesh ([0, 3, 4, 1, 2, 5].getD k 0))) (fun l => some (.router c y' x' l (.mesh k)))
    | none => s.queueWord (here (.node (sliceNode (64 * c + (if k = 1 then x else 32 + x))))) (fun _ => none)

/-- The inputs of backbone switch `c` with what their outputs lead to, in the order of R515, kind 6: gates, slice ports,
horizontal, vertical, Welt, attached nodes (R247). -/
def switchInputs (c : Nat) : List (Option (InPort × Option Place)) :=
  let gates := [0, 1].flatMap (fun e => (List.range 16).map (fun r =>
    some (InPort.gate e r, some (Place.router c r (gateColumn e) .inward (.gate e r)))))
  let node := fun (n : Nat) => some (InPort.node n, (none : Option Place))
  let links := [c ^^^ 1, c ^^^ 2].map (fun b => some (InPort.link b, some (Place.switch b (.link c))))
  let far := match c with
    | 1 => some 4
    | 3 => some 6
    | 4 => some 1
    | 6 => some 3
    | _ => none
  let welt := far.map (fun b =>
    (InPort.welt (if c < 4 then 1 else 0) 0, some (Place.switch b (.welt (if c < 4 then 0 else 1) 0))))
  let nodes := ((List.range 0x60).map (· + 0x2000)).filter (fun n => (nodeKind n).isSome && switchOf n = c)
  gates ++ (List.range 64).map (fun k => node (sliceNode (64 * c + k))) ++ links ++ [welt] ++ nodes.map node

/-- The words of switch `c`, where packets take the inbound halves alone (R257, R515, R518). -/
def State.switchWords (s : State) (c : Nat) : Nat :=
  bodyOf ((switchInputs c).zipIdx.map (fun e => (8 * e.2, match e.1 with
    | some (i, next) =>
      let inward := fun (pl : Option Place) (l : Leg) => if l = .out then none else pl
      s.queueWord (inward (some (.switch c i))) (inward next)
    | none => 0)))

/-- A free value of `n` bytes: parts of a body whose layout the spec does not state (log entry 17). -/
def freeSpan (i n : Nat) : Nat := Config.freeNat i % 2 ^ (8 * n)

/-- The slot word of a task (R515). -/
def State.slotWord (s : State) (c q : Nat) (t : Task) : Nat :=
  let st := match t.phase with
    | .pending => 1 | .ready => 2 | .dispatched => 3
  let cond := if t.phase = .ready then (s.unmet c q t).headD 0 else 0
  st + cond * 8 + taskId t.desc * 2 ^ 32

/-- Cycles that the watchdog of cluster `c` has run (R508). -/
def State.watchdogRun (s : State) (c : Nat) : Nat :=
  let on := match s.partOfCluster c with
    | some p => decide ((s.partition p).state = .ready)
    | none => false
  if on && (s.seq c).queues.any (fun q => q.2.any (fun t => t.phase = .dispatched)) then s.calends - (s.seq c).watchdogFrom else 0

/-- The body of a sequencer. -/
def State.seqBody (s : State) (c : Nat) : Nat :=
  let x := s.seq c
  let slots := (List.range 16).flatMap (fun q => (s.queue c q).map (fun t => (8 * (64 * q + t.slot), s.slotWord c q t)))
  let tallies := (List.range 256).map (fun n => (0x2000 + 4 * n, (Sparse.get 0 x.tallies n).toNat))
  bodyOf (slots ++ tallies ++ [(0x2400, ofLanes 64 [x.epoch.toNat, x.commits.length, x.duty, s.watchdogRun c]),
    (0x3E00, s.ringBody (seqNode c))])

/-- What has arrived at eyelet `e` of a context, one bit per child in child-index order, and the first message (R515). -/
def State.eyeletArrived (s : State) (p ch e : Nat) : Nat × Option LaceMsg :=
  let x := s.ctx p ch
  let ms := if eyeletLevel e = 1 then (eyeletTiles e).map (fun t => x.memberMsg t)
    else (eyeletChildren e).map (fun k => Sparse.get none x.passed k)
      ++ (if e = 586 ∧ s.domainScope p ch then s.childPorts.map (fun n => Sparse.get none x.childMsgs n) else [])
  ((ms.zipIdx.filter (fun m => m.1.isSome)).foldl (fun a m => a + 2 ^ m.2) 0, ms.findSome? id)

/-- The body of an eyelet: its 32 contexts. -/
def State.eyeletBody (s : State) (e : Nat) : Nat :=
  bodyOf ((List.range 32).map (fun k =>
    let x := s.ctx (k / 4) (k % 4)
    let a := s.eyeletArrived (k / 4) (k % 4) e
    let m := a.2.getD { op := 0, k := 0 }
    let w0 := m.op % 16 + x.active.toNat * 16 + m.k % 32 * 32 + (if x.active then x.sweep else 0) * 2 ^ 10 + x.ended * 2 ^ 32
    (32 * k, ofLanes 64 [w0, a.1, if x.active then s.calends - x.start else 0, 0])))

/-- The body of a copy engine; queue heads and active flags have no stated layout. -/
def State.copyBody (s : State) (i e : Nat) : Nat :=
  let x := s.engine e
  let descs := fun (q base n : Nat) => ((x.queue q).take n).zipIdx.map (fun (d : CopyDesc × Nat) => (base + 64 * d.2, d.1.words))
  let reqs := ((s.initiator (ceNode e)).out.take 256).zipIdx.map (fun (r : Req × Nat) =>
    (0x8600 + 16 * r.2, entry16 r.1.pkt r.1.pkt.address.toNat r.1.start false false false))
  bodyOf (descs 0 0 16 ++ descs 1 0x400 8 ++ (List.range 64).flatMap (fun v => descs (2 + v) (0x600 + 512 * v) 8) ++ reqs
    ++ [(0x9600, freeSpan i 0x2800), (0xBE00, s.ringBody (ceNode e))])

/-- The body of a Newen port proxy. -/
def State.proxyBody (s : State) (n : Nat) : Nat :=
  let x := s.port n
  let near := x.near.filterMap (fun t =>
    ((s.target (newenNode n)).intake.find? (fun e => e.pkt.src = t.src && e.pkt.tag = t.tag)).map (fun e =>
      (16 * t.linkTag, IntakeEntry.dump e)))
  let far := x.far.map (fun t =>
    (0x2000 + 16 * t.linkTag, entry16 t.pkt t.pkt.address.toNat t.arrival false false false))
  bodyOf (near ++ far ++ [(0x4000, s.ringBody (newenNode n))])

/-- The body of the PCIe/CXL port; the layout of VI, ring and SEQ in a word is not stated. -/
def State.pcieBody (s : State) (i : Nat) : Nat :=
  let reqs := s.host.reqs.filterMap (fun (r : HostReq) =>
    ((s.target pcieNode).intake.find? (fun e => e.pkt.src.toNat = r.src && e.pkt.tag.toNat = r.rtag)).map (fun e =>
      (16 * r.tag, entry16 e.pkt (hostBase + r.a) r.start e.aged.isSome false (e.phase = .inService))))
  let cmds := ((s.host.cmds.filter (fun c : Cmd => !c.refused)).take 256).zipIdx.map (fun (c : Cmd × Nat) =>
    (0x4000 + 16 * c.2, laneNat (Config.freeNat i) 64 c.2 + c.1.tA * 2 ^ 64))
  bodyOf (reqs ++ cmds ++ [(0x5000, s.ringBody pcieNode)])

/-- The body of a section; `i` is its draw of free values. -/
def State.sectionBody (s : State) (i kind n : Nat) : Nat :=
  match kind with
  | 1 =>
    if h : n < 4096 then bodyOf [(0, ofLanes 64 (s.tileWords ⟨n, h⟩)), (0x200, ofLanes 64 (s.tile ⟨n, h⟩).ring.words)] else 0
  | 2 => bodyOf ((routerPorts n).map (fun k => (8 * k, s.routerWord n k)))
  | 3 => s.seqBody n
  | 4 => s.eyeletBody n
  | 5 => s.intakeBody (sliceNode n)
  | 6 => s.switchWords n
  | 7 => bodyOf [(0, s.intakeBody (hbmNode n)), (0x10400, s.ringBody (hbmNode n))]
  | 8 => s.copyBody i n
  | 9 => s.proxyBody n
  | 10 => s.pcieBody i
  | 11 => bodyOf [(0, freeSpan i 0x3E00), (0x3E00, s.ringBody mgmtNode)]
  | _ => bodyOf [(0, ofLanes 64 ((List.range 8).map s.almanacReg)), (0x200, s.ringBody almanacNode)]

/-- Bytes of a section's body (R515). -/
def sectionBytes (kind : Nat) : Nat :=
  [0, 1024, 128, 16384, 1024, 66560, 4096, 67072, 49152, 16896, 20992, 16384, 1024].getD kind 0

/-- The clusters of a scope; for the device, every one. -/
def State.scopeClusters (s : State) (scope : Nat) : List Nat := if scope < 8 then s.clustersOf scope else List.range 8

/-- The dump set of a scope in the order of its sections (R512, R515). -/
def State.dumpSet (s : State) (scope : Nat) : List (Nat × Nat) :=
  let cl := s.scopeClusters scope
  let per := fun (k n : Nat) => cl.flatMap (fun c => (List.range n).map (fun i => (k, n * c + i)))
  let eyelets := cl.flatMap (fun c => (List.range 64).map (fun i => (4, 64 * c + i)))
    ++ cl.flatMap (fun c => (List.range 8).map (fun i => (4, 512 + 8 * c + i))) ++ cl.map (fun c => (4, 576 + c))
    ++ [(4, 584), (4, 585), (4, 586)]
  let all := fun (k n : Nat) => (List.range n).map (fun i => (k, i))
  (per 1 512).filter (fun u => s.enabled u.2) ++ per 2 512 ++ cl.map (fun c => (3, c)) ++ eyelets ++ per 5 64
    ++ all 6 8 ++ all 7 32 ++ all 8 16 ++ all 9 8 ++ all 10 1 ++ all 11 1 ++ all 12 1

/-! ### The watchdog and the freeze (R508 to R510, R521) -/

/-- WATCHDOG (R508): it has run for WATCHDOG_TIME; its event is written, it is counted, and trigger 1 occurs. One that would
fire in the cycle in which a task changes state has restarted instead (R530). -/
def execWatchdog (c : ClusterId) (s : State) : Host.Outcome State Fault Refusal :=
  match s.partOfCluster c.val with
  | none => .next s
  | some p =>
    if (s.partition p).state = .ready ∧ (s.seq c.val).queues.any (fun q => q.2.any (fun t => t.phase = .dispatched))
        ∧ (s.seq c.val).watchdogFrom ≠ s.calends then
      let x := s.seq c.val
      let s := s.setSeq c.val { x with watchdogTrips := (x.watchdogTrips + 1) % 2 ^ 32, watchdogFrom := s.calends }
      .next ((s.svcEvent (seqNode c.val) 0x13 0).trigger 1 p c.val)
    else .next s

/-- VIs in the scope of a freeze (R509). -/
def State.scopeVis (s : State) (scope : Nat) : List Nat :=
  if scope < 8 then s.visOf scope else (List.range 64).filter (fun v => s.viState v ≠ 0)

/-- Partitions in scope. -/
def State.scopeParts (s : State) (scope : Nat) : List Nat :=
  if scope < 8 then [scope] else (List.range 8).filter (fun p => (s.partition p).clusters ≠ 0)

/-- What a freeze does in cycle t_F (R509). -/
def State.freezeNow (s : State) (code scope detail : Nat) : State :=
  let n := (s.vigil.count + 1) % 2 ^ 32
  let s := (s.scopeParts scope).foldl (fun s p =>
    s.setPartition p { s.partition p with state := .hung, since := s.calends }) s
  let f : Freeze := { no := n, code := code, scope := scope, detail := detail, tF := s.calends }
  let s := { s with vigil := { s.vigil with
    state := 1, scope := scope, count := n, freezes := s.vigil.freezes ++ [f], hung := s.vigil.hung || scope = 8 } }
  let s := (s.svcEvent vigilNode 0x60 scope).sendRecord
    { kind := 3, cal := s.calends, node := vigilNode, words := [n * 2 ^ 32 + code * 16 + scope] }
  (s.scopeVis scope).foldl (fun s v => s.fnEvent v 2) s

/-- FREEZE (R509, R521): the oldest trigger is taken up. One that a freeze in FREEZING or DUMPING covers is merged into it; one
of a partition that is HUNG, or that is not READY, does not occur. -/
def execFreeze (s : State) : Host.Outcome State Fault Refusal :=
  match s.vigil.triggers with
  | [] => .next s
  | (code, scope, detail) :: rest =>
    let s := { s with vigil := { s.vigil with triggers := rest } }
    if s.freezing scope ∨ (scope < 8 ∧ (s.partition scope).state ≠ .ready) ∨ (8 ≤ scope ∧ s.vigil.hung) then .next s
    else .next (s.freezeNow code scope detail)

/-- VIGIL_SNAPSHOT (R511): the freeze that is dumped first has its units latched, and VIGIL_STATE is DUMPING. -/
def execVigilSnapshot (s : State) : Host.Outcome State Fault Refusal :=
  match s.vigil.freezes with
  | f :: rest =>
    if f.tS.isSome then .next s
    else
      let l := s.dumpSet f.scope
      let secs := l.mapIdx (fun j (u : Nat × Nat) => (u.1, u.2, sectionBytes u.1, s.sectionBody (s.free + j) u.1 u.2))
      .next { s with
        free := s.free + l.length
        vigil := { s.vigil with state := 2, freezes := { f with tS := some s.calends } :: rest, snapshot := secs } }
  | [] => .next s

/-! ### The dump (R513, R514, R519) -/

/-- Vigil writes `n` bytes with privileged requests at priority 3 (R513): whether every write ended OK. -/
def State.vigilWrite (s : State) (a n v : Nat) : Bool × State :=
  (pieces2k (n / 2048 + 2) a n).foldl (fun (acc : Bool × State) p =>
    let r := acc.2.deviceAccess (mkPacket cmdWrite vigilNode 0 0 p.1 p.2 0 0 0 3 0 (bitsAt v (8 * (p.1 - a)) (8 * p.2)) 0) true
    (acc.1 && r.st = .ok, r.s)) (true, s)

/-- The slot of freeze `n` (R513). -/
def State.dumpSlot (s : State) (n : Nat) : Nat := s.vigilBase + (n - 1) % 4 * 0x4000000

/-- Bytes of a dump, header included. -/
def dumpBytes (l : List (Nat × Nat × Nat × Nat)) : Nat := l.foldl (fun n u => n + 16 + u.2.2.1) 4096

/-- The 4 KiB header of a dump (R514). -/
def State.dumpHeader (s : State) (f : Freeze) (done written failed total : Nat) (complete : Bool) : Nat :=
  let w0 := 1 + f.scope * 2 ^ 16 + f.code * 2 ^ 24 + f.no * 2 ^ 32
  let w7 := complete.toNat + s.obj 0x3200 0 0 * 2 ^ 8
  bodyOf [(0, ofLanes 64 [w0, f.tF, f.tS.getD 0, done, f.detail, failed + written * 2 ^ 32, total, w7]), (0x200, s.ringBody vigilNode)]

/-- A section with its header (R515). -/
def sectionValue (u : Nat × Nat × Nat × Nat) : Nat :=
  let w0 := u.2.1 + u.1 * 2 ^ 16 + u.2.2.1 * 2 ^ 32
  w0 + crc32 u.2.2.2 0 u.2.2.1 * 2 ^ 64 + u.2.2.2 * 2 ^ 128

/-- The sections are written in turn: how many were, how many were not, the next address (R513, R530). -/
def State.writeSections (s : State) (a : Nat) (l : List (Nat × Nat × Nat × Nat)) : State × Nat × Nat :=
  let r := l.foldl (fun (acc : State × Nat × Nat × Nat) u =>
    let (s, w, f, a) := acc
    let x := s.vigilWrite a (16 + u.2.2.1) (sectionValue u)
    (x.2, w + x.1.toNat, f + (!x.1).toNat, a + 16 + u.2.2.1)) (s, 0, 0, a)
  (r.1, r.2.1, r.2.2.1)

/-- The commands of VI `v` complete HUNG without a record, and so do its copy descriptors (R519). -/
def State.viHung (s : State) (v : Nat) : State :=
  let runs := s.host.cmds.filter (fun c => c.key.vi = v && !c.refused && entryOp c.entry = 1 && c.phase = .running)
  let s := { s with
    host := { s.host with cmds := s.host.cmds.map (fun c : Cmd =>
      if c.key.vi = v ∧ !c.refused then { c with phase := .recorded, status := .hung, tEnd := s.calends } else c) }
    loads := s.loads.filter (fun l : Load => l.key.vi ≠ v)
    copyWait := s.copyWait.filter (fun d => !(d.vi = v && d.owner.queue v = 2 + v)) }
  let s := runs.foldl (fun s c => s.runOver c.entry 0) s
  (List.range 16).foldl (fun s e =>
    (((s.engine e).queue (2 + v)).filter (fun d => d.done.isNone)).foldl (fun s d => s.completeCopy e (2 + v) d .hung) s) s

/-- VIGIL_DONE (R513, R514, R519, R520, R528, R530): the dump stands in its slot, VIGIL_STATE is DONE, what the scope had
accepted completes HUNG, the slot is to be streamed, and the resets that waited begin. -/
def execVigilDone (s : State) : Host.Outcome State Fault Refusal :=
  match s.vigil.freezes with
  | [] => .next s
  | f :: rest =>
    if f.tS.isNone then .next s
    else
      let l := s.vigil.snapshot
      let a := s.dumpSlot f.no
      let total := dumpBytes l
      let s := (s.vigilWrite a 4096 (s.dumpHeader f 0 0 0 total false)).2
      let w := s.writeSections (a + 4096) l
      let s := (w.1.vigilWrite a 4096 (w.1.dumpHeader f w.1.calends w.2.1 w.2.2 total true)).2
      let s : State := { s with
        vigil := { s.vigil with state := 3, freezes := rest, snapshot := [] }
        almanac := { s.almanac with streams := s.almanac.streams ++ [(a, total, 0)] } }
      let s := (s.scopeVis f.scope).foldl (fun s v => s.viHung v) s
      let s : State := if s.domain 19 = .off then s.setDomain 19 .waking else s
      let ps := s.vigil.waitingParts.filter (fun p => !(s.freezing p))
      let vs := s.vigil.waitingVis.filter (fun v => !(s.freezing ((s.viPart v).getD 8)))
      let s : State := { s with vigil := { s.vigil with
        waitingParts := s.vigil.waitingParts.filter (fun p => !(ps.contains p))
        waitingVis := s.vigil.waitingVis.filter (fun v => !(vs.contains v)) } }
      .next (vs.foldl (fun s v => s.startViReset v) (ps.foldl (fun s p => s.startPartReset p) s))

/-! ### Waiting event entries (R496) -/

/-- The next waiting entry of a ring is written, one in a cycle (R496). -/
def EventRing.writeNext (r : EventRing) (cal : Nat) : EventRing :=
  match r.waiting with
  | [] => r
  | e :: rest => if r.lastWrite = some cal then r else { r with waiting := rest }.write cal e

/-- EVENT_ENTRY_WRITE (R496). -/
def execEventEntryWrite (n : NodeId) (s : State) : Host.Outcome State Fault Refusal :=
  if (nodeKind n.toNat).isNone then .fault .noSuchUnit
  else if h : n.toNat < 4096 then
    let x := s.tile ⟨n.toNat, h⟩
    .next (s.setTile ⟨n.toNat, h⟩ { x with ring := x.ring.writeNext s.calends })
  else
    let k := n.toNat % 4096
    .next { s with rings := Sparse.set {} s.rings k ((Sparse.get ({} : EventRing) s.rings k).writeNext s.calends) }

end Sys2Proof.Machine
end

