-- ==== Sys2Proof/Machine/Almanac.lean ====
section
/-! DEFINITION. The Almanac port: its frames (R522, R523), what a TRACE frame takes (R525, R526) and the streams of dumps
(R528). -/

namespace Sys2Proof.Machine

/-- Bytes of a record (R524). -/
def TraceRecord.bytes (r : TraceRecord) : Nat := 8 + 8 * r.words.length

/-- The record as it is sent (R524). -/
def TraceRecord.value (r : TraceRecord) : Nat :=
  let n := TraceRecord.bytes r
  ofLanes 64 ((r.cal % 2 ^ 32 * 2 ^ 32 + r.node % 2 ^ 14 * 2 ^ 16 + n * 2 ^ 8 + r.kind) :: r.words)

/-- The 256 bytes of a frame (R523). -/
def AlmanacFrame.value (f : AlmanacFrame) : Nat :=
  let w0 := f.device % 64 * 2 ^ 48 + min f.dropped 0xFFFF * 2 ^ 32 + f.records.length * 2 ^ 24 + f.kind * 2 ^ 16 + f.seq % 2 ^ 16
  let recs := f.records.foldl (fun (acc : Nat × Nat) r =>
    (acc.1 + TraceRecord.value r * 2 ^ (8 * acc.2), acc.2 + TraceRecord.bytes r)) (0, 0)
  let payload := if f.kind = 1 then recs.1 else if f.kind = 2 then f.offset + f.data * 2 ^ 32 else 0
  let v := w0 + f.cal * 2 ^ 64 + payload * 2 ^ 128
  v + crc32 v 0 252 * 2 ^ 2016

/-- A record's Calends lies 2^30 cycles or more behind (R525). -/
def State.tooOld (s : State) (r : TraceRecord) : Bool := decide (2 ^ 30 ≤ (s.calends + 2 ^ 32 - r.cal % 2 ^ 32) % 2 ^ 32)

/-- Records too old are dropped and counted (R525, R526). -/
def State.dropOld (s : State) : State :=
  let a := s.almanac
  let old := (a.vigils ++ a.marks ++ a.events).filter s.tooOld
  { s with almanac := { a with
    vigils := a.vigils.filter (fun r => !(s.tooOld r)), marks := a.marks.filter (fun r => !(s.tooOld r))
    events := a.events.filter (fun r => !(s.tooOld r)), dropped := a.dropped + old.length
    counts := Sparse.bump48 a.counts 5 old.length } }

/-- The first records of a buffer that fit in `room` bytes: those taken, those left, the room left. -/
def takeRecords : Nat → List TraceRecord → List TraceRecord × List TraceRecord × Nat
  | room, [] => ([], [], room)
  | room, r :: rest =>
    if TraceRecord.bytes r ≤ room then
      let x := takeRecords (room - TraceRecord.bytes r) rest
      (r :: x.1, x.2)
    else ([], r :: rest, room)

/-- The bytes of a dump slot, as Vigil reads them: zeros where they cannot be read (R528, R530). -/
def State.dumpData (s : State) (a n : Nat) : Nat × State :=
  (pieces2k (n / 2048 + 2) a n).foldl (fun (acc : Nat × State) p =>
    let r := acc.2.deviceAccess (mkPacket cmdRead vigilNode 0 0 p.1 p.2 0 0 0 3 0 0 0) false
    (acc.1 + (if r.st = .ok then r.val else 0) * 2 ^ (8 * (p.1 - a)), r.s)) (0, s)

/-- The 32 data blocks of a frame (R522), before the scrambler of IEEE 802.3: block i carries frame bytes 8i to 8i + 7 on lane
i mod 4, with sync header 01. -/
def AlmanacFrame.blocks (f : AlmanacFrame) : List (Nat × Nat × Nat) :=
  (List.range 32).map (fun i => (i % 4, 1, bitsAt (AlmanacFrame.value f) (64 * i) 64))

/-- The ALIGN control blocks of the four lanes (R522): sync header 10, block type 0x4B, byte 1 the lane number. -/
def alignBlocks : List (Nat × Nat × Nat) := (List.range 4).map (fun l => (l, 2, 0x4B + l * 2 ^ 8))

/-- A frame leaves the port (R522, R523, R526). -/
def State.sendFrame (s : State) (f : AlmanacFrame) : State :=
  let a := s.almanac
  let c := Sparse.bump48 (Sparse.bump48 a.counts 0 1) 1 f.records.length
  { s with almanac := { a with
    counts := if f.kind = 2 then Sparse.bump48 c 6 1 else c
    frameSeq := if f.kind = 0 then a.frameSeq else (a.frameSeq + 1) % 2 ^ 16
    sinceAlign := a.sinceAlign + 1, last := some f, blocks := AlmanacFrame.blocks f } }

/-- The frame of an empty payload, formed now. -/
def State.frameNow (s : State) (kind : Nat) : AlmanacFrame :=
  { kind := kind, seq := s.almanac.frameSeq, dropped := min s.almanac.dropped 0xFFFF, cal := s.calends, device := s.obj 0x3200 0 0 }

/-- A TRACE frame: VIGIL, MARK and EVENT records in this order, oldest first (R525). -/
def State.traceFrame (s : State) : State :=
  let a := s.almanac
  let v := takeRecords 236 a.vigils
  let m := takeRecords v.2.2 a.marks
  let e := takeRecords m.2.2 a.events
  let f := { s.frameNow 1 with records := v.1 ++ m.1 ++ e.1 }
  ({ s with almanac := { a with
      vigils := v.2.1, marks := m.2.1, events := e.2.1, dropped := 0, traceLast := true } }).sendFrame f

/-- A DUMP frame: the next 232 bytes of the dump that streams (R528). -/
def State.dumpFrame (s : State) : State :=
  match s.almanac.streams with
  | [] => s
  | (a, total, off) :: rest =>
    let n := min 232 (total - off)
    let d := s.dumpData (a + off) n
    let s := d.2
    let f := { s.frameNow 2 with offset := off, bytes := n, data := d.1 }
    let left := if off + 232 < total then (a, total, off + 232) :: rest else rest
    ({ s with almanac := { s.almanac with streams := left, traceLast := false } }).sendFrame f

/-- ALMANAC_FRAME (R522, R523, R525): the port forms and sends its next frame. TRACE and DUMP frames that both wait alternate,
starting with TRACE. -/
def execAlmanacFrame (s : State) : Host.Outcome State Fault Refusal :=
  if s.domain 19 ≠ .on ∨ s.almanac.test ∨ 1024 ≤ s.almanac.sinceAlign then .next s
  else
    let s := s.dropOld
    let a := s.almanac
    let trace := !(a.vigils.isEmpty && a.marks.isEmpty && a.events.isEmpty)
    let dump := !a.streams.isEmpty
    if trace && !(dump && a.traceLast) then .next s.traceFrame
    else if dump then .next s.dumpFrame
    else .next (s.sendFrame (s.frameNow 0))

/-- ALIGN (R522): after 1,024 frames. -/
def execAlign (s : State) : Host.Outcome State Fault Refusal :=
  if s.domain 19 = .on ∧ 1024 ≤ s.almanac.sinceAlign then .next { s with almanac := { s.almanac with sinceAlign := 0, blocks := alignBlocks } }
  else .next s

end Sys2Proof.Machine
end

