-- ==== Sys2Proof/Machine/Host.lean ====
section
/-! DEFINITION. The host interface: the function block (R386, R387), doorbells (R388), fetching and validation of command
entries (R389 to R392, R404), and the commands that need no other unit (R391, R393, R394). -/

namespace Sys2Proof.Machine

/-! ### Registers (R386) -/

/-- Ring `r` of a VI. -/
def Vi.ring (x : Vi) (r : Nat) : Ring := Sparse.get {} x.rings r

/-- A ring of a VI replaced. -/
def State.setRing (s : State) (v r : Nat) (g : Ring) : State :=
  let x := s.vi v
  s.setVi v { x with rings := Sparse.set {} x.rings r g }

/-- BASE and SIZE let a ring of entries of `n` bytes be enabled (R386); a ring of SIZE 0 cannot be. -/
def ringValid (base size n : Nat) : Bool :=
  (List.range 16).any (fun k => size = 2 ^ (k + 1)) && decide (base + size * n ≤ 2 ^ 48) && decide (base % 4096 = 0)

/-- A write of the control register of ring `r` (R386, R404, R407): RING_FAULT is cleared by a 1, RING_ENABLE takes bit 0. -/
def State.writeRingControl (s : State) (v r val : Nat) : State :=
  let g := (s.vi v).ring r
  if val.testBit 0 then
    if s.viState v ≠ 2 then s.refuseRegister v .badValue
    else if !(ringValid g.base g.size 128) then s.refuseRegister v .outOfRange
    else s.setRing v r { g with enable := true, head := 0, tail := 0, fetch := none, fault := g.fault && !(val.testBit 1) }
  else s.setRing v r { g with enable := false, fetch := none, fault := g.fault && !(val.testBit 1) }

/-- RING_ENABLE (R386). -/
def execRingEnable (v : ViId) (r : RingId) (val : Nat) (s : State) : Host.Outcome State Fault Refusal :=
  .next (s.writeRingControl v.val r.val val)

/-- RING_FAULT (R386, R404): a write of 1 to bit 1 clears it. -/
def execRingFault (v : ViId) (r : RingId) (val : Nat) (s : State) : Host.Outcome State Fault Refusal :=
  .next (s.writeRingControl v.val r.val val)

/-- CQ_ENABLE (R386): refused while a command of the VI is accepted and not completed. -/
def execCqEnable (v : ViId) (val : Nat) (s : State) : Host.Outcome State Fault Refusal :=
  let x := s.vi v.val
  if s.host.cmds.any (fun c => c.key.vi = v.val && !c.refused) then .next (s.refuseRegister v.val .busyStopClass)
  else if val.testBit 0 then
    if s.viState v.val ≠ 2 then .next (s.refuseRegister v.val .badValue)
    else if !(ringValid x.cqBase x.cqSize 32) then .next (s.refuseRegister v.val .outOfRange)
    else .next (s.setVi v.val { x with cqEnable := true, cqHead := 0, cqTail := 0 })
  else .next (s.setVi v.val { x with cqEnable := false })

/-- An answer of the port to the host. -/
def State.answerHost (s : State) (a : HostAnswer) : State := { s with host := { s.host with answers := s.host.answers ++ [a] } }

/-- Register word 0x000 (R386). -/
def State.regWord0 (s : State) (v : Nat) : Nat := (s.vi v).regError * 256 + s.viState v

/-- REG_ERROR (R12, R386): the read returns the register and clears REG_ERROR. -/
def execRegError (v : ViId) (s : State) : Host.Outcome State Fault Refusal :=
  let a := HostAnswer.register v.val 0 (s.regWord0 v.val)
  let s := s.setVi v.val { s.vi v.val with regError := 0 }
  .next (s.answerHost a)

/-- FN_EVENTS (R386): a 1 clears its bit. -/
def execFnEvents (v : ViId) (val : Nat) (s : State) : Host.Outcome State Fault Refusal :=
  let x := s.vi v.val
  .next (s.setVi v.val { x with fnEvents := x.fnEvents &&& ~~~(BitVec.ofNat 4 val) })

/-- A write of `n` bytes `v` at byte `o` of a register that holds `old` (R386). -/
def mergeReg (old o n v : Nat) : Nat :=
  old - bitsAt old (8 * o) (8 * n) * 2 ^ (8 * o) + v % 2 ^ (8 * n) * 2 ^ (8 * o)

/-- A vector of the MSI-X table that is no longer masked sends the message it holds pending (R396). -/
def State.sendPending (s : State) (v : Nat) : State :=
  (List.range 32).foldl (fun s i =>
    let x := s.vi v
    if x.pba.getLsbD i ∧ x.msixEnable ∧ !x.functionMask ∧ !((x.msixWord i 3).testBit 0) then
      (s.setVi v { x with pba := x.pba &&& ~~~(1#32 <<< i) }).raiseVector v i
    else s) s

/-- A 32-bit word of the MSI-X table is written. -/
def State.writeMsix (s : State) (v i j val : Nat) : State :=
  let x := s.vi v
  let w := if j = 3 then (val % 2 ^ 32) ^^^ 1 else if j = 0 then val % 2 ^ 32 / 4 * 4 else val % 2 ^ 32
  (s.setVi v { x with msix := Sparse.set 0 x.msix (4 * i + j) w }).sendPending v

/-- A write of `n` bytes at offset `off` below the mailbox of a function block (R382, R386, R387). Read-only fields keep
their value (R12); bits that no field names are dropped. -/
def State.writeBlock (s : State) (v off n val : Nat) : State :=
  let x := s.vi v
  let w := off / 8 * 8
  let o := off % 8
  let ring := fun (r k : Nat) =>
    let g := x.ring r
    if k = 0x00 then
      if g.enable then s.refuseRegister v .busyStopClass
      else s.setRing v r { g with base := mergeReg g.base o n val % 2 ^ 48 }
    else if k = 0x08 then
      if g.enable then s.refuseRegister v .busyStopClass
      else s.setRing v r { g with size := mergeReg g.size o n val % 2 ^ 32 }
    else if k = 0x10 then s
    else if k = 0x18 then
      let c := mergeReg g.enable.toNat o n val
      if o = 0 then s.writeRingControl v r c else s
    else s.refuseRegister v .outOfRange
  if (n ≠ 4 ∧ n ≠ 8) ∨ off % n ≠ 0 then s.refuseRegister v .badValue
  else if w = 0x000 ∨ w = 0x018 ∨ w = 0x210 ∨ w = 0x1800 then s
  else if w = 0x008 then
    if o = 0 then s.setVi v { x with fnEvents := x.fnEvents &&& ~~~(BitVec.ofNat 4 val) } else s
  else if w = 0x010 then
    if o = 0 then s.setVi v { x with mask := BitVec.ofNat 4 val } else s
  else if 0x100 ≤ w ∧ w < 0x200 then ring ((w - 0x100) / 0x40) ((w - 0x100) % 0x40)
  else if w = 0x200 ∨ w = 0x208 then
    if x.cqEnable then s.refuseRegister v .busyStopClass
    else if w = 0x200 then s.setVi v { x with cqBase := mergeReg x.cqBase o n val % 2 ^ 48 }
    else s.setVi v { x with cqSize := mergeReg x.cqSize o n val % 2 ^ 32 }
  else if w = 0x218 then
    if o = 0 then
      match execCqEnable ⟨v % 64, Nat.mod_lt _ (by decide)⟩ val s with
      | .next s => s
      | _ => s
    else s
  else if 0x1000 ≤ w ∧ w < 0x1200 then
    let i := (off - 0x1000) / 16
    let j := (off - 0x1000) % 16 / 4
    let s := s.writeMsix v i j val
    if n = 8 then s.writeMsix v i (j + 1) (val / 2 ^ 32) else s
  else s.refuseRegister v .outOfRange

/-! ### Doorbells (R388, R364) -/

/-- A doorbell of the wrong size is discarded and counted; one of a VI that is not READY is discarded and counted in
DOORBELLS_REFUSED (R364, R388). -/
def State.doorbell (s : State) (v size want : Nat) (f : State → State) : State :=
  if size ≠ want then s.hostStat 2
  else if s.viState v ≠ 2 then
    let x := s.vi v
    s.setVi v { x with doorbellsRefused := (x.doorbellsRefused + 1) % 2 ^ 32 }
  else f s

/-- RING_TAIL (R388). -/
def execRingTail (v : ViId) (r : RingId) (size val : Nat) (s : State) : Host.Outcome State Fault Refusal :=
  .next (s.doorbell v.val size 4 (fun s =>
    let g := (s.vi v.val).ring r.val
    let t := val % 2 ^ 32
    if g.size < (t + 2 ^ 32 - g.head) % 2 ^ 32 ∨ 2 ^ 31 ≤ (t + 2 ^ 32 - g.tail) % 2 ^ 32 ∨ !g.enable then
      s.refuseRegister v.val .outOfRange
    else s.setRing v.val r.val { g with tail := t }))

/-- CQ_HEAD (R388). -/
def execCqHead (v : ViId) (size val : Nat) (s : State) : Host.Outcome State Fault Refusal :=
  .next (s.doorbell v.val size 4 (fun s =>
    let x := s.vi v.val
    let h := val % 2 ^ 32
    if (x.cqTail + 2 ^ 32 - x.cqHead) % 2 ^ 32 < (h + 2 ^ 32 - x.cqHead) % 2 ^ 32 then s.refuseRegister v.val .outOfRange
    else s.setVi v.val { x with cqHead := h }))

/-- WAKE_DOORBELL (R328, R329, R388). -/
def execWakeDoorbell (v : ViId) (size val : Nat) (s : State) : Host.Outcome State Fault Refusal :=
  .next (s.doorbell v.val size 8 (fun s =>
    let sid := bitsAt val 0 16
    if bitsAt val 48 16 ≠ 0 then s.refuseRegister v.val .illegalEncoding
    else if !(s.namesSession v.val sid) then
      let x := s.vi v.val
      s.setVi v.val { x with wakeRefused := (x.wakeRefused + 1) % 2 ^ 32 }
    else s.queuePromo (.wake (bitsAt val 16 32)) sid none 0 false))

/-! ### Fetching (R389) -/

/-- A ring that has entries to fetch and is not paused behind a FENCE. -/
def State.canFetch (s : State) (v r : Nat) : Bool :=
  let x := s.vi v
  let g := x.ring r
  !s.vigil.hung && s.viState v = 2 && x.cqEnable && g.enable && !g.fault && g.fetch.isNone && decide (g.tail ≠ g.head)
    && decide ((s.host.cmds.filter (fun c => !c.refused)).length < 256)
    && !(s.host.cmds.any (fun c => c.key.vi = v && c.key.ring = r && entryOp c.entry = 7 && c.phase = .running))

/-- The ring whose turn it is: round robin over the VIs, and over the rings of a VI (R389). -/
def State.nextFetch (s : State) : Option (Nat × Nat) :=
  ((List.range 64).map (fun i => (s.host.lastVi + 1 + i) % 64)).findSome? (fun v =>
    (((List.range 4).map (fun i => ((s.vi v).lastRing + 1 + i) % 4)).find? (fun r => s.canFetch v r)).map (fun r => (v, r)))

/-- ENTRY_FETCH (R389): a read of up to 8 consecutive entries of the ring whose turn it is. -/
def execEntryFetch (v : ViId) (r : RingId) (s : State) : Host.Outcome State Fault Refusal :=
  if s.nextFetch = some (v.val, r.val) then
    let x := s.vi v.val
    let g := x.ring r.val
    let n := min (min 8 ((g.tail + 2 ^ 32 - g.head) % 2 ^ 32)) (g.size - g.head % g.size)
    let a := g.base + 128 * (g.head % g.size)
    let s := s.setVi v.val { x with rings := Sparse.set {} x.rings r.val { g with fetch := some (g.head, n) }, lastRing := r.val }
    let s := { s with host := { s.host with lastVi := v.val } }
    if hostBase ≤ a ∧ a < hostEnd then
      .next (s.hostRead v.val ((s.translated v.val (a - hostBase)).getD (a - hostBase)) (128 * n))
    else .next s
  else .next s

/-! ### Validation (R392) -/

/-- A command entry's address lies where partition `p` may reach: the host region, a fence range, a slice or a tile of the
partition (R392). -/
def State.addressOk (s : State) (p a n : Nat) : Bool :=
  match regionOf s a with
  | .hbm => s.inFence p a n
  | .sliceDirect sl _ => s.partOfCluster (sl / 64) = some p
  | .sliceStriped o => (s.striped p o).isSome && (s.striped p (o + n - 1)).isSome
  | .tile t _ => s.partOfTile t = some p
  | .control _ _ => true
  | .host a => decide (a + n ≤ 0x400000000000)
  | .none => false

/-- Bits of words W3 to W15 that an opcode uses (R391). -/
def entryMask (op : Nat) : List (Nat × Nat) :=
  let full := 2 ^ 64 - 1
  match op with
  | 0x01 => [(3, full), (4, 0x00FFFFFF0001FFFF), (5, full), (6, 2 ^ 48 - 1), (7, full), (8, full), (9, full)]
  | 0x02 => [(3, 2 ^ 48 - 1), (4, full)]
  | 0x03 => (List.range 8).map (fun i => (3 + i, full))
  | 0x04 => [(4, 0x77FFFF), (5, 2 ^ 32 - 1)]
  | 0x05 => [(4, 0x3FFFF)]
  | 0x06 => [(4, 0xFFFF)]
  | 0x07 => [(4, 1)]
  | 0x08 => [(3, 2 ^ 48 - 1), (4, 0xFFFF), (5, 2 ^ 48 - 1), (6, 0xFFFF)]
  | 0x09 => [(3, 2 ^ 48 - 1), (4, 0x10FFF)]
  | _ => []

/-- A reserved bit of the entry is set (R390 to R392). -/
def entryReserved (e : Nat) : Bool :=
  let op := entryOp e
  let w0 := entryW e 0
  let epoch := w0.testBit 9
  bitsAt w0 21 11 ≠ 0 || bitsAt w0 10 6 ≠ 0 || bitsAt (entryW e 1) 48 16 ≠ 0 || bitsAt (entryW e 2) 32 32 ≠ 0
    || (epoch && op ≠ 1 && op ≠ 7) || (!epoch && bitsAt (entryW e 2) 0 32 ≠ 0)
    || (decide (op ≤ 9) && (List.range 13).any (fun i =>
          let m := (((entryMask op).find? (fun x => x.1 = 3 + i)).map (·.2)).getD 0
          entryW e (3 + i) &&& (2 ^ 64 - 1 - m) ≠ 0))
    || (op = 4 && !((entryW e 4).testBit 16) && bitsAt (entryW e 4) 20 3 ≠ 0)

/-- The second row of R392. -/
def entryBadValue (e : Nat) : Bool :=
  let op := entryOp e
  decide (9 < op) || bitsAt (entryW e 1) 0 8 ≠ 0
    || (op = 4 && bitsAt (entryW e 4) 17 2 = 3)
    || (op = 5 && (bitsAt (entryW e 4) 16 2 = 0 || bitsAt (entryW e 4) 16 2 = 3))
    || (op = 1 && bitsAt (entryW e 6) 0 6 ≠ 0) || (op = 2 && bitsAt (entryW e 3) 0 6 ≠ 0)
    || (op = 9 && bitsAt (entryW e 3) 0 7 ≠ 0)
    || (op = 1 && bitsAt (entryW e 5) 0 32 ≠ 0 && !((entryW e 4).testBit 16))

/-- The model a handle names in partition `p` (R375). -/
def State.modelOf (s : State) (p h : Nat) : Option Model :=
  if bitsAt h 48 3 ≠ p ∨ bitsAt h 51 13 ≠ 0 ∨ bitsAt h 4 28 ≠ 0 then none
  else
    match Sparse.get none (s.partition p).models (bitsAt h 0 4) with
    | some m => if m.gen = bitsAt h 32 16 then some m else none
    | none => none

/-- The items of a RUN that its CLUSTER_MASK lets through, with their positions in the task list (R372, R393). -/
def runItems (e : Nat) (m : Model) : List (Nat × Nat × Nat) :=
  let mask := bitsAt (entryW e 4) 48 8
  ((m.lists.getD (bitsAt (entryW e 4) 0 16) []).zipIdx.map (fun i => (i.1.1, i.1.2, i.2))).filter (fun i => mask.testBit i.1)

/-- The checks of a RUN (R191, R328, R375, R353). -/
def State.checkRun (s : State) (v r p e : Nat) : Status :=
  match s.modelOf p (entryW e 3) with
  | none => .notFound
  | some m =>
    if m.lists.length ≤ bitsAt (entryW e 4) 0 16 then .outOfRange
    else
      let sess := match runSession e with
        | some sid => s.namesSession v sid && (s.session sid).state ≠ .closed && !(s.session sid).closing
        | none => true
      if !sess then .notFound
      else if (runItems e m).any (fun i => (s.queueFor i.1 v r).isNone) then .notFound
      else .ok

/-- Addresses and lengths that an entry names (R392). -/
def entryAddresses (e : Nat) : List (Nat × Nat) :=
  let w := fun i => bitsAt (entryW e i) 0 48
  let own := match entryOp e with
    | 2 => [(w 3, 64)]
    | 8 => [(w 3, max 1 (bitsAt (entryW e 4) 0 16)), (w 5, max 1 (bitsAt (entryW e 6) 0 16))]
    | 9 => [(w 3, 128)]
    | _ => []
  (if w 1 = 0 then [] else [(w 1, 256)]) ++ own

/-- Validation of a command entry of VI `v`, ring `r` (R392). -/
def State.validate (s : State) (v r e : Nat) : Status :=
  let p := (s.viPart v).getD 0
  let op := entryOp e
  let tile := bitsAt (entryW e 4) 0 12
  let rb := bitsAt (entryW e 6) 0 48
  if entryReserved e then .illegalEncoding
  else if entryBadValue e then .badValue
  else if bitsAt (entryW e 0) 16 5 = 31 ∨ (op = 1 ∧ bitsAt (entryW e 5) 32 32 = 0)
      ∨ (op = 8 ∧ (bitsAt (entryW e 4) 0 16 = 0 ∨ 1400 < bitsAt (entryW e 4) 0 16))
      ∨ (op = 9 ∧ s.partOfTile tile ≠ some p)
      ∨ (entryAddresses e).any (fun a => !(s.addressOk p a.1 a.2)) then .outOfRange
  else if op = 1 ∧ rb ≠ 0 ∧ !(decide (stripedBase ≤ rb)
      && decide (rb + 64 ≤ stripedBase + (s.clustersOf p).length * 64 * sliceBytes)) then .outOfRange
  else if (s.partition p).state = .hung then .hung
  else if op = 1 then s.checkRun v r p e
  else if op = 3 then s.checkCopy v p (bitsAt e 192 512)
  else .ok

/-- The descriptor of a MEM_COPY entry as it waits for a queue. -/
def waitingCopy (v r e : Nat) : CopyDesc :=
  { id := 0, owner := .memCopy ⟨v, r, 0⟩, vi := v, part := 0, words := bitsAt e 192 512 }

/-- A MEM_COPY could not enter a queue now (R322, R389), behind the copies that wait and the accepted ones not yet begun. -/
def State.copyHeldBack (s : State) (v r e : Nat) : Bool :=
  let ahead := (s.host.cmds.filter (fun c => entryOp c.entry = 3 && c.phase = .running && !c.begun)).map
    (fun c => waitingCopy c.key.vi c.key.ring c.entry)
  ((s.placeWaiting (s.copyWait ++ ahead)).placeFor (waitingCopy v r e)).isNone

/-- A valid entry that must stay unaccepted for now (R389). -/
def State.pauses (s : State) (v r e : Nat) : Bool :=
  decide (256 ≤ (s.host.cmds.filter (fun c => !c.refused)).length)
    || s.host.cmds.any (fun c => c.key.vi = v && c.key.ring = r && entryOp c.entry = 7 && c.phase = .running)
    || (entryOp e = 3 && s.copyHeldBack v r e)
    || (entryOp e = 1 && bitsAt (entryW e 5) 0 32 ≠ 0
        && s.host.cmds.any (fun c => entryOp c.entry = 1 && c.phase = .running && runSession c.entry = runSession e
              && bitsAt (entryW c.entry 5) 0 32 ≠ 0))

/-- A RUN needs a reservation of the Shelf (R22, R344): it appends, its session is neither LIVE nor being promoted, or the
last WAKE ended NO_SPACE and hot pages are not in T0. A demotion that runs is stopped as a WAKE stops it (DESIGN CHOICE, log
entry 84). -/
def State.needsReservation (s : State) (sid a : Nat) : Bool :=
  let x := s.session sid
  let waking := x.promoting || s.shelf.promotions.any (fun o => o.sid = sid)
  a ≠ 0 || (x.state ≠ .live && !waking) || x.demoting
    || (x.state = .live && !waking && x.wakeStatus = .noSpace && !(s.hotMissing x).isEmpty)

/-- What an accepted RUN takes with it: the items of its task list, and for each cluster the queue that its tasks will go
through (R191). -/
def State.acceptRun (s : State) (c : Cmd) : Cmd :=
  { c with
    reserved := true
    items := match s.modelOf c.part (entryW c.entry 3) with
      | some m => runItems c.entry m
      | none => []
    queues := (List.range 8).filterMap (fun k => (s.queueFor k c.key.vi c.key.ring).map (fun q => (k, q))) }

/-- The session of an accepted RUN (R22, R336, R344): it is ACTIVE, its descriptor is looked up, and the reservation that the
RUN needs is queued in this cycle, t_A. -/
def State.reserveRun (s : State) (k : CmdKey) (e : Nat) : State :=
  match runSession e with
  | none => s
  | some sid =>
    let s := (s.putSession sid (s.session sid)).lookup sid
    let a := bitsAt (entryW e 5) 0 32
    if (s.session sid).broken then s.failRun k 0 0 .eccUncorrected
    else if s.needsReservation sid a then
      (s.updCmd k (fun c => { c with reserved := false })).queuePromo (.run a) sid (some k) 0 true
    else s

/-- The key of the command at index `h` of ring `r`: the free-running index, told apart from that of a command which the ring
accepted before it was enabled again and which has not completed (R386, R395). -/
def State.freshKey (s : State) (v r h : Nat) : CmdKey :=
  (((List.range (s.host.cmds.length + 1)).map (fun j => (⟨v, r, h + 2 ^ 32 * j⟩ : CmdKey))).find?
    (fun k => (s.cmd k).isNone)).getD ⟨v, r, h⟩

/-- One entry at the head of ring `r` (R389, R391, R392): accepted, or refused with its status; `none` where it pauses the
ring. -/
def State.offer (s : State) (v r e : Nat) : Option State :=
  let st := s.validate v r e
  let g := (s.vi v).ring r
  let k := s.freshKey v r g.head
  let p := (s.viPart v).getD 0
  let add := fun (s : State) (c : Cmd) =>
    let s := s.setRing v r { g with head := (g.head + 1) % 2 ^ 32 }
    { s with host := { s.host with cmds := s.host.cmds ++ [c] } }
  if st ≠ .ok then
    some ((add s { key := k, entry := e, part := p, phase := .recorded, refused := true, tA := s.calends, tEnd := s.calends
                   status := st }).hostStat 1)
  else if s.pauses v r e then none
  else
    let c : Cmd := { key := k, entry := e, part := p, phase := .running, tA := s.calends }
    if entryOp e = 1 then some (((add s (s.acceptRun c)).hostStat 0).reserveRun k e)
    else some ((add s c).hostStat 0)

/-- The entries of a read, in index order, until one pauses the ring. -/
def State.offerAll (s : State) (v r : Nat) : List Nat → State
  | [] => s
  | e :: es =>
    match s.offer v r e with
    | some s => s.offerAll v r es
    | none => s

/-- ENTRY_ARRIVAL (R389, R392, R404). -/
def execEntryArrival (v : ViId) (r : RingId) (host : HostData) (s : State) : Host.Outcome State Fault Refusal :=
  let g := (s.vi v.val).ring r.val
  match g.fetch with
  | none => .next s
  | some (idx, n) =>
    let s := s.setRing v.val r.val { g with fetch := none }
    if s.viState v.val ≠ 2 ∨ !g.enable then .next s
    else
      let d := s.deviceRead pcieNode 0 v.val ((s.viPart v.val).getD 0) (g.base + 128 * (idx % g.size)) (128 * n) host
      let s := d.s
      if d.st ≠ .ok ∨ d.poison ≠ 0 then
        .next ((s.setRing v.val r.val { (s.vi v.val).ring r.val with fault := true }).fnEvent v.val 1)
      else .next (s.offerAll v.val r.val ((List.range n).map (fun i => bitsAt d.val (1024 * i) 1024)))

/-! ### Commands -/

/-- The accepted command of a row that has not begun, with the opcode of the row. -/
def State.fresh (s : State) (v r seq op : Nat) : Option Cmd :=
  match s.cmd ⟨v, r, seq⟩ with
  | some c => if c.phase = .running ∧ !c.begun ∧ entryOp c.entry = op ∧ (s.vi v).resetting.isNone then some c else none
  | none => none

/-- A command has begun its action. -/
def State.begin (s : State) (k : CmdKey) : State := s.updCmd k (fun c => { c with begun := true })

/-- HOST_NOP (R391). -/
def execHostNop (v : ViId) (r : RingId) (seq : Nat) (s : State) : Host.Outcome State Fault Refusal :=
  match s.fresh v.val r.val seq 0 with
  | some c => .next ((s.begin c.key).endCmd c.key .ok 0)
  | none => .next s

/-- RUN (R393): its run block is written, and once it is acknowledged its tasks may enter the queues. -/
def execRun (v : ViId) (r : RingId) (seq : Nat) (s : State) : Host.Outcome State Fault Refusal :=
  match s.fresh v.val r.val seq 1 with
  | none => .next s
  | some c =>
    let e := c.entry
    let a := bitsAt (entryW e 5) 0 32
    let s := s.begin c.key
    let rb := bitsAt (entryW e 6) 0 48
    let sess := (runSession e).map s.session
    let words := [bitsAt (entryW e 5) 32 32 + a * 2 ^ 32, bitsAt (entryW e 4) 16 1 * 2 ^ 16 + bitsAt (entryW e 4) 32 16,
      (sess.map (·.ptAddr)).getD 0, (sess.map (·.tokens)).getD 0, c.tA, entryW e 7, entryW e 8, entryW e 9]
    let (st, s) := if rb = 0 then (Status.ok, s) else s.deviceWrite pcieNode 0 v.val c.part rb 64 (ofLanes 64 words)
    if st ≠ .ok then .next (s.failRun c.key 0 0 st)
    else .next ((s.updCmd c.key (fun c => { c with blockReady := true })).finishRun c.key)

/-- MEM_COPY (R317, R322): the validated descriptor goes to the copy engines. -/
def execMemCopy (v : ViId) (r : RingId) (seq : Nat) (s : State) : Host.Outcome State Fault Refusal :=
  match s.fresh v.val r.val seq 3 with
  | some c => .next ((s.begin c.key).submitCopy (.memCopy c.key) v.val c.part (bitsAt c.entry 192 512))
  | none => .next s

/-- An OPEN that R330, R335, R342 and R354 let pass: the blocks of its page table, and the session. One whose hint exceeds
MAX_TOKENS does nothing else, and the session stays CLOSED (DEDUCED, log entry 84). -/
def State.openSession (s : State) (v p sid k pin hint : Nat) : Status × State :=
  let x := s.session sid
  let f := s.profile v k
  let pMax := ceilDiv (f 2 * f 1) 65536
  let region := s.ptRegion p
  let n := ceilDiv (f 0 * pMax * 8) 4096
  if x.state ≠ .closed ∨ x.closing then (.badValue, s)
  else if f 0 = 0 ∨ f 1 = 0 ∨ 16384 < f 0 * pMax ∨ f 2 < hint then (.outOfRange, s)
  else
    let y := s.partition p
    match freeBlocks y.pt (region.2 / 4096) n with
    | none => (.noSpace, s)
    | some b =>
      let s := s.setPartition p { y with pt := (List.range n).foldl (fun m i => Sparse.set false m (b + i) true) y.pt }
      let a := region.1 + 4096 * b
      let s := s.store a (4096 * n) (ofLanes 64 (List.replicate (512 * n) (3 * 2 ^ 62))) 0
      let new : Session :=
        { state := .live, pin := decide (pin = 1), profile := k, vi := v, part := p, kvFmt := f 3, layers := f 0, maxTokens := f 2
          pMax := pMax, ptAddr := a, rowBytes := f 1, idleSince := s.calends, promoting := true }
      (.ok, s.putSession sid new)

/-- SESSION_WAKE (R328, R329, R342, R351, R354). -/
def execSessionWake (v : ViId) (r : RingId) (seq : Nat) (s : State) : Host.Outcome State Fault Refusal :=
  match s.fresh v.val r.val seq 4 with
  | none => .next s
  | some c =>
    let w := entryW c.entry 4
    let sid := bitsAt w 0 16
    let pin := bitsAt w 17 2
    let hint := bitsAt (entryW c.entry 5) 0 32
    let s := s.begin c.key
    let x := s.session sid
    if !(s.namesSession v.val sid) then .next (s.endCmd c.key .notFound 0)
    else if (s.partition c.part).state = .hung then .next (s.endCmd c.key .hung 0)
    else if w.testBit 16 then
      match s.openSession v.val c.part sid (bitsAt w 20 3) pin hint with
      | (.ok, s) => .next (s.queuePromo (.wake hint) sid (some c.key) 0 false)
      | (st, s) => .next (s.endCmd c.key st 0)
    else if x.state = .closed ∨ x.closing then .next (s.endCmd c.key .notFound 0)
    else .next (s.queuePromo (.wake hint) sid (some c.key) pin false)

/-- SESSION_PARK (R341, R347, R348). -/
def execSessionPark (v : ViId) (r : RingId) (seq : Nat) (s : State) : Host.Outcome State Fault Refusal :=
  match s.fresh v.val r.val seq 5 with
  | none => .next s
  | some c =>
    let sid := bitsAt (entryW c.entry 4) 0 16
    let tier := bitsAt (entryW c.entry 4) 16 2
    let s := s.begin c.key
    if !(s.namesSession v.val sid) ∨ (s.session sid).state = .closed ∨ (s.session sid).closing then
      .next (s.endCmd c.key .notFound 0)
    else if (s.partition c.part).state = .hung then .next (s.endCmd c.key .hung 0)
    else
      let s := s.lookup sid
      let x := s.session sid
      if x.broken then .next (s.endCmd c.key .eccUncorrected 0)
      else if x.pin ∨ s.active sid then .next (s.endCmd c.key .busyStopClass 0)
      else if x.state ≠ .live ∧ tier = 1 then .next (s.endCmd c.key .ok 0)
      else .next (s.queueDemo (.park tier) sid (some c.key))

/-- SESSION_CLOSE (R341, R354). -/
def execSessionClose (v : ViId) (r : RingId) (seq : Nat) (s : State) : Host.Outcome State Fault Refusal :=
  match s.fresh v.val r.val seq 6 with
  | none => .next s
  | some c =>
    let sid := bitsAt (entryW c.entry 4) 0 16
    let s := s.begin c.key
    let x := s.session sid
    if !(s.namesSession v.val sid) ∨ x.state = .closed ∨ x.closing then .next (s.endCmd c.key .notFound 0)
    else if s.active sid then .next (s.endCmd c.key .busyStopClass 0)
    else .next ((s.lookup sid).closeSession sid (some c.key))

/-- Every command accepted before `k` in the scope of a FENCE has completed (R394). -/
def State.fenceClear (s : State) (c : Cmd) : Bool :=
  let all4 := (entryW c.entry 4).testBit 0
  (s.host.cmds.takeWhile (fun x => x.key ≠ c.key)).all
    (fun x => x.refused || x.key.vi ≠ c.key.vi || (!all4 && x.key.ring ≠ c.key.ring))

/-- FENCE (R394): it completes once its scope is clear and, with EPOCH, every cluster of the partition has reached
MIN_EPOCH. -/
def execFence (v : ViId) (r : RingId) (seq : Nat) (s : State) : Host.Outcome State Fault Refusal :=
  match s.fresh v.val r.val seq 7 with
  | none => .next s
  | some c =>
    if s.fenceClear c ∧ (s.clustersOf c.part).all (fun k => s.epochReached k c.entry) then .next (s.endCmd c.key .ok 0)
    else .next s

/-- FENCE_EPOCH_TIMEOUT (R394): a cluster's EPOCH_WAIT expires before it reaches MIN_EPOCH. -/
def execFenceEpochTimeout (v : ViId) (r : RingId) (seq : Nat) (s : State) : Host.Outcome State Fault Refusal :=
  match s.fresh v.val r.val seq 7 with
  | none => .next s
  | some c =>
    if s.fenceClear c ∧ !((s.clustersOf c.part).all (fun k => s.epochReached k c.entry)) then
      .next (s.endCmd c.key .epochWaitTimeout 0)
    else .next s

/-- DIGEST_READ (R394, R502): the tile's block goes to DEST; CLEAR clears it. -/
def execDigestRead (v : ViId) (r : RingId) (seq : Nat) (s : State) : Host.Outcome State Fault Refusal :=
  match s.fresh v.val r.val seq 9 with
  | none => .next s
  | some c =>
    let w := entryW c.entry 4
    let t := bitsAt w 0 12
    let s := s.begin c.key
    let a := s.deviceAccess (devicePacket pcieNode 0 v.val c.part (tileAddr t 0x1C200) 128 0 0) false
    if a.st ≠ .ok then .next (a.s.endCmd c.key a.st 0)
    else
      let s := a.s
      let s := if w.testBit 16 then
          (if h : t < 4096 then s.setTile ⟨t, h⟩ { s.tile ⟨t, h⟩ with block := {} } else s) else s
      let (st, s) := s.deviceWrite pcieNode 0 v.val c.part (bitsAt (entryW c.entry 3) 0 48) 128 a.val
      .next (s.endCmd c.key st 0)

end Sys2Proof.Machine
end

