-- ==== Sys2Proof/Machine/Loading.lean ====
section
/-! DEFINITION. Loading a model: the manifest (R372, R377), placement (R373), fit policies (R374), handles (R375), the fit
report (R376); and the report of a completed copy to the unit that queued it (R320, R324). -/

namespace Sys2Proof.Machine

/-- A segment of a manifest (R372). -/
structure Segment where
  layer : Nat
  src : Nat
  bytes : Nat
  cls : Nat
deriving DecidableEq, Repr

/-- Where a segment goes: its class in the report and its place (R373, R376). -/
structure Placed where
  seg : Segment
  /-- 0 SLICE, 1 TILE, 2 HBM, 3 STREAMED -/
  kind : Nat
  at_ : Nat
deriving DecidableEq, Repr

/-! ### Reading the manifest -/

/-- What reading the tables gives: the first status that is not OK, or what was read. -/
structure ManifestRead where
  st : Status
  segs : List Segment := []
  lists : List (List (Nat × Nat)) := []
  s : State

/-- A table of device memory, read as the issuing VI (R372). A poisoned one is ECC_UNCORRECTED. -/
def State.readBytes (s : State) (v p a n : Nat) (host : HostData) : Status × Nat × State :=
  if n = 0 then (.ok, 0, s)
  else
    let r := s.deviceRead pcieNode 0 v p a n host
    if r.st ≠ .ok then (r.st, 0, r.s) else if r.poison ≠ 0 then (.eccUncorrected, 0, r.s) else (.ok, r.val, r.s)

/-- Tables lie inside the fence or in the striped view (R372). -/
def State.tableOk (s : State) (p a n : Nat) : Bool :=
  coveredBy (s.fences p) a n
    || (decide (stripedBase ≤ a) && decide (a + n ≤ stripedBase + (s.clustersOf p).length * 64 * sliceBytes))

/-- A segment entry of four words. -/
def segmentOf (d i : Nat) : Segment :=
  let w := fun j => laneNat d 64 (4 * i + j)
  ⟨bitsAt (w 0) 48 16, bitsAt (w 0) 0 48, bitsAt (w 1) 0 40, bitsAt (w 2) 0 2⟩

/-- A reserved bit of a segment entry is set, or its CLASS is 3. -/
def segmentReserved (d i : Nat) : Bool :=
  let w := fun j => laneNat d 64 (4 * i + j)
  bitsAt (w 1) 40 24 ≠ 0 || bitsAt (w 2) 2 62 ≠ 0 || w 3 ≠ 0 || bitsAt (w 2) 0 2 = 3

/-- Enabled tiles of partition `p`, ascending. -/
def State.enabledTiles (s : State) (p : Nat) : List Nat :=
  ((s.clustersOf p).flatMap (fun c => (List.range 512).map (· + 512 * c))).filter s.enabled

/-- The bytes of HBM a segment comes from. -/
def State.segmentSpan (s : State) (p : Nat) (g : Segment) : Nat :=
  if g.cls = 1 then g.bytes * (s.enabledTiles p).length else g.bytes

/-- Items of the task lists, list by list. -/
def State.readLists (s : State) (v p : Nat) : List Nat → Status × List Nat × State
  | [] => (.ok, [], s)
  | w :: ws =>
    let a := bitsAt w 0 48
    let n := 8 * bitsAt w 48 16
    if !(s.tableOk p a n) then (.outOfRange, [], s)
    else
      match s.readBytes v p a n ⟨0, .ok⟩ with
      | (.ok, d, s) =>
        match s.readLists v p ws with
        | (st, ds, s) => (st, d :: ds, s)
      | (st, _, s) => (st, [], s)

/-- The manifest and its tables, read and checked (R372, R377). -/
def State.readManifest (s : State) (v p m : Nat) : ManifestRead :=
  let w := fun i => laneNat m 64 i
  let nseg := bitsAt (w 0) 0 16
  let nlist := bitsAt (w 0) 16 16
  let reserved := bitsAt (w 0) 32 32 ≠ 0 || bitsAt (w 1) 48 16 ≠ 0 || bitsAt (w 2) 48 16 ≠ 0 || bitsAt (w 3) 48 16 ≠ 0
    || (List.range 4).any (fun i => w (4 + i) ≠ 0)
  if reserved then ⟨.illegalEncoding, [], [], s⟩
  else if 1024 < nseg ∨ 256 < nlist then ⟨.outOfRange, [], [], s⟩
  else
    let sa := bitsAt (w 1) 0 48
    let la := bitsAt (w 2) 0 48
    if !(s.tableOk p sa (32 * nseg)) ∨ !(s.tableOk p la (16 * nlist)) then ⟨.outOfRange, [], [], s⟩
    else
      match s.readBytes v p sa (32 * nseg) ⟨0, .ok⟩ with
      | (.ok, sd, s) =>
        match s.readBytes v p la (16 * nlist) ⟨0, .ok⟩ with
        | (.ok, ld, s) =>
          let heads := (List.range nlist).map (fun i => laneNat ld 64 (2 * i))
          match s.readLists v p heads with
          | (.ok, ds, s) =>
            let items := (heads.zip ds).map (fun e => (List.range (bitsAt e.1 48 16)).map (fun i => laneNat e.2 64 i))
            let segs := (List.range nseg).map (segmentOf sd)
            let listRsv := (List.range nlist).any (fun i => laneNat ld 64 (2 * i + 1) ≠ 0)
            if (List.range nseg).any (segmentReserved sd) ∨ listRsv ∨ items.any (fun l => l.any (fun i => bitsAt i 48 13 ≠ 0)) then
              ⟨.illegalEncoding, segs, [], s⟩
            else if segs.any (fun g => g.cls = 1 && g.bytes % 64 ≠ 0) then ⟨.outOfRange, segs, [], s⟩
            else if segs.any (fun g => !(coveredBy (s.fences p) g.src (s.segmentSpan p g)))
                ∨ items.any (fun l => l.any (fun i => !((s.partition p).clusters.getLsbD (bitsAt i 61 3))))
                ∨ items.any (fun l => l.any (fun i => bitsAt i 0 8 ≠ 0)) then ⟨.badValue, segs, [], s⟩
            else ⟨.ok, segs, items.map (fun l => l.map (fun i => (bitsAt i 61 3, bitsAt i 0 48))), s⟩
          | (st, _, s) => ⟨st, [], [], s⟩
        | (st, _, s) => ⟨st, [], [], s⟩
      | (st, _, s) => ⟨st, [], [], s⟩

/-! ### Placement (R373) -/

/-- The lowest free range of `n` bytes, aligned to `al`, of a pool [lo, hi) that holds some ranges. -/
def lowestFree (lo hi al n : Nat) (held : List (Nat × Nat)) : Option Nat :=
  let up := fun x => (x + al - 1) / al * al
  let starts := (up lo :: held.map (fun h => up (h.1 + h.2))).filter
    (fun a => decide (lo ≤ a) && decide (a + n ≤ hi) && !(held.any (fun h => overlaps a n h.1 h.2)))
  starts.foldl (fun acc a => match acc with
    | none => some a
    | some b => if a < b then some a else acc) none

/-- The pools of R373 while segments are placed. -/
structure Pools where
  sliceEnd : Nat
  bandLo : Nat
  slices : List (Nat × Nat)
  bands : List (Nat × Nat)
  placed : List Placed := []
  beyond : List Nat := []
  fragmented : Bool := false
  spill : Bool := false

/-- Free bytes of a pool. -/
def poolFree (size : Nat) (held : List (Nat × Nat)) : Nat := size - (held.map (·.2)).foldl (· + ·) 0

/-- One segment is placed, in manifest order; `tail` asks for SPILL_TAIL. -/
def Pools.place (p : Pools) (tail : Bool) (i : Nat) (g : Segment) : Pools :=
  let stream := { p with placed := p.placed ++ [⟨g, 3, g.src⟩] }
  if g.cls = 2 then { p with placed := p.placed ++ [⟨g, 2, g.src⟩] }
  else if p.spill then stream
  else
    let slice := decide (g.cls = 0)
    let r := if slice then lowestFree 0 p.sliceEnd 4096 g.bytes p.slices else lowestFree p.bandLo 0x18000 64 g.bytes p.bands
    match r with
    | some a =>
      if slice then { p with slices := p.slices ++ [(a, g.bytes)], placed := p.placed ++ [⟨g, 0, stripedBase + a⟩] }
      else { p with bands := p.bands ++ [(a, g.bytes)], placed := p.placed ++ [⟨g, 1, a⟩] }
    | none =>
      let free := if slice then poolFree p.sliceEnd p.slices else poolFree (0x18000 - p.bandLo) p.bands
      { stream with beyond := p.beyond ++ [i], fragmented := p.fragmented || decide (g.bytes ≤ free), spill := tail }

/-- Every segment is placed. -/
def placeAll (p : Pools) (tail : Bool) (segs : List Segment) : Pools :=
  segs.zipIdx.foldl (fun p e => p.place tail e.2 e.1) p

/-- Models loaded in partition `p`, and those whose copies run. -/
def State.heldModels (s : State) (p : Nat) : List Model :=
  (s.partition p).models.filterMap (·.2) ++ (s.loads.filter (fun l => l.part = p)).map (·.model)

/-- The pools of partition `p` with `frames` arena frames. -/
def State.pools (s : State) (p frames : Nat) : Pools :=
  let ms := s.heldModels p
  { sliceEnd := (s.clustersOf p).length * 0x3000000 - 65536 * frames, bandLo := s.bandBase p
    slices := ms.flatMap (·.slices), bands := ms.flatMap (·.bands) }

/-! ### The fit report (R376) -/

/-- The words of a fit report. The policy applied is 0 where a load is refused, and the place of a segment beyond the fit of
such a load is a free value: R376 gives none (log entry 103). -/
def State.fitReport (s : State) (p nseg : Nat) (st : Status) (policy removed handle : Nat) (segs : List Segment)
    (start : Pools) (r : Pools) : List Nat :=
  let sum := fun (c : Nat) => ((segs.filter (fun g => g.cls = c)).map (·.bytes)).foldl (· + ·) 0
  let sfree := poolFree start.sliceEnd start.slices
  let bfree := poolFree (0x18000 - start.bandLo) start.bands
  let tiles := (s.enabledTiles p).length
  let streamed := ((r.placed.filter (fun x => x.kind = 3)).map (fun x => s.segmentSpan p x.seg)).foldl (· + ·) 0
  let streamed := if policy = 1 then streamed else 0
  let rate := if s.part.variant = 0 then 2784 else 4000
  [nseg * 65536 + r.fragmented.toNat * 1024 + policy * 256 + Status.code st, sum 0, sfree, sum 1, bfree,
    (sum 0 - sfree) + (sum 1 - bfree) * tiles, streamed, removed * 2 ^ 48 + ceilDiv streamed rate, handle]
    ++ r.placed.zipIdx.map (fun e =>
      if e.1.kind = 3 ∧ policy ≠ 1 then e.1.seg.cls * 2 ^ 62 + Config.freeNat (s.free + e.2) % 2 ^ 48
      else e.1.kind * 2 ^ 62 + e.1.at_)

/-- The report goes to FIT_REPORT and, where REPORT_ADDR is not 0, to memory. -/
def State.putReport (s : State) (v p addr : Nat) (ws : List Nat) : State :=
  let x := s.partition p
  let s := { s.setPartition p { x with fitReport := ws } with free := s.free + ws.length }
  if addr = 0 then s else (s.deviceWrite pcieNode 0 v p addr (8 * ws.length) (ofLanes 64 ws)).2

/-! ### Copies of a load (R375) -/

/-- A copy descriptor of `y` rows of `x` bytes (R316). -/
def loadCopy (src dst x y srcY dstY : Nat) : Nat :=
  ofLanes 64 [src, dst, x + y * 2 ^ 32 + 2 ^ 48, srcY + dstY * 2 ^ 32, 0, 0, 16 * 256, 0]

/-- A run of bytes in copies of at most 2^31 bytes. -/
def chunkCopies : Nat → Nat → Nat → Nat → List Nat
  | 0, _, _, _ => []
  | k + 1, src, dst, n =>
    if n = 0 then []
    else
      let m := min n (2 ^ 31)
      loadCopy src dst m 1 0 0 :: chunkCopies k (src + m) (dst + m) (n - m)

/-- Runs of neighbouring ids in an ascending list: first id, length, position of the first in the list. -/
def idRuns (l : List Nat) : List (Nat × Nat × Nat) :=
  l.zipIdx.foldr (fun e acc =>
    match acc with
    | (a, n, _) :: r => if a = e.1 + 1 then (e.1, n + 1, e.2) :: r else (e.1, 1, e.2) :: acc
    | [] => [(e.1, 1, e.2)]) []

/-- The copy descriptors that bring one placed segment to its place. -/
def State.segmentCopies (s : State) (p : Nat) (x : Placed) : List Nat :=
  if x.seg.bytes = 0 then []
  else if x.kind = 0 then chunkCopies (x.seg.bytes / 2 ^ 31 + 1) x.seg.src x.at_ x.seg.bytes
  else if x.kind = 1 then
    (idRuns (s.enabledTiles p)).map (fun r =>
      loadCopy (x.seg.src + r.2.2 * x.seg.bytes) (tileAddr r.1 x.at_) x.seg.bytes r.2.1 x.seg.bytes 0x20000)
  else []

/-- The handle of a model (R375). -/
def handleOf (p gen slot : Nat) : Nat := p * 2 ^ 48 + gen * 2 ^ 32 + slot

/-- A load has no copy left: the model is loaded, or the slot stays empty with the status of the first copy that failed
(R375, R376), or with OUT_OF_RANGE where a source has left the fence (R379). -/
def State.finishLoad (s : State) (k : CmdKey) : State :=
  match s.loads.find? (fun l => l.key = k), s.cmd k with
  | some l, some c =>
    if c.copies ≠ 0 then s
    else
      let s := { s with loads := s.loads.filter (fun x => x.key ≠ k) }
      let failed := l.failed <|> (if l.model.srcs.all (fun m => coveredBy (s.fences l.part) m.1 m.2) then none else some .outOfRange)
      match failed with
      | some st =>
        let ws := l.report.zipIdx.map (fun e => if e.2 = 0 then e.1 / 256 * 256 + Status.code st else e.1)
        (s.putReport k.vi l.part l.reportAt ws).endCmd k st 0
      | none =>
        let x := s.partition l.part
        let h := handleOf l.part l.model.gen l.slot
        let s := s.setPartition l.part
          { x with models := Sparse.set none x.models l.slot (some l.model), gens := Sparse.set 0 x.gens l.slot l.model.gen }
        let ws := l.report.zipIdx.map (fun e => if e.2 = 8 then h else e.1)
        (s.putReport k.vi l.part l.reportAt ws).endCmd k .ok h
  | _, _ => s

/-- A model is released (R375). -/
def State.releaseModel (s : State) (p slot : Nat) : State :=
  let x := s.partition p
  s.setPartition p { x with models := Sparse.set none x.models slot none }

/-- Sessions of partition `p` that hold a T0 page, in the order of R349 (R374). -/
def State.t0Sessions (s : State) (p : Nat) : List Nat :=
  let l := (s.shelf.sessions.filter (fun e => decide (e.2.part = p) && decide (0 < e.2.count (fun q => q.tier = .t0)))).map (·.1)
  l.mergeSort (fun a b => s.evictsBefore a b)

/-- What LOAD_MODEL does once its manifest is read and its slot chosen (R373 to R376); a copy that R317 refuses fails the load. While sessions are parked for
SHRINK_KV the command waits, and `keep` takes back the release of the model to replace. -/
def State.placeModel (s : State) (c : Cmd) (m : ManifestRead) (slot addr : Nat) (keep : State → State) : State :=
  let p := c.part
  let frames := s.arenaFrames p
  let start := s.pools p frames
  let first := placeAll start false m.segs
  let policy := s.obj (0x5040 + 0x100 * p) 0 0
  let nseg := m.segs.length
  let gen := let g := Sparse.get 0 (s.partition p).gens slot
    if g = 65535 then 1 else g + 1
  let fail := fun (s : State) (st : Status) =>
    (s.putReport c.key.vi p addr (s.fitReport p nseg st 0 0 0 m.segs start first)).endCmd c.key st 0
  let load := fun (s : State) (r : Pools) (pol removed : Nat) =>
    let held := fun (k : Nat) => (r.placed.filter (fun x => x.kind = k)).map (fun x => (x.at_, x.seg.bytes))
    let model : Model :=
      { gen := gen, lists := m.lists, slices := (held 0).map (fun x => (x.1 - stripedBase, x.2)), bands := held 1
        srcs := m.segs.map (fun g => (g.src, s.segmentSpan p g)) }
    let all := r.placed.flatMap (s.segmentCopies p)
    let refused := (all.map (s.checkCopy c.key.vi p)).find? (· ≠ .ok)
    let copies := all.filter (fun d => s.checkCopy c.key.vi p d = .ok)
    let s := { s with loads := s.loads ++ [({ key := c.key, part := p, slot := slot, model := model, failed := refused
                                              report := s.fitReport p nseg .ok pol removed 0 m.segs start r
                                              reportAt := addr } : Load)] }
    let s := s.updCmd c.key (fun c => { c with begun := true, copies := copies.length })
    let s := copies.foldl (fun s d => s.submitCopy (.load c.key) c.key.vi p d) s
    s.finishLoad c.key
  if first.beyond = [] then load s first 0 0
  else if policy = 1 then load s (placeAll start true m.segs) 1 0
  else if policy = 2 then
    let tileBeyond := first.beyond.any (fun i => (m.segs[i]?).any (fun g => g.cls = 1))
    let fits := fun k => (placeAll (s.pools p (frames - k)) false m.segs).beyond = []
    match (List.range (frames + 1)).find? fits with
    | none => fail s .fitExceeded
    | some k =>
      if tileBeyond ∨ frames - k < s.obj (0x5040 + 0x100 * p) 1 256 then fail s .fitExceeded
      else
        let ss := s.t0Sessions p
        if ss.any (fun sid => (s.session sid).pin || s.active sid) then fail s .busyStopClass
        else if ss ≠ [] then
          -- parked first; the command goes on when they are
          keep ((ss.filter (fun sid => !(s.shelf.demotions.any (fun o => o.sid = sid)))).foldl
            (fun s sid => s.queueDemo (.park 1) sid none) s)
        else if (s.partition p).frames ≠ [] then keep s
        else
          let s := s.setObj (0x5030 + 0x100 * p) 2 0 (frames - k)
          load s (placeAll (s.pools p (frames - k)) false m.segs) 2 k
  else fail s .fitExceeded

/-- LOAD_MODEL (R372 to R377). -/
def execLoadModel (v : ViId) (r : RingId) (seq : Nat) (host : HostData) (s : State) : Host.Outcome State Fault Refusal :=
  match s.fresh v.val r.val seq 2 with
  | none => .next s
  | some c =>
    let p := c.part
    let e := c.entry
    let old := entryW e 4
    match s.readBytes v.val p (bitsAt (entryW e 3) 0 48) 64 host with
    | (.ok, d, s) =>
      let m := s.readManifest v.val p d
      let s := m.s
      let addr := bitsAt (laneNat d 64 3) 0 48
      let nseg := bitsAt d 0 16
      let fail := fun (s : State) (st : Status) =>
        let start := s.pools p (s.arenaFrames p)
        let segs := if m.st = .ok then m.segs else []
        ((s.begin c.key).putReport v.val p addr (s.fitReport p nseg st 0 0 0 segs start (placeAll start false segs))).endCmd c.key st 0
      if m.st ≠ .ok then .next (fail s m.st)
      else if old ≠ 0 ∧ (s.modelOf p old).isNone then .next (fail s .notFound)
      else if old ≠ 0 ∧ s.host.cmds.any (fun x => entryOp x.entry = 1 && x.phase = .running && !x.refused && entryW x.entry 3 = old) then
        .next (fail s .busyStopClass)
      else
        let kept := s.modelOf p old
        let keep := fun (s : State) => if old = 0 then s else
          s.setPartition p { s.partition p with models := Sparse.set none (s.partition p).models (bitsAt old 0 4) kept }
        let s := if old ≠ 0 then s.releaseModel p (bitsAt old 0 4) else s
        let used := fun i => (Sparse.get none (s.partition p).models i).isSome || s.loads.any (fun l => l.part = p && l.slot = i)
        -- an empty manifest that replaces a model only unloads it
        if old ≠ 0 ∧ m.segs = [] ∧ m.lists = [] then .next (fail s .ok)
        else
          match (List.range 16).find? (fun i => !(used i)) with
          | none => .next (fail s .noSpace)
          | some slot => .next (s.placeModel c m slot addr keep)
    | (st, _, s) =>
      let start := s.pools p (s.arenaFrames p)
      .next (((s.begin c.key).putReport v.val p 0 (s.fitReport p 0 st 0 0 0 [] start start)).endCmd c.key st 0)

/-! ### Reports of the copy engines (R320, R324) -/

/-- The unit that queued a descriptor takes its status (R317, R320, R338, R375). -/
def State.copyReported (s : State) (d : CopyDesc) (st : Status) : State :=
  match d.owner with
  | .memCopy k => s.endCmd k st (copyFields d.words).id
  | .load k =>
    let s := { s with loads := s.loads.map (fun l : Load =>
      if l.key = k ∧ st ≠ Status.ok ∧ l.failed.isNone then { l with failed := some st } else l) }
    (s.updCmd k (fun c => { c with copies := c.copies - 1 })).finishLoad k
  | .shelf m =>
    { s with shelf := { s.shelf with moves := s.shelf.moves.map (fun x : PageMove =>
        if x.id = m then { x with result := some st, longest := d.longest } else x) } }
  | .mgmt _ => s

/-- COPY_REPORT (R320): the head of a queue, once it has completed. -/
def execCopyReport (e : CeId) (q : Nat) (s : State) : Host.Outcome State Fault Refusal :=
  let x := s.engine e.val
  match x.queue q with
  | d :: rest =>
    match d.done with
    | some st => .next ((s.setEngine e.val { x with queues := Sparse.set [] x.queues q rest }).copyReported d st)
    | none => .next s
  | [] => .next s

/-- ENGINE_ISOLATION_DRAIN (R324): every descriptor of an isolated engine, queued or active, completes TARGET_ISOLATED. -/
def execEngineIsolationDrain (e : CeId) (s : State) : Host.Outcome State Fault Refusal :=
  if s.ceIsolated e.val then
    let x := s.engine e.val
    .next (x.queues.foldl (fun s q =>
      q.2.foldl (fun s d => if d.done.isNone then s.completeCopy e.val q.1 d .targetIsolated else s) s) s)
  else .next s

end Sys2Proof.Machine
end

