-- ==== Sys2Proof/Machine/Pins.lean ====
section
/-! DEFINITION. The signal pins: what the device drives on them (R576, R577, R587, R588), the choice of the test access port
(R572) and the boundary register (R573). -/

namespace Sys2Proof.Machine

/-- The code BYPASS. -/
def tapBypass : BitVec 8 := 0xFF#8

/-- The instruction that the instruction register selects (R572): a code marked "BOOT_SEL 3 only" selects BYPASS under any
other BOOT_SEL, and so does a code the table does not list. -/
def State.tapSelects (s : State) : BitVec 8 :=
  let c := s.tap.code
  if c = 1 ∨ c = 2 then c
  else if 3 ≤ c.toNat ∧ c.toNat ≤ 7 ∧ s.power.bootSel = 3 ∧ !s.power.porHeld then c
  else tapBypass

/-- What a pin of the device shows: a level, high impedance, electrical idle, or the signal of the unit that owns it. -/
inductive PinLevel where
  | low | high | highZ | idle | working
deriving DecidableEq, Repr

/-- Every pin of the boundary register (R573). The spec gives no order of the cells. -/
def ScanPin.all : List ScanPin :=
  [.porN, .resetN, .perstN, .thermtripN, .canTxd, .canRxd, .canStby, .mdc, .mdio, .ethPhyRstN, .spiClk, .spiCsN, .sysref]
    ++ (List.finRange 2).map .bootSel ++ (List.finRange 3).map .nodeSel ++ (List.finRange 4).map .spiIo
    ++ (List.finRange 16).map .pcieTx ++ (List.finRange 16).map .pcieRx
    ++ (List.finRange 8).flatMap (fun n => (List.finRange 8).map (.newenTx n))
    ++ (List.finRange 8).flatMap (fun n => (List.finRange 8).map (.newenRx n)) ++ (List.finRange 4).map .almTx

/-- A pin that the device can drive (R576). -/
def ScanPin.driven (p : ScanPin) : Bool :=
  match p with
  | .thermtripN | .canTxd | .canStby | .mdc | .mdio | .ethPhyRstN | .spiClk | .spiCsN | .spiIo _ | .pcieTx _ | .newenTx _ _
  | .almTx _ => true
  | _ => false

/-- The pins show their states "In reset" (R576): a power-on reset is held, or a device reset under R541 or R545. -/
def State.pinsReset (s : State) : Bool :=
  s.power.porHeld || s.power.holds.contains .resetPin || s.power.holds.contains .thermal

/-- What the device drives on an output (R576, R577, R587, R588); CAN and Ethernet work on through a device reset, in which the
dictionary answers (R547; DEDUCED, log entry 98). -/
def State.drives (s : State) (p : ScanPin) : PinLevel :=
  let can := s.power.opened && s.obj 0x1100 1 1 = 1
  let eth := s.power.opened && s.obj 0x1150 0 1 = 1
  let spi := fun (rest : PinLevel) =>
    if s.power.porHeld then rest else if s.power.bootSel = 2 then .highZ else if s.pinsReset then rest else .working
  match p with
  | .thermtripN => if s.power.thermTrip then .low else .highZ
  | .canTxd => if can then .working else .high
  | .canStby => if can then .low else .high
  | .mdc => if eth then .working else .low
  | .mdio => if eth then .working else .highZ
  | .ethPhyRstN => if s.power.opened then .high else .low
  | .spiClk => spi .low
  | .spiCsN => spi .high
  | .spiIo _ => spi .highZ
  | .pcieTx _ => if s.pinsReset || s.host.linkState = 0 then .idle else .working
  | .newenTx n _ => if s.pinsReset || (s.port n.val).link = .down then .idle else .working
  | .almTx _ => if s.pinsReset || s.domain 19 ≠ .on then .idle else .working
  | _ => .highZ

/-- What an output shows (R572, R573): the device's own signal, or under boundary scan its cell, nothing under HIGHZ. -/
def State.pin (s : State) (p : ScanPin) : PinLevel :=
  let c := s.tapSelects.toNat
  let cell := s.tap.cells.contains p
  let lane := match p with
    | .pcieTx _ | .newenTx _ _ | .almTx _ => true
    | _ => false
  if !ScanPin.driven p || c = 5 then .highZ
  else if c = 6 ∨ c = 7 then (if lane then .working else if cell then .high else .low)
  else if c = 3 ∨ c = 4 then
    if p = .thermtripN then (if cell then .highZ else .low) else if cell then .high else .low
  else s.drives p

/-- TDO is driven only while the port shifts (R577), which is within a command. -/
def State.tdo (_s : State) : PinLevel := .highZ

/-- A set of pins that is a free value: bit `k` stands for the `k`-th pin of the list. -/
def freePins (i : Nat) : List ScanPin :=
  (ScanPin.all.zipIdx.filter (fun e => (Config.freeNat i).testBit e.2)).map (·.1)

/-- What a scan meets outside the part: the levels the board holds or the edges a test receiver sees, and what TDI shifts in
(free values, log entry 64). -/
def State.scanIn (s : State) : Scan := ⟨freePins s.free, freePins (s.free + 1)⟩

/-- The pins that a capture finds at 1 (R573): those of the device's own levels and of the resets as they stand, the others as
the board shows them or a test receiver has seen an edge. -/
def State.capture (s : State) (x : Scan) : List ScanPin :=
  ScanPin.all.filter (fun p =>
    match p with
    | .porN => !s.power.porLow
    | .resetN => !s.power.resetLow
    | .perstN => !s.host.perstLow
    | _ =>
      match s.pin p with
      | .high => true
      | .low => false
      | _ => x.seen.contains p)

end Sys2Proof.Machine
end

