-- ==== Sys2Proof/Machine/Test.lean ====
section
/-! DEFINITION. The test engine and its loopback tests (R482, R560 to R571, R575) and the test access port (R572, R573). -/

namespace Sys2Proof.Machine

/-! ### Targets (R564) -/

/-- LB_TARGET, LB_INSTANCE, LB_DEPTH and LB_PATTERN as they are set (R482). -/
structure TestSet where
  target : Nat
  inst : Nat
  depth : Nat
  pattern : Nat
deriving DecidableEq, Repr

/-- The test that is set. -/
def State.testSet (s : State) : TestSet :=
  ⟨s.obj 0x8000 0 0, s.obj 0x8000 1 0, s.obj 0x8000 2 1, s.obj 0x8000 3 2⟩

/-- The table of R564 lists the combination. -/
def State.testListed (s : State) (x : TestSet) : Bool :=
  let d := decide (1 ≤ x.depth ∧ x.depth ≤ 4)
  match x.target with
  | 0 => d && (x.inst = 0 || (x.inst = 1 && s.host.bifurcation = 1))
  | 1 => (d && decide (x.inst < 8)) || (x.depth = 4 && decide (8 ≤ x.inst ∧ x.inst < 16))
  | 2 => decide (x.inst < 8) && (x.depth = 1 || x.depth = 3 || x.depth = 4)
  | 3 => x.inst = 0 && (x.depth = 1 || x.depth = 3)
  | 4 => x.inst = 0 && d
  | 5 => x.inst = 0 && d && (x.depth ≠ 4 || x.pattern = 2)
  | 6 => decide (x.inst < 2) && x.depth = 1
  | 7 | 8 => decide (x.inst < 9) && x.depth = 1
  | 9 => decide (x.inst < 17) && x.depth = 1
  | _ => false

/-- VI `v` appears on PCIe link `k` (R383). -/
def State.onLink (s : State) (v k : Nat) : Bool :=
  s.host.bifurcation = 0 || decide ((if v ≠ 0 ∧ (s.obj 0x6000 9 0).testBit v then 1 else 0) = k)

/-- No partition is formed. -/
def State.nothingFormed (s : State) : Bool := (List.range 8).all (fun p => (s.partition p).clusters = 0)

/-- The cluster of a test instance belongs to no partition; instance 8 or 16 wants none formed (R564). -/
def State.clusterFree (s : State) (target inst : Nat) : Bool :=
  if inst = 16 ∨ (inst = 8 ∧ target ≠ 9) then s.nothingFormed else (s.partOfCluster (inst % 8)).isNone

/-- The precondition of R564 but for the state of the PCIe link. -/
def State.testHolds (s : State) (x : TestSet) : Bool :=
  match x.target with
  | 0 => (List.range 64).all (fun v => !(s.onLink v x.inst) || decide (s.viState v < 2))
  | 1 => !(s.portEnabled (x.inst % 8))
  | 2 => s.nothingFormed
  | 3 => s.obj 0x1100 1 1 = 0
  | 4 => s.obj 0x1150 0 1 = 0
  | 7 | 8 | 9 => s.clusterFree x.target x.inst
  | _ => true

/-- The domains a test needs (R560, R564). -/
def testDomains (x : TestSet) : List Nat :=
  match x.target with
  | 1 => [18]
  | 2 => [16, 17]
  | 5 => [19]
  | 7 => if x.inst = 8 then List.range 8 else [x.inst]
  | 8 => if x.inst = 8 then [] else [x.inst]
  | 9 => if x.inst < 8 then [8 + x.inst] else if x.inst < 16 then [x.inst - 8] else []
  | _ => []

/-- The test compares nothing, so no checker locks: a Newen follower, and the Almanac port at depth 4 (R567, R568). -/
def TestSet.silent (x : TestSet) : Bool := (x.target = 1 && decide (8 ≤ x.inst)) || (x.target = 5 && x.depth = 4)

/-- Physical lanes of a Welt direction that carry no logical lane (R38, R570). -/
def State.idleLanes (s : State) (dir : Nat) : List Nat :=
  let bad := s.failedLanes dir
  bad ++ ((List.range 264).filter (fun l => !(bad.contains l))).drop 256

/-! ### Patterns and test frames (R561, R566) -/

/-- Length and second tap of the generator of an LB_PATTERN: x^7 + x^6 + 1, x^15 + x^14 + 1, x^31 + x^28 + 1 (R561). -/
def prbsTaps (pattern : Nat) : Nat × Nat := [(7, 6), (15, 14)].getD pattern (31, 28)

/-- The 8 bytes of FIXED as one number, the first byte lowest (R561). -/
def fixedBytes : Nat := 0xF00FCC33AA55FF00

/-- The generator at the start of a test (R561): all ones, or the first bit of FIXED. -/
def patternSeed (pattern : Nat) : Nat := if pattern = 3 then 0 else 2 ^ (prbsTaps pattern).1 - 1

/-- The bit that a generator gives. R561 does not say whether the seed itself is sent: it is (DESIGN CHOICE, log entry 99). -/
def patternBit (pattern g : Nat) : Bool := if pattern = 3 then fixedBytes.testBit g else g.testBit ((prbsTaps pattern).1 - 1)

/-- The generator one bit later. -/
def patternNext (pattern g : Nat) : Nat :=
  if pattern = 3 then (g + 1) % 64
  else
    let (k, t) := prbsTaps pattern
    2 * g % 2 ^ k + (xor (g.testBit (k - 1)) (g.testBit (t - 1))).toNat

/-- The next `n` bits of a pattern, the first in the lowest place, and the generator after them (R561). -/
def patternTake (pattern : Nat) : Nat → Nat → Nat × Nat
  | 0, g => (0, g)
  | n + 1, g =>
    let r := patternTake pattern n (patternNext pattern g)
    ((patternBit pattern g).toNat + 2 * r.1, r.2)

/-- The device sends its own frames as classical ones (R455). -/
def State.canClassical (s : State) : Bool := s.obj 0x1100 2 0 = 1

/-- The next frame of a test whose path carries frames of its own (R566), and the generator after it. The pattern fills the data
bytes in order, least significant bit first (R561). -/
def State.testFrame (s : State) (x : TestSet) (g : Nat) : Option TestFrame × Nat :=
  let fill := fun (n : Nat) (f : Nat → TestFrame) =>
    let r := patternTake x.pattern (8 * n) g
    (some (f r.1), r.2)
  let canFrame := fun (fd : Bool) (n : Nat) =>
    fill n (fun d => .can fd (BitVec.ofNat 29 (31 * 2 ^ 24 + 0x7F * 2 ^ 16 + 0xFF * 2 ^ 8 + s.dict.canNode)) n d)
  match x.target, x.depth with
  | 3, _ => if s.canClassical then canFrame false 8 else canFrame true 64
  | 4, 3 => (none, g)
  | 4, _ => fill 1500 (fun d => .eth Config.macAddress Config.macAddress 0x88B5 1500 d)
  | 0, 1 => fill 256 (fun d => .tlp 256 d)
  | _, _ => (none, g)

/-- The generators are seeded and the first frame is built; a stack under a depth-4 test enters its loopback mode (R561, R566,
R569). -/
def State.armTest (s : State) (x : TestSet) : State :=
  let f := s.testFrame x (patternSeed x.pattern)
  { s with test := { s.test with
      generator := f.2, frame := f.1, pauses := 0
      looping := if x.target = 2 ∧ x.depth = 4 then some x.inst else none } }

/-! ### A run (R560, R563, R565) -/

/-- Where a test of the cluster side leaves its target (R564, R570): eyelets emptied, storage zero. -/
def State.afterTest (s : State) (x : TestSet) : State :=
  match x.target with
  | 7 =>
    if x.inst = 8 then { s with lacing := { s.lacing with ctxs := [], toPorts := [] } } else s.laceClusterReset x.inst
  | 9 =>
    if x.inst < 8 then s.zero (sliceAddr (64 * x.inst) 0) (64 * sliceBytes)
    else if x.inst < 16 then s.zero (tileAddr (512 * (x.inst - 8)) 0) (512 * 0x20000)
    else s
  | _ => s

/-- The target returns to service (R560, step 4): cluster domains the test had powered go off again (the others leave by their
own conditions, R535), the PCIe link retrains, records resume. -/
def State.returnTarget (s : State) (x : TestSet) : State :=
  let s := s.afterTest x
  let s := s.test.powered.foldl (fun s d => if d < 16 then s.setDomain d .off else s) s
  let s := { s with almanac := { s.almanac with test := false } }
  if x.target = 0 ∧ 2 ≤ x.depth then s.trainPcie else s

/-- A test ends with a status in word 4, PASS or FAIL, and its three counts (R562, R563). -/
def State.endTest (s : State) (pass : Bool) (st : Status) (n e f : Nat) : State :=
  let s := s.returnTarget s.testSet
  { s with test := { s.test with state := if pass then 2 else 3, locked := none, powered := [], frame := none, looping := none
                                 result := (n % 2 ^ 64, e % 2 ^ 64, f % 2 ^ 64, Status.code st) } }

/-- A running test ends ABORTED (R565). What a locked checker had counted by then is of the run (R562): free values, no more
errors than compared bits, the first of them since the lock (log entry 105). -/
def State.abortTest (s : State) : State :=
  match s.test.locked with
  | none => s.endTest false .aborted 0 0 0
  | some t =>
    let n := Config.freeNat s.free
    let e := Config.freeNat (s.free + 1) % (n + 1)
    let first := if e = 0 then 0 else t + Config.freeNat (s.free + 2) % (s.calends - t + 1)
    { s with free := s.free + 3 }.endTest false .aborted n e first

/-- An event that breaks the precondition of a running test ends the test ABORTED, and then takes place (R565). -/
def State.withTest (s : State) (f : State → State) : State :=
  if s.test.state = 1 ∧ !((f s).testHolds s.testSet) then f s.abortTest else f s

/-- A write of 1 to LB_START (R482, R560): its status, and the state after it. -/
def State.startTest (s : State) : Status × State :=
  let x := s.testSet
  if s.test.state = 1 then (.busyStopClass, s)
  else if !(s.testListed x) then (.badValue, s)
  else
    let t := { s.test with state := 1, start := s.calends, locked := none, result := (0, 0, 0, 0), powered := []
                           speed := s.host.linkSpeed }
    if !(s.testHolds x) || (x.target = 0 && x.depth = 4 && s.host.linkState ≠ 2) then
      (.ok, { s with test := { t with state := 3, result := (0, 0, 0, Status.code .busyStopClass) } })
    else
      let need := (testDomains x).filter (fun d => s.domain d ≠ .on)
      let s := { s with test := { t with powered := need } }
      let s := s.armTest x
      let s := need.foldl (fun s d =>
        let s := s.setDomain d .on
        if d = 16 ∨ d = 17 then s.leaveSelfRefresh d else s) s
      let s := if x.target = 0 ∧ 2 ≤ x.depth then s.portReset 0 else s
      (.ok, if x.target = 5 then { s with almanac := { s.almanac with test := true } } else s)

/-- LB_LOCK (R560, R562). -/
def execLbLock (s : State) : Host.Outcome State Fault Refusal :=
  if s.test.state = 1 ∧ s.test.locked = none ∧ !s.testSet.silent then
    -- a bit-stream checker has taken 64 correct bits of every lane, a frame checker the first frame
    let g := if s.test.frame.isSome then s.test.generator else (patternTake s.testSet.pattern 64 s.test.generator).2
    .next { s with test := { s.test with locked := some s.calends, generator := g } }
  else .next s

/-- LB_LOCK_TIMEOUT (R560, step 3). -/
def execLbLockTimeout (s : State) : Host.Outcome State Fault Refusal :=
  let x := s.testSet
  if s.test.state = 1 ∧ s.test.locked = none ∧ !x.silent then
    .next (s.endTest false (if x.depth = 4 then .linkDown else .timeout) 0 0 0)
  else .next s

/-- The most errors with which a run passes (R563). -/
def State.errorLimit (s : State) (x : TestSet) (bits : Nat) : Nat :=
  let serial := x.target = 0 || x.target = 1 || x.target = 3 || x.target = 4 || x.target = 5
  if x.depth = 4 then (if x.target = 1 ∨ (x.target = 0 ∧ s.test.speed = 6) then bits / 10 ^ 6 else bits / 10 ^ 12)
  else if x.depth = 3 && serial then bits / 10 ^ 12 else 0

/-- What an on-die test records beside its result (R570). -/
def State.recordTest (s : State) (x : TestSet) (f : TestFound) : State :=
  match x.target with
  | 6 =>
    let idle := s.idleLanes x.inst
    let bad := (f.lanes.filter (fun l => idle.contains l)).map (fun l => (x.inst, l))
    { s with net := { s.net with weltFailing := (s.net.weltFailing ++ bad).eraseDups } }
  | 7 =>
    f.eyelets.foldl (fun s e =>
      let node := if e.1 < 512 then seqNode (e.1 / 64) else if e.1 < 576 then seqNode ((e.1 - 512) / 8)
        else if e.1 < 584 then seqNode (e.1 - 576) else mgmtNode
      if e.1 < 587 ∧ e.2 ≠ 0 then s.svcEvent node 0x15 (min 255 e.2 * 2 ^ 16 + e.1) else s) s
  | 8 =>
    let l := f.links.map (fun (l : Nat × Nat × Nat × Nat) => (⟨l.1, l.2.1, l.2.2.1, l.2.2.2⟩ : LinkId))
    { s with test := { s.test with badLinks := (s.test.badLinks ++ l).eraseDups } }
  | _ => s

/-- LB_DURATION_END (R562, R563, R567, R568, R570): the duration has passed, or an MBIST pass is complete. -/
def execLbDurationEnd (f : TestFound) (s : State) : Host.Outcome State Fault Refusal :=
  let x := s.testSet
  if s.test.state ≠ 1 ∨ (!x.silent ∧ s.test.locked = none) then .next s
  else
    let s := s.recordTest x f
    if x.silent then .next (s.endTest true .ok f.compared 0 0)
    else if x.target = 9 ∧ !f.complete then .next (s.endTest false .timeout f.compared f.errors f.first)
    else if x.target = 6 ∧ s.idleLanes x.inst = [] then .next (s.endTest true .ok 0 0 0)
    else
      .next (s.endTest (decide (f.errors ≤ s.errorLimit x f.compared)) .ok f.compared f.errors
        (if f.errors = 0 then 0 else f.first))

/-! ### The test access port (R544, R572, R573) -/

/-- The identification register (R572). -/
def idcode : BitVec 32 :=
  BitVec.ofNat 32 (bitsAt Config.siliconRev.toNat 8 4 * 2 ^ 28 + 0x6B08 * 2 ^ 12 + 0x3A5 * 2 + 1)

/-- A code is loaded into the instruction register; while TRST_N is low the port stays in Test-Logic-Reset (R544, R572). -/
def State.tapLoad (s : State) (c : BitVec 8) : State :=
  if s.tap.trstLow then s else { s with tap := { s.tap with code := c } }

/-- An instruction that selects the boundary register (R572, R573): the pins are captured, and the cells take what is shifted
in. Where the code selects BYPASS instead, the register stays. What the board shows and what TDI shifts in come from outside
(free values, log entry 64). -/
def State.boundaryScan (s : State) (c : BitVec 8) : State :=
  let t := s.tapLoad c
  if !s.tap.trstLow ∧ t.tapSelects = c then
    { t with tap := { t.tap with captured := s.capture s.scanIn, cells := s.scanIn.shifted }, free := t.free + 2 }
  else t

/-- BYPASS (R572). -/
def execBypass (s : State) : Host.Outcome State Fault Refusal := .next (s.tapLoad tapBypass)
/-- IDCODE (R572). -/
def execIdcode (s : State) : Host.Outcome State Fault Refusal := .next (s.tapLoad 1)
/-- SAMPLE/PRELOAD (R572, R573). -/
def execSamplePreload (s : State) : Host.Outcome State Fault Refusal := .next (s.boundaryScan 2)
/-- EXTEST (R572, R573). -/
def execExtest (s : State) : Host.Outcome State Fault Refusal := .next (s.boundaryScan 3)
/-- CLAMP (R572). -/
def execClamp (s : State) : Host.Outcome State Fault Refusal := .next (s.tapLoad 4)
/-- HIGHZ (R572). -/
def execHighz (s : State) : Host.Outcome State Fault Refusal := .next (s.tapLoad 5)
/-- EXTEST_PULSE (R572, R573). -/
def execExtestPulse (s : State) : Host.Outcome State Fault Refusal := .next (s.boundaryScan 6)
/-- EXTEST_TRAIN (R572, R573). -/
def execExtestTrain (s : State) : Host.Outcome State Fault Refusal := .next (s.boundaryScan 7)

end Sys2Proof.Machine
end

