-- ==== Sys2Proof/Machine/Dict.lean ====
section
/-! DEFINITION. Writes of the object dictionary: the checks of R440 with the rules of the chapters that own the objects, the
effect of an accepted write (R441, R442), and the rows of the command table that are a write of one object. -/

namespace Sys2Proof.Machine

/-! ### Times of CAN frames (R460) -/

/-- Cycles of a bit at the nominal rate. -/
def State.nominalBit (s : State) : Nat := [16000, 8000, 4000, 2000].getD (s.obj 0x1100 3 2) 4000

/-- Cycles of a bit at the data rate; the nominal one with DATA_RATE = NONE. -/
def State.dataBit (s : State) : Nat := [s.nominalBit, 2000, 1000, 500, 400, 250].getD (s.obj 0x1100 4 2) 1000

/-- The smallest FD data length that holds `m` bytes (R457). -/
def fdSize (m : Nat) : Nat :=
  if m ≤ 8 then m else (([12, 16, 20, 24, 32, 48, 64].find? (fun k => decide (m ≤ k))).getD 64)

/-- Worst-case time of an FD frame of `d` data bytes, in cycles (R460). -/
def State.fdTime (s : State) (d : Nat) : Nat :=
  57 * s.nominalBit + (5 + 8 * d + (5 + 8 * d + 3) / 4 + (if d ≤ 16 then 27 else 32)) * s.dataBit

/-- Worst-case time of a classical frame of `d` data bytes. -/
def State.classicTime (s : State) (d : Nat) : Nat := (67 + 8 * d + (53 + 8 * d) / 4) * s.nominalBit

/-- Worst-case time of a message of `m` bytes: one FD frame, or classical frames of 8 bytes and a last one (R457, R460). -/
def State.messageTime (s : State) (classical : Bool) (m : Nat) : Nat :=
  if classical then m / 8 * s.classicTime 8 + (if m % 8 = 0 then 0 else s.classicTime (m % 8)) else s.fdTime (fdSize m)

/-! ### Windows and records (R462, R464, R465) -/

/-- Start and length of window `k` in µs. -/
def State.window (s : State) (k : Nat) : Nat × Nat := (s.obj 0x1111 k 0, s.obj 0x1112 k 0)

/-- Two windows overlap, or one ends after the round (R462). -/
def State.windowsBad (s : State) : Bool :=
  let n := s.obj 0x1110 2 0
  (List.range n).any (fun k =>
    let a := s.window k
    decide (1000 * s.obj 0x1110 1 10 < a.1 + a.2) || (List.range k).any (fun j => overlaps a.1 a.2 (s.window j).1 (s.window j).2))

/-- Field `f` of record `r`. -/
def State.recField (s : State) (r f : Nat) : Nat := s.obj (0x1120 + r) f ([0, 0, 0, 1, 255, 4].getD f 0)

/-- The value that a record publishes. -/
def State.recValue (s : State) (r : Nat) : Except Status (Nat × Nat) :=
  let o := s.recField r 1
  s.readObject (.can (BitVec.ofNat 8 (s.recField r 4))) (o / 256) (o % 256)

/-- An enabled record does not fit its window (R465). -/
def State.recUnfit (s : State) (r : Nat) : Bool :=
  s.recField r 0 = 1 && (match s.recValue r with
    | .ok v => decide (2000 * (s.window (s.recField r 2)).2 < s.messageTime s.canClassical (8 + v.2))
    | .error _ => false)

/-- What a write that leaves record `r` as it stands is answered (R465). -/
def State.recStatus (s : State) (r : Nat) : Status :=
  if s.recField r 0 = 0 then .ok
  else
    match s.recValue r with
    | .error _ => .notFound
    | .ok v =>
      if 56 < v.2 then .outOfRange
      else if s.obj 0x1110 2 0 ≤ s.recField r 2 then .badValue
      else if s.recUnfit r then .outOfRange else .ok

/-! ### Checks (R440) -/

/-- An IPv6 address from the bytes of a WRITE_PREFIX entry, first byte highest. -/
def prefixAddress (v : Nat) : Nat := (List.range 16).foldl (fun a i => a * 256 + bitsAt v (8 * i) 8) 0

/-- Step 1: a UDP source lies inside a WRITE_PREFIX entry (R466). -/
def State.mayWriteFrom (s : State) (r : Requester) : Bool :=
  match r with
  | .udp a _ =>
    (List.range 16).any (fun k =>
      let e := ofLength (s.obj 0x1151 k 1)
      let cut := 128 - bitsAt e.1 128 8
      e.2 = 17 && decide (a.toNat >>> cut = prefixAddress e.1 >>> cut))
  | _ => true

/-- Step 3: the mailbox of a VF writes only its own block, that of PF 1 nothing (R366, R383). -/
def mailboxMay (r : Requester) (i : Nat) : Bool :=
  match r with
  | .mailbox v => v.val = 0 || decide (0x5800 + 0x10 * v.val ≤ i ∧ i < 0x5810 + 0x10 * v.val)
  | .pf1 => false
  | _ => true

/-- Steps 5 and 6: the length (R437). -/
def ObjDesc.lengthStatus (d : ObjDesc) (n : Nat) : Status :=
  if d.max = 1 then (if n = d.elem then .ok else .badValue)
  else if n % d.elem ≠ 0 then .badValue
  else if d.elem * d.max < n then .outOfRange
  else if d.any then .ok
  else if d.counts.isEmpty then (if n = d.elem * d.max then .ok else .badValue)
  else if d.counts.contains (n / d.elem) then .ok else .badValue

/-- Steps 7 to 9: reserved bits, values of an ENUM or BOOL, ranges. -/
def ObjDesc.valueStatus (d : ObjDesc) (v : Nat) : Status :=
  if v &&& d.reserved ≠ 0 then .illegalEncoding
  else if !d.enums.isEmpty && !(d.enums.contains v) then .badValue
  else if !d.ranges.isEmpty && !(d.ranges.any (fun r => decide (r.1 ≤ v ∧ v ≤ r.2))) then .outOfRange
  else if v % d.mult ≠ 0 then .outOfRange
  else .ok

/-- Objects of the always-on management domain, which R470 leaves writable while the device is held in reset. -/
def alwaysOn (i : Nat) : Bool :=
  i = 0x1010 || i = 0x1020 || decide (0x1100 ≤ i ∧ i ≤ 0x1160) || i = 0x3400 || i = 0x9010 || i = 0x9020 || i = 0x9031

/-- The block of an object is held in reset (R470): the device, or the PCIe port (R401). -/
def State.heldInReset (s : State) (i : Nat) : Bool :=
  let x := s.power
  let device := x.porHeld || !x.holds.isEmpty || [0, 1, 2, 4, 0xE0].contains x.stage
  (device && !alwaysOn i) || (i = 0x6000 && s.host.perstLow)

/-- Sessions of partition `p` that satisfy `f`. -/
def State.anySession (s : State) (f : Session → Bool) : Bool :=
  s.shelf.sessions.any (fun e => decide (e.2.state ≠ .closed) && f e.2)

/-- A session holds a page of a tier. -/
def Session.holds (x : Session) (t : Tier) : Bool := decide (0 < x.count (fun p => p.tier = t))

/-- Remote transactions are outstanding at port `n` (R275). -/
def State.remoteBusy (s : State) (n : Nat) : Bool :=
  decide (n < 8) && (!(s.port n).near.isEmpty || (s.target (newenNode n)).intake.any (fun e => e.pkt.ext.isSome))

/-- Step 10: the owning block of a class S object runs (R19). -/
def State.running (s : State) (i sub v : Nat) : Bool :=
  if 0x4000 ≤ i ∧ i < 0x4800 then !(s.queue ((i - 0x4000) / 0x100) sub).isEmpty
  else if 0x5000 ≤ i ∧ i < 0x5800 then
    let p := (i - 0x5000) / 0x100
    match i % 0x100 with
    | 0x00 => !(s.visOf p).isEmpty
    | 0x20 => !(s.dispatchedIn p).isEmpty
    | 0x30 =>
      if sub = 2 then s.anySession (fun x => x.part = p && (x.holds .t0 || x.promoting || x.demoting))
          || (s.shelf.promotions ++ s.shelf.demotions).any (fun o => (s.session o.sid).part = p)
      else s.anySession (fun x => x.part = p)
    | 0x40 => !(s.handles p).isEmpty
    | _ => false
  else if 0x5800 ≤ i ∧ i < 0x5C00 then
    let v := (i - 0x5800) / 0x10
    if i % 0x10 = 0 then s.anySession (fun x => x.vi = v && x.holds .t2)
    else if i % 0x10 = 9 then
      s.host.cmds.any (fun c => c.key.vi = v && !c.refused)
        || (List.range 8).any (fun c => (List.range 16).any (fun q => s.obj (0x4010 + 0x100 * c) q 255 = v))
        || s.anySession (fun x => x.vi = v)
    else false
  else if 0x6100 ≤ i ∧ i < 0x6180 then (s.port ((i - 0x6100) / 0x10)).link ≠ .down
  else
    match i with
    | 0x1100 | 0x1110 | 0x1111 | 0x1112 => s.obj 0x1100 1 1 = 1
    | 0x1150 => s.obj 0x1150 0 1 = 1
    | 0x3100 => s.remoteBusy (s.obj 0x3100 sub 255) || s.remoteBusy v
    | 0x3200 => (List.range 32).any (fun k => s.domainScope (k / 4) (k % 4) && (s.ctx (k / 4) (k % 4)).active)
    | 0x6000 => if sub = 9 then s.host.sriov.2 || s.host.sriov1.2 else s.host.hdmCommitted
    | 0x8000 => s.test.state = 1
    | _ => false

/-- Tiles whose bit differs between two tile maps. -/
def mapDiff (a b : Nat) : List Nat := (List.range 4096).filter (fun t => a.testBit t != b.testBit t)

/-- T1 pool or page-table region of partition `p` is badly placed (R333). -/
def State.areasBad (s : State) (p : Nat) : Bool :=
  let f := fun k => s.obj (0x5030 + 0x100 * p) k 0
  let bad := fun b n => decide (b % 65536 ≠ 0 ∨ n % 65536 ≠ 0) || !(coveredBy (s.fences p) b n)
  bad (f 3) (f 4) || bad (f 5) (f 6) || overlaps (f 3) (f 4) (f 5) (f 6)

/-- Session ranges of partition `p` run past 65,535 or overlap another's (R328). -/
def State.rangesBad (s : State) (p : Nat) : Bool :=
  let r := fun q => (s.obj (0x5030 + 0x100 * q) 0 0, s.obj (0x5030 + 0x100 * q) 1 0)
  decide (65536 < (r p).1 + (r p).2)
    || (List.range 8).any (fun q => q ≠ p && overlaps (r p).1 (r p).2 (r q).1 (r q).2)

/-- A SLICE segment of a model loaded in `p` lies in the arena (R352). -/
def State.arenaCovers (s : State) (p : Nat) : Bool :=
  (s.heldModels p).any (fun m => m.slices.any (fun g => decide (s.arenaOffset p < g.1 + g.2)))

/-- Step 11: the rules of the chapters that own the objects (R62, R89, R223, R237, R291, R328, R333, R334, R352, R365, R458,
R462, R465, R466, R478, R479). `s1` is the state as the write would leave the object. -/
def State.ownerStatus (s s1 : State) (i sub v : Nat) : Status :=
  if 0x5000 ≤ i ∧ i < 0x5800 then
    let p := (i - 0x5000) / 0x100
    match i % 0x100 with
    | 0x10 => checkDescriptor v
    | 0x21 => if (mapDiff v 0).all (fun t => s.partOfTile t = some p) then .ok else .badValue
    | 0x30 =>
      if sub < 2 then (if s1.rangesBad p then .badValue else .ok)
      else if sub = 2 then (if s1.arenaCovers p then .busyStopClass else .ok)
      else if s1.areasBad p then .badValue else .ok
    | _ => .ok
  else if 0x5800 ≤ i ∧ i < 0x5C00 then
    if i % 0x10 = 0 ∧ 2 ≤ sub then
      let b := s1.obj i 2 0
      let n := s1.obj i 3 0
      if b % 65536 ≠ 0 ∨ n % 65536 ≠ 0 ∨ (b ≠ 0 ∧ b < hostBase) ∨ 0x800000000000 < b + n ∨ (b = 0 ∧ n ≠ 0) then .outOfRange
      else .ok
    else if i % 0x10 = 9 ∧ sub = 0 ∧ v < 8 ∧ (s.partition v).state ≠ .ready then .badValue
    else .ok
  else if 0x1120 ≤ i ∧ i < 0x1140 then s1.recStatus (i - 0x1120)
  else
    match i with
    | 0x1006 =>
      let old := s.obj 0x1006 0 0
      let diff := mapDiff old v
      if diff.any (fun t => (s.partOfTile t).isSome) then .busyStopClass
      else if diff.any (fun t => old.testBit t && s.badTiles.contains t) then .badValue else .ok
    | 0x1100 =>
      if sub = 0 ∧ 254 < v + s.power.nodeSel then .outOfRange
      else if 2 ≤ sub ∧ sub ≤ 6 ∧ (List.range 32).any (fun r => s1.recUnfit r) then .outOfRange else .ok
    | 0x1110 | 0x1111 | 0x1112 =>
      if i = 0x1110 ∧ sub = 0 then .ok
      else if s1.windowsBad then .badValue
      else if (List.range 32).any (fun r => s1.recUnfit r) then .outOfRange else .ok
    | 0x1151 => let e := ofLength v
      if e.2 = 17 ∧ 128 < bitsAt e.1 128 8 then .outOfRange else .ok
    | 0x3104 => if v < 4096 ∨ !(canIsolate v) then .badValue else .ok
    | 0x3200 =>
      let par := s1.obj 0x3200 1 255
      if par < 8 ∧ (s1.obj 0x3200 2 0).testBit par then .badValue else .ok
    | 0x3400 =>
      if sub ≠ 1 then .ok
      else if v = 1 then (if s.power.pinMask || s.power.pinStuck then .ok else .badValue)
      else if s.power.pinMask then .badValue else .ok
    | 0x3500 =>
      if sub = 1 ∧ v < 8 ∧ (s.partition v).state ≠ .ready ∧ !(s.freezing v) then .badValue else .ok
    | _ => .ok

/-- The value as it is kept. -/
def ObjDesc.kept (d : ObjDesc) (n v : Nat) : Nat := if d.variable then withLength n v else v % 2 ^ (8 * n)

/-- Steps 2 and 5 to 11 of R440, without the steps that depend on who asks: the description where all pass. -/
def State.checkValue (s : State) (i sub n v : Nat) : Except Status ObjDesc :=
  match s.objDesc i sub with
  | none => .error .notFound
  | some d =>
    let st := if d.lengthStatus n = .ok then (if d.max = 1 then d.valueStatus v else .ok) else d.lengthStatus n
    let k := d.kept n v
    if st ≠ .ok then .error st
    else if i % 0x100 = 0x10 ∧ 0x5000 ≤ i ∧ i < 0x5800 ∧ checkDescriptor v = .illegalEncoding then .error .illegalEncoding
    else if s.heldInReset i || (d.change = .stop && s.running i sub k) then .error .busyStopClass
    else
      let o := s.ownerStatus (s.setObj i sub d.dflt k) i sub k
      if o = .ok then .ok d else .error o

/-- Steps 1 to 11 of R440 for a requester. -/
def State.checkWrite (s : State) (r : Requester) (i sub n v : Nat) : Except Status ObjDesc :=
  if !(s.mayWriteFrom r) then .error .accessLevel
  else
    match s.objDesc i sub with
    | none => .error .notFound
    | some d =>
      if d.acc = .ro || !(mailboxMay r i) || (d.expert && !(s.isExpert r)) then .error .accessLevel
      else s.checkValue i sub n v

/-! ### Effects (R441, R442) -/

/-- Bytes of the values that are staged. -/
def State.stagedBytes (s : State) : Nat :=
  s.dict.staged.foldl (fun acc e =>
    acc + (match s.objDesc (e.1 / 256) (e.1 % 256), e.2 with
      | some d, some v => (d.carried v).2
      | _, _ => 0)) 0

/-- A write of class B is staged, unless the set is full (R441, R448). -/
def State.stage (s : State) (i sub n k : Nat) : Status × State :=
  let d := s.dict
  let held := (Sparse.get none d.staged (objKey i sub)).isSome
  if (!held && decide (4096 ≤ d.staged.length)) || (!held && decide (262144 < s.stagedBytes + n)) then (.noSpace, s)
  else (.ok, { s with dict := { d with staged := Sparse.set none d.staged (objKey i sub) (some k) } })

/-- The level of a requester changes (R439). -/
def State.setLevel (s : State) (r : Requester) (v : Nat) : State :=
  let l := s.dict.expert.filter (fun x => x ≠ r)
  { s with dict := { s.dict with expert := if v = 1 then l ++ [r] else l } }

/-- CAN_ENABLE takes effect (R455, R461). -/
def State.canEnable (s : State) (v : Nat) : State :=
  if v = 1 ∧ s.obj 0x1100 1 1 = 0 then
    { s.setObj 0x1100 1 1 v with
      dict := { (s.setObj 0x1100 1 1 v).dict with nextMark := 0, roundAt := none, roundLost := false } }
  else
    let s := s.setObj 0x1100 1 1 v
    if v = 0 then { s with dict := { s.dict with canQueue := [], canParts := [] } } else s

/-- The DICTIONARY word of a trigger by its requester (R514): 0 CAN, 1 UDP, 2 mailbox or DICT. -/
def requesterKind (r : Requester) : Nat :=
  match r with
  | .can _ => 0
  | .udp _ _ => 1
  | _ => 2

/-- Tasks of the selected queues are cancelled, and with them their RUNs (R205, R206, R211). -/
def State.flushQueues (s : State) (c v : Nat) : State :=
  let keys := ((List.range 16).filter (fun q => v.testBit q)).flatMap (fun q => (s.queue c q).map (fun t => t.cmd))
  keys.eraseDups.foldl (fun s k => (s.updCmd k (fun x => { x with cancelled := some .cancelled })).cancelRun k) s

/-- Every tile of the cluster holds no program (R211). -/
def State.flushPrograms (s : State) (c : Nat) : State := s.setSeq c { s.seq c with programs := [] }

/-- An accepted write of an object with a behaviour of its own, or of one that only takes the value (R441). -/
def State.applyWrite (s : State) (r : Requester) (i sub k : Nat) (d : ObjDesc) : Status × State :=
  let plain := s.setObj i sub d.dflt k
  if 0x4000 ≤ i ∧ i < 0x4800 ∧ i % 0x100 = 0x16 then
    (.ok, if sub = 0 then s.flushQueues ((i - 0x4000) / 0x100) k else s.flushPrograms ((i - 0x4000) / 0x100))
  else if 0x5000 ≤ i ∧ i < 0x5800 ∧ i % 0x100 = 0 then
    let p := (i - 0x5000) / 0x100
    if sub = 0 then
      let st := (s.writeClusterMap p k).1
      (st, if st = .ok then s.withTest (fun s => (s.writeClusterMap p k).2) else s)
    else s.requestPartReset p
  else if 0x5000 ≤ i ∧ i < 0x5800 ∧ i % 0x100 = 1 then s.writeFence ((i - 0x5000) / 0x100) sub k
  else if 0x5800 ≤ i ∧ i < 0x5C00 ∧ i % 0x10 = 9 ∧ sub = 3 then (.ok, s.requestViReset ((i - 0x5800) / 0x10))
  else if 0x5800 ≤ i ∧ i < 0x5C00 ∧ i % 0x10 = 9 ∧ sub = 0 then (.ok, s.withTest (fun s => s.setObj i sub d.dflt k))
  else if 0x6100 ≤ i ∧ i < 0x6180 ∧ sub = 0 then (.ok, s.withTest (fun s => s.portEnable ((i - 0x6100) / 0x10) k))
  else
    match i, sub with
    | 0x1010, 0 => (.ok, s.setLevel r k)
    | 0x1020, 5 => (.ok, { s with dict := { s.dict with staged := [] } })
    | 0x1100, 0 => (.ok, plain.takeCanNode)
    | 0x1100, 1 => (.ok, s.withTest (fun s => s.canEnable k))
    | 0x1150, 0 =>
      (.ok, s.withTest (fun s =>
        let s := s.setObj 0x1150 0 1 k
        if k = 0 then { s with dict := { s.dict with lease := none } } else s))
    | 0x3104, 0 => (.ok, s.declareDead k 4)
    | 0x3200, _ =>
      (.ok, (List.range 8).foldl (fun s n =>
        if (s.port n).link = .up then s.setPort n { s.port n with helloDue := true } else s) plain)
    | 0x3400, 1 => (.ok, if k = 1 ∧ !s.power.pinMask then s.maskResetPin else s)
    | 0x3500, 1 => (.ok, s.trigger 4 k (requesterKind r))
    | 0x8000, 5 => s.startTest
    | 0x9001, 0 => (.ok, { s with power := { s.power with asked := true } })
    | 0x9010, 2 => (.ok, { s with dict := { s.dict with store := [], storeOk := false, storeOld := [], storeOldOk := false } })
    | _, _ => (.ok, plain)

/-- A WRITE from a requester, after R440: its status, and the state after it. A refused write has no effect; a persistent
value waits to be stored (R442). -/
def State.writeObject (s : State) (r : Requester) (i sub n v : Nat) : Status × State :=
  match s.checkWrite r i sub n (v % 2 ^ (8 * n)) with
  | .error st => (st, s)
  | .ok d =>
    let k := d.kept n v
    if d.change = .boundary then s.stage i sub n k
    else
      let (st, s1) := s.applyWrite r i sub k d
      if st ≠ .ok then (st, s)
      else if persistent i sub then
        (st, { s1 with dict := { s1.dict with dirty := (s1.dict.dirty ++ [objKey i sub]).eraseDups } })
      else (st, s1)

/-- The management core answers (R470): from the end of ROM on, and a mailbox while the link is up. -/
def State.answers (s : State) (r : Requester) : Bool :=
  let x := s.power
  !x.porHeld && x.stage ≠ 1 && x.stage ≠ 2 && (match r with
    | .mailbox _ | .pf1 => s.host.linkState = 2
    | _ => true)

/-- A write by a row of the command table: its status is kept in `lastStatus`. -/
def State.rowWrite (s : State) (r : Requester) (i sub n v : Nat) : State :=
  if s.answers r then
    let w := s.writeObject r i sub n v
    { w.2 with dict := { w.2.dict with lastStatus := w.1 } }
  else s

/-! ### Rows -/

/-- CLUSTER_MAP_WRITE (R356, R357). -/
def execClusterMapWrite (r : Requester) (p : PartId) (v : Nat) (s : State) : Host.Outcome State Fault Refusal :=
  .next (s.rowWrite r (0x5000 + 0x100 * p.val) 0 1 v)
/-- FENCE_WRITE (R360, R362). -/
def execFenceWrite (r : Requester) (p : PartId) (i : Fin 8) (v : Nat) (s : State) : Host.Outcome State Fault Refusal :=
  .next (s.rowWrite r (0x5001 + 0x100 * p.val) i.val 8 v)
/-- PORT_ENABLE (R433, R434). -/
def execPortEnable (r : Requester) (n : NewenId) (v : Nat) (s : State) : Host.Outcome State Fault Refusal :=
  .next (s.rowWrite r (0x6100 + 0x10 * n.val) 0 1 v)
/-- ACCESS_LEVEL (R439). -/
def execAccessLevel (r : Requester) (v : Nat) (s : State) : Host.Outcome State Fault Refusal :=
  .next (s.rowWrite r 0x1010 0 1 v)
/-- DISCARD_STAGED (R448). -/
def execDiscardStaged (r : Requester) (v : Nat) (s : State) : Host.Outcome State Fault Refusal :=
  .next (s.rowWrite r 0x1020 5 1 v)
/-- PERSIST_RESTORE (R442). -/
def execPersistRestore (r : Requester) (v : Nat) (s : State) : Host.Outcome State Fault Refusal :=
  .next (s.rowWrite r 0x9010 2 1 v)
/-- TILE_DISABLE_MAP (R62). -/
def execTileDisableMap (r : Requester) (v : Nat) (s : State) : Host.Outcome State Fault Refusal :=
  .next (s.rowWrite r 0x1006 0 512 v)
/-- QUEUE_FLUSH (R205, R211). -/
def execQueueFlush (r : Requester) (c : ClusterId) (v : Nat) (s : State) : Host.Outcome State Fault Refusal :=
  .next (s.rowWrite r (0x4016 + 0x100 * c.val) 0 2 v)
/-- PROG_FLUSH (R211). -/
def execProgFlush (r : Requester) (c : ClusterId) (v : Nat) (s : State) : Host.Outcome State Fault Refusal :=
  .next (s.rowWrite r (0x4016 + 0x100 * c.val) 1 1 v)
/-- ISOLATE (R288, R291). -/
def execIsolate (r : Requester) (v : Nat) (s : State) : Host.Outcome State Fault Refusal :=
  .next (s.rowWrite r 0x3104 0 2 v)
/-- DEVICE_RESET (R483): the write is answered; DEVICE_RESET_SEQUENCE then applies the reset. -/
def execDeviceReset (r : Requester) (v : Nat) (s : State) : Host.Outcome State Fault Refusal :=
  .next (s.rowWrite r 0x9001 0 1 v)
/-- VIGIL_REQUEST (R479, R507). -/
def execVigilRequest (r : Requester) (v : Nat) (s : State) : Host.Outcome State Fault Refusal :=
  .next (s.rowWrite r 0x3500 1 1 v)
/-- RESET_PIN_MASK (R478, R542). -/
def execResetPinMask (r : Requester) (v : Nat) (s : State) : Host.Outcome State Fault Refusal :=
  .next (s.rowWrite r 0x3400 1 1 v)
/-- LB_START (R482, R560). -/
def execLbStart (r : Requester) (v : Nat) (s : State) : Host.Outcome State Fault Refusal :=
  .next (s.rowWrite r 0x8000 5 1 v)
/-- OBJECT_WRITE (R440, R441). -/
def execObjectWrite (r : Requester) (i : BitVec 16) (sub : BitVec 8) (n v : Nat) (s : State) : Host.Outcome State Fault Refusal :=
  .next (s.rowWrite r i.toNat sub.toNat n v)

/-- PERSIST_WRITE (R442): the values that wait are written to the older of the two copies of the store, or the flash write
fails. -/
def execPersistWrite (ok : Bool) (s : State) : Host.Outcome State Fault Refusal :=
  let d := s.dict
  if d.dirty = [] then .next s
  else if ok then
    let st := d.dirty.foldl (fun m k =>
      match s.objDesc (k / 256) (k % 256) with
      | some o => Sparse.set none m k (some (s.obj (k / 256) (k % 256) o.dflt))
      | none => m) d.store
    .next { s with dict := { d with store := st, storeOk := true, storeOld := d.store, storeOldOk := d.storeOk, dirty := [] } }
  else .next { s with dict := { d with persistFails := (d.persistFails + 1) % 2 ^ 32, dirty := [] } }

end Sys2Proof.Machine
end

