-- ==== Sys2Proof/Machine/Oap.lean ====
section
/-! DEFINITION. The Object Access Protocol: messages and their answers (R450 to R454), block transfers (R452), commits and
configuration epochs (R443 to R448, R204), and the mailbox and DICT transports (R394, R467). -/

namespace Sys2Proof.Machine

/-! ### Messages (R450, R451) -/

/-- A message of `n` bytes as it is received. -/
def oapParse (n v : Nat) : OapMsg :=
  { version := BitVec.ofNat 2 (bitsAt v 6 2), rsp := v.testBit 5, cont := v.testBit 4, type := BitVec.ofNat 4 v
    tid := BitVec.ofNat 8 (bitsAt v 8 8), index := BitVec.ofNat 16 (bitsAt v 16 16), sub := BitVec.ofNat 8 (bitsAt v 32 8)
    status := BitVec.ofNat 8 (bitsAt v 40 8), length := BitVec.ofNat 16 (bitsAt v 48 16), n := n - 8
    data := bitsAt v 64 (8 * (n - 8)) }

/-- The bytes of a message: its value, and how many. -/
def oapBytes (m : OapMsg) : Nat × Nat :=
  (m.type.toNat + 16 * m.cont.toNat + 32 * m.rsp.toNat + 64 * m.version.toNat + m.tid.toNat * 2 ^ 8 + m.index.toNat * 2 ^ 16
    + m.sub.toNat * 2 ^ 32 + m.status.toNat * 2 ^ 40 + m.length.toNat * 2 ^ 48 + m.data % 2 ^ (8 * m.n) * 2 ^ 64, 8 + m.n)

/-- Data bytes of a full segment (R451). -/
def segmentBytes (r : Requester) : Nat :=
  match r with
  | .can _ => 56
  | _ => 1392

/-- A response to a message. -/
def responseTo (m : OapMsg) (st : Status) (n v : Nat) : OapMsg :=
  { rsp := true, type := m.type, tid := m.tid, index := m.index, sub := m.sub, status := BitVec.ofNat 8 (Status.code st)
    length := BitVec.ofNat 16 n, n := n, data := v }

/-- The opening and continuations that carry a value of `n` bytes (R451). -/
def blockSegments (m : OapMsg) (seg n v : Nat) : List OapMsg :=
  { responseTo m .ok (min n seg) (v % 2 ^ (8 * seg)) with length := BitVec.ofNat 16 n }
    :: (List.range ((n - 1) / seg)).map (fun k =>
      let at_ := seg * (k + 1)
      { responseTo m .ok (min (n - at_) seg) (bitsAt v (8 * at_) (8 * seg)) with cont := true, length := BitVec.ofNat 16 (k + 1) })

/-- A word of OAP_STATS grows (R468). -/
def State.oapStat (s : State) (w n : Nat) : State :=
  { s with dict := { s.dict with stats := Sparse.bump s.dict.stats w n } }

/-! ### Delivery of a response -/

/-- The mailbox of a requester. -/
def State.mailbox (s : State) (r : Requester) : Mailbox :=
  match r with
  | .mailbox v => (s.vi v.val).mailbox
  | _ => s.host.pf1

/-- The mailbox of a requester replaced. -/
def State.setMailbox (s : State) (r : Requester) (x : Mailbox) : State :=
  match r with
  | .mailbox v => s.setVi v.val { s.vi v.val with mailbox := x }
  | .pf1 => { s with host := { s.host with pf1 := x } }
  | _ => s

/-- A segment enters the response buffer of a mailbox; STATE is MORE while others wait (R467). -/
def State.showSegment (s : State) (r : Requester) (m : OapMsg) (more : Bool) : State :=
  let b := oapBytes m
  s.setMailbox r { s.mailbox r with state := if more then 3 else 2, respLen := b.2, response := cellsOf 0 b.2 b.1 }

/-- Segments of a response that waited for a requester are dropped. -/
def State.dropMore (s : State) (r : Requester) : State :=
  { s with dict := { s.dict with more := s.dict.more.filter (fun e => e.1 ≠ r) } }

/-- The segments of a response leave for their requester (R454, R456, R466, R467), or for the buffer of a DICT command
(R394). -/
def State.deliver (s : State) (rt : ReplyTo) (classical : Bool) (l : List OapMsg) : State :=
  match rt with
  | .requester (.can node) =>
    let prio := s.obj 0x1100 8 8
    { s with dict := { s.dict with canQueue := s.dict.canQueue ++ l.map (fun m =>
        ({ prio := prio, dest := node.toNat, msg := m, classical := classical } : CanOut)) } }
  | .requester (.udp a p) => { s with dict := { s.dict with out := s.dict.out ++ l.map (fun m => (Requester.udp a p, m)) } }
  | .requester r =>
    match l with
    | [] => s
    | m :: rest =>
      let s := (s.dropMore r).showSegment r m (!rest.isEmpty)
      { s with dict := { s.dict with more := s.dict.more ++ rest.map (fun m => (r, m)) } }
  | .dict k =>
    match s.cmd k with
    | none => s
    | some c =>
      let b := l.foldl (fun (acc : Nat × Nat) m =>
        let x := oapBytes m
        (acc.1 + x.1 * 2 ^ (8 * acc.2), acc.2 + x.2)) (0, 0)
      if bitsAt (entryW c.entry 6) 0 16 < b.2 then s.endCmd k .noSpace 0
      else
        let w := s.deviceWrite pcieNode 0 k.vi c.part (bitsAt (entryW c.entry 5) 0 48) b.2 b.1
        w.2.endCmd k w.1 b.2

/-- A response is sent, and kept for a requester on UDP or CAN (R454); an error is counted (R468). -/
def State.answerOap (s : State) (rt : ReplyTo) (classical : Bool) (m : OapMsg) (st : Status) (l : List OapMsg) : State :=
  let s := if st = .ok then s else s.oapStat 3 1
  let keep : Requester → State := fun r => { s with dict := { s.dict with
    repeats := s.dict.repeats.filter (fun x : LastResponse => x.req ≠ r)
      ++ [(⟨r, m.tid, m.type, m.index, m.sub, l, s.calends⟩ : LastResponse)] } }
  let s : State := match rt with
    | .requester (.can n) => keep (.can n)
    | .requester (.udp a p) => keep (.udp a p)
    | _ => s
  s.deliver rt classical l

/-- A response without data. -/
def State.answerStatus (s : State) (rt : ReplyTo) (classical : Bool) (m : OapMsg) (st : Status) : State :=
  s.answerOap rt classical m st [responseTo m st 0 0]

/-! ### Commits (R443 to R448) -/

/-- Clusters that a staged value affects (R443). -/
def State.affects (s : State) (k : Nat) : BitVec 8 :=
  let i := k / 256
  if 0x4000 ≤ i ∧ i < 0x4800 then 1#8 <<< ((i - 0x4000) / 0x100)
  else if 0x5000 ≤ i ∧ i < 0x5800 then (s.partition ((i - 0x5000) / 0x100)).clusters
  else 255

/-- The scope of a commit: the partitions of the affected clusters, whole, and affected clusters of none (R443). -/
def State.commitScope (s : State) (vs : Sparse Nat) : BitVec 8 :=
  let a := vs.foldl (fun m e => m ||| s.affects e.1) 0#8
  (List.range 8).foldl (fun m p =>
    let c := (s.partition p).clusters
    if c &&& a ≠ 0 then m ||| c else m) a

/-- The data of a COMMIT's response at its end (R446). -/
def State.commitData (s : State) (c : Commit) : Nat :=
  let epochs := (List.range 8).map (fun k =>
    if !c.scope.getLsbD k then (s.seq k).epoch.toNat
    else
      match c.epochs.find? (fun e => e.1 = k) with
      | some e => e.2
      | none =>
        let ahead := (s.dict.commits.filter (fun d => decide (d.no ≤ c.no) && d.scope.getLsbD k && !d.applied.getLsbD k)).length
        ((s.seq k).epoch.toNat + ahead) % 2 ^ 32)
  c.no + c.scope.toNat * 2 ^ 32 + c.applied.toNat * 2 ^ 40 + (c.scope &&& ~~~c.applied).toNat * 2 ^ 48
    + ofLanes 32 epochs * 2 ^ 64

/-- The values of a commit reach every unit outside the clusters (R445). -/
def State.takeOutside (s : State) (vs : Sparse Nat) : State :=
  vs.foldl (fun s e =>
    match s.objDesc (e.1 / 256) (e.1 % 256) with
    | some d => s.setObj (e.1 / 256) (e.1 % 256) d.dflt e.2
    | none => s) s

/-- A commit ends with OK or PARTIAL (R446): the result is kept, the event written, the response sent. -/
def State.endCommit (s : State) (c : Commit) (st : Status) : State :=
  let data := s.commitData c
  let s := s.takeOutside c.values
  let s := { s with dict := { s.dict with
    lastResult := (data, 40)
    commits := if c.applied = c.scope then s.dict.commits.filter (fun d => d.no ≠ c.no)
      else s.dict.commits.map (fun d : Commit => if d.no = c.no then { d with ended := true } else d) } }
  let s := s.svcEvent mgmtNode 0x24 (Status.code st * 2 ^ 16 + c.no % 2 ^ 16)
  let m : OapMsg := { type := 5, tid := c.tid, index := 0, sub := 0, length := 0, n := 0, data := 0 }
  s.answerOap c.reply c.classical m st [responseTo m st 40 data]

/-- The first staged value, in ascending key order, that fails its checks at this moment (R444, step 2). -/
def State.firstBad (s : State) : Option (Nat × Status) :=
  s.dict.staged.findSome? (fun e =>
    match e.2, s.objDesc (e.1 / 256) (e.1 % 256) with
    | some k, some d =>
      let v := d.carried k
      match s.checkValue (e.1 / 256) (e.1 % 256) v.2 v.1 with
      | .ok _ => none
      | .error st => some (e.1, st)
    | _, _ => some (e.1, .notFound))

/-- The staging set is frozen into a commit and delivered (R444, steps 1 and 3). -/
def State.freezeCommit (s : State) (rt : ReplyTo) (classical : Bool) (m : OapMsg) (t : Nat) (force : Bool) : State :=
  let vs := s.dict.staged.filterMap (fun e => e.2.map (fun v => (e.1, v)))
  let scope := s.commitScope vs
  let no := (s.dict.commitNo + 1) % 2 ^ 32
  let c : Commit := { no := no, values := vs, scope := scope, force := force, deadline := s.calends + t * 2000000, reply := rt
                      classical := classical, tid := m.tid }
  let objs := vs.foldl (fun o e => Sparse.set none o (committedUnit * 2 ^ 24 + e.1) (some e.2)) s.dict.objs
  let s := { s with dict := { s.dict with commitNo := no, staged := [], commits := s.dict.commits ++ [c], objs := objs } }
  let s := (List.range 8).foldl (fun s k =>
    if scope.getLsbD k then
      let q := s.seq k
      s.setSeq k { q with commits := q.commits ++ [no], force := q.force || force }
    else s) s
  if scope = 0 then s.endCommit c .ok else s

/-- A COMMIT message (R444, R448, R451). -/
def State.commitMessage (s : State) (r : Requester) (rt : ReplyTo) (classical : Bool) (m : OapMsg) : State :=
  let t := bitsAt m.data 0 32
  let no := fun st => s.answerStatus rt classical m st
  if !(s.mayWriteFrom r) then no .accessLevel
  else if m.n ≠ 8 then no .badValue
  else if bitsAt m.data 33 31 ≠ 0 then no .illegalEncoding
  else if 60000 < t then no .outOfRange
  else if 16 ≤ s.dict.commits.length then no .noSpace
  else
    match s.firstBad with
    | some (k, st) => s.answerOap rt classical m st [responseTo m st 3 (k / 256 + k % 256 * 2 ^ 16)]
    | none => s.freezeCommit rt classical m (if t = 0 then s.obj 0x1020 4 100 else t) (m.data.testBit 32)

/-- Members that a change of a map takes from a cluster: an open operation no longer waits for those that have not come
(R223). -/
def State.dropMembers (s : State) (c i ch v : Nat) : State :=
  let p := (i - 0x5021) / 0x100
  let x := s.ctx p ch
  if x.active then
    s.setCtx p ch { x with expected := x.expected.filter (fun t =>
      !(decide (clusterOfTile t = c)) || v.testBit t || (Sparse.get none x.arrived t).isSome) }
  else s

/-- One value of a commit comes into force in cluster `c` (R204, R445). -/
def State.takeInCluster (s : State) (c : Nat) (e : Nat × Nat) : State :=
  let i := e.1 / 256
  match s.objDesc i (e.1 % 256) with
  | none => s
  | some d =>
    if (s.affects e.1).getLsbD c then
      let s := s.setObjOf c i (e.1 % 256) d.dflt e.2
      if 0x5000 ≤ i ∧ i < 0x5800 ∧ i % 0x100 = 0x21 then s.dropMembers c i (e.1 % 256) e.2 else s
    else s

/-- A commit is applied in cluster `c`: its values, the epoch, the event, and the commit's end once the last cluster of its
scope has it (R204, R446). -/
def State.applyCommit (s : State) (c : Nat) (k : Commit) : State :=
  let s := k.values.foldl (fun s e => s.takeInCluster c e) s
  let q := s.seq c
  let epoch := q.epoch + 1
  let s := (s.setSeq c { q with epoch := epoch, commits := q.commits.filter (fun n => n ≠ k.no) }).svcEvent (seqNode c) 0x12
    (epoch.toNat % 2 ^ 24)
  let k := { k with applied := k.applied ||| (1#8 <<< c), epochs := k.epochs ++ [(c, epoch.toNat)] }
  let s := { s with dict := { s.dict with commits := s.dict.commits.map (fun d => if d.no = k.no then k else d) } }
  if k.applied ≠ k.scope then s
  else if k.ended then { s with dict := { s.dict with commits := s.dict.commits.filter (fun d => d.no ≠ k.no) } }
  else s.endCommit k .ok

/-- Cluster `c` is at a task boundary (R204); a HUNG cluster reaches none (R530). -/
def State.atBoundary (s : State) (c : Nat) : Bool :=
  !(s.hungCluster c) && !((s.seq c).queues.any (fun q => q.2.any (fun t => t.phase = .dispatched)))
    && s.tiles.all (fun e => decide (clusterOfTile e.1 ≠ c) || e.2.task.isNone)
    && s.net.initiators.all (fun e => decide (4096 ≤ e.1 ∨ clusterOfTile e.1 ≠ c) || e.2.out.isEmpty)

/-- At a boundary of cluster `c` its pending commits are applied in order (R204, R446). -/
def State.applyAtBoundary (s : State) (c : Nat) : State :=
  if s.atBoundary c then
    let l := s.dict.commits.filter (fun k => k.scope.getLsbD c && !k.applied.getLsbD c)
    let s := l.foldl (fun s k => match s.dict.commits.find? (fun d => d.no = k.no) with
      | some k => s.applyCommit c k
      | none => s) s
    s.setSeq c { s.seq c with force := false }
  else s

/-- COMMIT_APPLY (R204, R446). -/
def execCommitApply (c : ClusterId) (s : State) : Host.Outcome State Fault Refusal := .next (s.applyAtBoundary c.val)

/-- TASK_DISPATCH (R201, R203, R204, R537): a boundary of the cluster that coincides with the dispatch is applied first; a
cluster whose compute domain is off wakes first. -/
def execTaskDispatch (c : ClusterId) (host : HostData) (s : State) : Host.Outcome State Fault Refusal :=
  let s := s.applyAtBoundary c.val
  let recent := match (s.seq c.val).lastDispatch with
    | some k => decide (s.calends < k + 4)
    | none => false
  if recent then .next s
  else
    match s.nextDispatch c.val with
    | none => .next s
    | some (q, t) =>
      if s.domain c.val = .off then .next (s.setDomain c.val .waking)
      else if s.domain c.val ≠ .on then .next s
      else .next (s.dispatch c.val q t host)

/-- COMMIT_TIMEOUT (R446): a commit that is not applied everywhere ends PARTIAL; its laggards keep it pending. -/
def execCommitTimeout (no : Nat) (s : State) : Host.Outcome State Fault Refusal :=
  match s.dict.commits.find? (fun c => c.no = no && !c.ended) with
  | some c => .next (s.endCommit c .partialApplied)
  | none => .next s

/-! ### Reads, writes and block transfers (R440, R451, R452) -/

/-- READ. -/
def State.readMessage (s : State) (r : Requester) (rt : ReplyTo) (classical : Bool) (m : OapMsg) : State :=
  match s.readObject r m.index.toNat m.sub.toNat with
  | .error st => s.answerStatus rt classical m st
  | .ok (v, n) =>
    if segmentBytes r < n then s.answerOap rt classical m .noSpace [responseTo m .noSpace 4 n]
    else s.answerOap rt classical m .ok [responseTo m .ok n v]

/-- Block transfers that the device holds (R452): of writes, of mailboxes that fetch segments, and of CAN nodes whose segments
are still to be sent. -/
def State.transfers (s : State) : Nat :=
  s.dict.blocks.length + (s.dict.more.map (·.1)).eraseDups.length
    + ((s.dict.canQueue.filter (fun o => o.msg.cont)).map (·.dest)).eraseDups.length

/-- A new opening abandons the requester's earlier transfer (R452). -/
def State.abandon (s : State) (r : Requester) : State :=
  let s := s.dropMore r
  let others := fun (o : CanOut) => match r with
    | .can n => !(o.dest = n.toNat && o.msg.type = 3)
    | _ => true
  { s with dict := { s.dict with blocks := s.dict.blocks.filter (fun b => b.req ≠ r)
                                 canQueue := s.dict.canQueue.filter others } }

/-- READ_BLOCK. -/
def State.readBlock (s : State) (r : Requester) (rt : ReplyTo) (classical : Bool) (m : OapMsg) : State :=
  let s := s.abandon r
  match s.readObject r m.index.toNat m.sub.toNat with
  | .error st => s.answerStatus rt classical m st
  | .ok (v, n) =>
    if 16 ≤ s.transfers then s.answerStatus rt classical m .noSpace
    else s.answerOap rt classical m .ok (blockSegments m (segmentBytes r) n v)

/-- A WRITE, or a block write whose last segment has arrived. -/
def State.writeMessage (s : State) (r : Requester) (rt : ReplyTo) (classical : Bool) (m : OapMsg) (n v : Nat) : State :=
  let w := s.writeObject r m.index.toNat m.sub.toNat n v
  w.2.answerStatus rt classical m w.1

/-- The opening of a WRITE_BLOCK. -/
def State.writeOpening (s : State) (r : Requester) (rt : ReplyTo) (classical : Bool) (m : OapMsg) : State :=
  let s := s.abandon r
  let total := m.length.toNat
  if !(s.mayWriteFrom r) then s.answerStatus rt classical m .accessLevel
  else if total ≤ m.n then s.writeMessage r rt classical m total (m.data % 2 ^ (8 * total))
  else
    match rt with
    | .dict _ => s.answerStatus rt classical m .badValue
    | _ =>
      if 16 ≤ s.transfers then s.answerStatus rt classical m .noSpace
      else { s with dict := { s.dict with blocks := s.dict.blocks ++
          [⟨r, m.tid, m.index, m.sub, total, m.n, m.data, 1, s.calends⟩] } }

/-- A continuation of a WRITE_BLOCK (R451, R452). -/
def State.writeContinuation (s : State) (b : BlockXfer) (r : Requester) (rt : ReplyTo) (classical : Bool) (m : OapMsg) : State :=
  let rest := s.dict.blocks.filter (fun x => x ≠ b)
  let gone := { s with dict := { s.dict with blocks := rest } }
  if m.length.toNat ≠ b.next then gone.answerStatus rt classical m .badValue
  else
    let b' := { b with got := b.got + m.n, data := b.data + m.data * 2 ^ (8 * b.got), next := b.next + 1, cal := s.calends }
    if b'.got < b.total then { s with dict := { s.dict with blocks := rest ++ [b'] } }
    else gone.writeMessage r rt classical m b.total b'.data

/-- The transfer that a continuation belongs to. -/
def State.transferOf (s : State) (r : Requester) (m : OapMsg) : Option BlockXfer :=
  s.dict.blocks.find? (fun b => b.req = r && b.tid = m.tid && b.index = m.index && b.sub = m.sub)

/-- Data bytes that a request must carry (R450, R451). -/
def State.dataBytes (s : State) (r : Requester) (m : OapMsg) : Nat :=
  if m.cont then
    match s.transferOf r m with
    | some b => min (b.total - b.got) (segmentBytes r)
    | none => m.n
  else if m.type = 4 then min m.length.toNat (segmentBytes r) else m.length.toNat

/-! ### A message arrives (R451 to R454) -/

/-- The message is discarded as malformed: a reserved VERSION or TYPE, a NOTIFY, a response, a continuation that belongs to
no transfer, or a length that disagrees. CAN pads a message (R457). -/
def State.malformed (s : State) (r : Requester) (m : OapMsg) : Bool :=
  let k := s.dataBytes r m
  let can := match r with
    | .can _ => true
    | _ => false
  m.version ≠ 1 || m.rsp || m.type = 0 || m.type = 6 || decide (8 ≤ m.type.toNat)
    || (m.cont && (m.type ≠ 4 || (s.transferOf r m).isNone))
    || (if can then decide (m.n < k) || decide (segmentBytes r < m.n) else m.n ≠ k)
    || (m.type = 7 && (!can || k ≠ 8))

/-- A UDP requester is heard: 16 are tracked, and the least recently heard one loses its level (R439). -/
def State.heard (s : State) (r : Requester) : State :=
  match r with
  | .udp _ _ =>
    let l := r :: s.dict.udpHeard.filter (fun x => x ≠ r)
    let gone := l.drop 16
    { s with dict := { s.dict with udpHeard := l.take 16, expert := s.dict.expert.filter (fun x => !(gone.contains x)) } }
  | _ => s

/-- A round mark is received (R461). -/
def State.roundMark (s : State) (m : OapMsg) : State :=
  if s.obj 0x1110 0 0 = 1 then s.oapStat 9 1
  else { s with dict := { s.dict with round := bitsAt m.data 0 32, roundAt := some s.calends, roundLost := false } }

/-- A message from a requester is taken (R451 to R454); `false` tells that it was discarded. -/
def State.oap (s : State) (r : Requester) (rt : ReplyTo) (classical : Bool) (m : OapMsg) : State × Bool :=
  let s := s.heard r
  if s.malformed r m then (s.oapStat 6 1, false)
  else
    let k := s.dataBytes r m
    let m := { m with n := k, data := m.data % 2 ^ (8 * k) }
    if m.type = 7 then (s.roundMark m, true)
    else
      let s := s.oapStat (match r with
        | .udp _ _ => 1
        | .can _ => 2
        | _ => 0) 1
      let again := s.dict.repeats.find? (fun x =>
        x.req = r && x.tid = m.tid && x.type = m.type && x.index = m.index && x.sub = m.sub
          && decide (s.calends < x.cal + 4000000000))
      match again with
      | some x => ((s.oapStat 5 1).deliver rt classical x.msgs, true)
      | none =>
        match m.type with
        | 1 => (s.readMessage r rt classical m, true)
        | 2 => (s.writeMessage r rt classical m k m.data, true)
        | 3 => (s.readBlock r rt classical m, true)
        | 4 =>
          if m.cont then
            match s.transferOf r m with
            | some b => (s.writeContinuation b r rt classical m, true)
            | none => (s, false)
          else (s.writeOpening r rt classical m, true)
        | _ => (s.commitMessage r rt classical m, true)

/-- A message of a row's type arrives from a requester by its transport (R470). -/
def State.rowMessage (s : State) (r : Requester) (m : OapMsg) (type : BitVec 4) (cont : Bool) : State :=
  if s.answers r then (s.oap r (.requester r) s.canClassical { m with type := type, cont := cont }).1 else s

/-- OAP_READ (R451). -/
def execOapRead (r : Requester) (m : OapMsg) (s : State) : Host.Outcome State Fault Refusal := .next (s.rowMessage r m 1 false)
/-- OAP_WRITE (R440, R441). -/
def execOapWrite (r : Requester) (m : OapMsg) (s : State) : Host.Outcome State Fault Refusal := .next (s.rowMessage r m 2 false)
/-- READ_BLOCK (R451). -/
def execReadBlock (r : Requester) (m : OapMsg) (s : State) : Host.Outcome State Fault Refusal := .next (s.rowMessage r m 3 false)
/-- WRITE_BLOCK (R451). -/
def execWriteBlock (r : Requester) (m : OapMsg) (s : State) : Host.Outcome State Fault Refusal := .next (s.rowMessage r m 4 false)
/-- BLOCK_CONTINUATION (R452). -/
def execBlockContinuation (r : Requester) (m : OapMsg) (s : State) : Host.Outcome State Fault Refusal :=
  .next (s.rowMessage r m 4 true)
/-- COMMIT (R444). -/
def execCommit (r : Requester) (m : OapMsg) (s : State) : Host.Outcome State Fault Refusal := .next (s.rowMessage r m 5 false)
/-- NOTIFY (R451): discarded and counted. -/
def execNotify (r : Requester) (m : OapMsg) (s : State) : Host.Outcome State Fault Refusal := .next (s.rowMessage r m 6 m.cont)
/-- SCHEDULE (R461). -/
def execSchedule (r : Requester) (m : OapMsg) (s : State) : Host.Outcome State Fault Refusal := .next (s.rowMessage r m 7 false)

/-- BLOCK_SEGMENT_TIMEOUT (R452): 50 ms have passed since the last segment of the requester's transfer. -/
def execBlockSegmentTimeout (r : Requester) (s : State) : Host.Outcome State Fault Refusal :=
  match s.dict.blocks.find? (fun b => b.req = r) with
  | some b =>
    let s := ({ s with dict := { s.dict with blocks := s.dict.blocks.filter (fun x => x ≠ b) } }).oapStat 4 1
    let m : OapMsg := { type := 4, tid := b.tid, index := b.index, sub := b.sub, length := 0, n := 0, data := 0 }
    .next (s.answerStatus (.requester r) s.canClassical m .timeout)
  | none =>
    if s.dict.more.any (fun e => e.1 = r) then
      let s := (s.dropMore r).oapStat 4 1
      .next (s.setMailbox r { s.mailbox r with state := 2 })
    else .next s

/-! ### The mailbox and DICT (R394, R467) -/

/-- A refused write to a function block is reported under R387; PF 1 has no REG_ERROR. -/
def State.refuseBox (s : State) (r : Requester) (st : Status) : State :=
  match r with
  | .mailbox v => s.refuseRegister v.val st
  | _ => s

/-- A write of GO with REQ_LEN (R467). -/
def State.go (s : State) (r : Requester) (len : Nat) : State :=
  let b := s.mailbox r
  if b.state = 1 then s.refuseBox r .busyStopClass
  else if len = 0 then
    if b.state ≠ 3 then s.refuseBox r .outOfRange
    else
      match s.dict.more.find? (fun e => e.1 = r) with
      | some e =>
        let rest := s.dict.more.erase e
        ({ s with dict := { s.dict with more := rest } }).showSegment r e.2 (rest.any (fun x => x.1 = r))
      | none => s
  else if len < 8 ∨ 1400 < len then s.refuseBox r .outOfRange
  else if s.answers r then
    let s := s.setMailbox r { b with state := 1, respLen := 0 }
    let w := s.oap r (.requester r) false (oapParse len (memNat b.request 0 len))
    let x := w.1.mailbox r
    -- a discarded message leaves the mailbox idle, and so does a segment of a block write that needs no answer
    if x.state = 1 ∧ !(w.2 && bitsAt (memNat b.request 0 len) 0 4 = 5) then w.1.setMailbox r { x with state := 0 } else w.1
  else s

/-- The requester that a mailbox is: of a VI, or of PF 1. -/
def boxRequester (box : Option ViId) : Requester :=
  match box with
  | some v => .mailbox v
  | none => .pf1

/-- GO (R467). -/
def execGo (box : Option ViId) (len : Nat) (s : State) : Host.Outcome State Fault Refusal :=
  if box.isNone ∧ s.host.bifurcation = 0 then .next s else .next (s.go (boxRequester box) (len % 2048))

/-- A write of `n` bytes at an offset of a mailbox's area (R387, R467). -/
def State.writeMailbox (s : State) (r : Requester) (off n v : Nat) : State :=
  let b := s.mailbox r
  let v := v % 2 ^ (8 * n)
  if (n ≠ 4 ∧ n ≠ 8) ∨ off % n ≠ 0 then s.refuseBox r .badValue
  else if off = 0x2000 then (if v.testBit 31 then s.go r (bitsAt v 0 11) else s)
  else if off = 0x2004 ∨ off = 0x2008 ∨ off = 0x200C ∨ (0x3000 ≤ off ∧ off < 0x3578) then s
  else if 0x2800 ≤ off ∧ off < 0x2D78 then
    if b.state = 1 then s.refuseBox r .busyStopClass
    else s.setMailbox r { b with request := memWrite b.request (off - 0x2800) n v }
  else s.refuseBox r .outOfRange

/-- The boot-load registers (R552): under BOOT_SEL 1 and before the stage PCIE, PF BAR0 presents nothing else. -/
def State.bootLoad (s : State) : Bool := s.power.bootSel = 1 && decide (s.power.stage < 0xB)

/-- A write of a boot-load register. -/
def State.writeBootLoad (s : State) (off n v : Nat) : State :=
  let x := s.power
  if (n ≠ 4 ∧ n ≠ 8) ∨ off % n ≠ 0 then s
  else if off / 8 = 1 then
    { s with power := { x with imageAddr := mergeReg x.imageAddr (off % 8) n v % 2 ^ 46 } }
  else if off / 8 = 2 then
    { s with power := { x with imageLen := mergeReg x.imageLen (off % 8) n v % 2 ^ 24 } }
  else s

/-- REGISTER_WRITE (R382, R386, R387, R467, R552): a write of `n` bytes at an offset of a function's block. -/
def execRegisterWrite (box : Option ViId) (off n v : Nat) (s : State) : Host.Outcome State Fault Refusal :=
  match box with
  | some k =>
    if k.val = 0 ∧ s.bootLoad then .next (s.writeBootLoad off n v)
    else if 0x2000 ≤ off ∧ off < 0x4000 then .next (s.writeMailbox (.mailbox k) off n v)
    else .next (s.writeBlock k.val off n v)
  | none => if s.host.bifurcation = 1 then .next (s.writeMailbox .pf1 off n v) else .next s

/-- DICT (R394, R467): the request is read, answered with the rights of the VI's mailbox, and its response written. -/
def execDict (v : ViId) (r : RingId) (seq : Nat) (host : HostData) (s : State) : Host.Outcome State Fault Refusal :=
  match s.fresh v.val r.val seq 8 with
  | none => .next s
  | some c =>
    let n := bitsAt (entryW c.entry 4) 0 16
    let d := (s.begin c.key).deviceRead pcieNode 0 v.val c.part (bitsAt (entryW c.entry 3) 0 48) n host
    if d.st ≠ .ok then .next (d.s.endCmd c.key d.st 0)
    else if d.poison ≠ 0 then .next (d.s.endCmd c.key .eccUncorrected 0)
    else if n < 8 then .next ((d.s.oapStat 6 1).endCmd c.key .badValue 0)
    else
      let w := d.s.oap (.mailbox v) (.dict c.key) false (oapParse n d.val)
      if w.2 then .next w.1 else .next (w.1.endCmd c.key .badValue 0)

end Sys2Proof.Machine
end

