-- ==== Sys2Proof/Machine/Field.lean ====
section
/-! DEFINITION. The field networks: CAN frames, rounds, windows and scheduled records (R455 to R465), and Ethernet (R466). -/

namespace Sys2Proof.Machine

/-! ### The CAN controller (R455 to R458) -/

/-- The controller is on: CAN_ENABLE is 1, it has a node id, and the management core runs (R458, R468, R470). -/
def State.canOn (s : State) : Bool :=
  s.obj 0x1100 1 1 = 1 && decide (s.dict.canNode ≠ 0) && s.answers (.can 0)

/-- Data bytes of a frame that the bus carries (R457). -/
def CanFrame.sized (f : CanFrame) : Bool :=
  if f.fd then decide (f.n ≤ 64 ∧ fdSize f.n = f.n) else decide (f.n ≤ 8)

/-- The device handles the frame (R455, R456). -/
def State.canTakes (s : State) (f : CanFrame) : Bool :=
  let id := f.id.toNat
  let dest := bitsAt id 8 8
  f.extended && CanFrame.sized f && !(f.fd && s.canClassical) && bitsAt id 16 8 = 1 && (dest = s.dict.canNode || dest = 255)

/-- A message has arrived whole from a node (R457). -/
def State.canMessage (s : State) (node : BitVec 8) (classical : Bool) (n v : Nat) : State :=
  if n < 8 then s.oapStat 6 1 else (s.oap (.can node) (.requester (.can node)) classical (oapParse n v)).1

/-- A classical frame arrives: the frames of a message are put together until its header's bytes are here (R457). -/
def State.canPiece (s : State) (node : BitVec 8) (n v : Nat) : State :=
  let old := (s.dict.canParts.find? (fun x : CanPart => x.node = node)).getD ⟨node, 0, 0, 0⟩
  let rest := s.dict.canParts.filter (fun x : CanPart => x.node ≠ node)
  let got := old.n + n
  let data := old.data + v % 2 ^ (8 * n) * 2 ^ (8 * old.n)
  let s := { s with dict := { s.dict with canParts := rest } }
  if got < 8 then s.oapStat 6 1
  else
    let need := s.dataBytes (.can node) (oapParse 8 data)
    if 56 < need then s.oapStat 6 1
    else if got < 8 + need then
      if n < 8 then s.oapStat 6 1
      else { s with dict := { s.dict with canParts := rest ++ [(⟨node, got, data, s.calends⟩ : CanPart)] } }
    else s.canMessage node true got data

/-- CAN_FRAME_RECEIVE (R455 to R457). -/
def execCanFrameReceive (f : CanFrame) (s : State) : Host.Outcome State Fault Refusal :=
  if s.canOn && s.canTakes f then
    let node := BitVec.ofNat 8 (bitsAt f.id.toNat 0 8)
    .next (if f.fd then s.canMessage node false f.n (f.data % 2 ^ (8 * f.n)) else s.canPiece node f.n f.data)
  else .next s

/-- CLASSICAL_GAP_TIMEOUT (R457): the next frame of a node's message has not come within 50 ms. -/
def execClassicalGapTimeout (node : BitVec 8) (s : State) : Host.Outcome State Fault Refusal :=
  .next { s with dict := { s.dict with canParts := s.dict.canParts.filter (fun x : CanPart => x.node ≠ node) } }

/-! ### Bit timing (R459) -/

/-- The time segments of a bit, in time quanta: before and after the sample point, and the synchronisation jump width. -/
structure BitTiming where
  before : Nat
  after : Nat
  jump : Nat
deriving DecidableEq, Repr

/-- The timing of a bit of `n` time quanta sampled at `k` per mille: the quantum nearest to it, the earlier one on a tie; the jump
width is the whole of phase segment 2. -/
def bitTiming (n k : Nat) : BitTiming :=
  let b := (2 * n * k + 999) / 2000
  ⟨b, n - b, n - b⟩

/-- The nominal and the data timing, in quanta of the protocol clock of 80 MHz: of 25 cycles of CLK_CORE (a prescaler of 1 is a
DESIGN CHOICE, log entry 16). -/
def State.canTiming (s : State) : BitTiming × BitTiming :=
  (bitTiming (s.nominalBit / 25) (s.obj 0x1100 5 800), bitTiming (s.dataBit / 25) (s.obj 0x1100 6 750))

/-- Transmitter delay compensation is on above 1 Mbit/s. -/
def State.delayCompensation (s : State) : Bool := decide (s.dataBit < 2000)

/-! ### Rounds (R461) -/

/-- ROUND_MARK_SEND (R461): the master queues its next round mark. -/
def execRoundMarkSend (s : State) : Host.Outcome State Fault Refusal :=
  if s.canOn && s.obj 0x1110 0 0 = 1 then
    let k := s.dict.nextMark
    let v := k % 2 ^ 32 + s.obj 0x1110 1 10 * 2 ^ 32 + s.obj 0x1110 2 0 * 2 ^ 48
    let m : OapMsg := { type := 7, tid := 0, index := 0, sub := 0, length := 8, n := 8, data := v }
    let o : CanOut := { prio := 0, dest := 255, msg := m, mark := true, classical := s.canClassical }
    .next { s with dict := { s.dict with canQueue := s.dict.canQueue ++ [o], nextMark := k + 1 } }
  else .next s

/-- ROUND_LOST (R461): no mark for 2 x ROUND_PERIOD. -/
def execRoundLost (s : State) : Host.Outcome State Fault Refusal :=
  if s.canOn && s.obj 0x1110 0 0 = 0 && !s.dict.roundLost then
    .next ({ s with dict := { s.dict with roundLost := true } }.oapStat 8 1)
  else .next s

/-! ### Windows and records (R462 to R464) -/

/-- Cycles of the round that have passed, while windows count. -/
def State.roundTime (s : State) : Option Nat := if s.dict.roundLost then none else s.dict.roundAt.map (fun t => s.calends - t)

/-- Cycles left in window `k` (R462, R463). -/
def State.windowLeft (s : State) (k : Nat) : Nat :=
  let w := s.window k
  match s.roundTime with
  | some e => if k < s.obj 0x1110 2 0 ∧ 2000 * w.1 ≤ e then 2000 * (w.1 + w.2) - e else 0
  | none => 0

/-- Cycles left before the next window opens, as a response sees it; none where a response may start at any time (R461,
R463). -/
def State.openLeft (s : State) : Option Nat :=
  let n := s.obj 0x1110 2 0
  match s.roundTime with
  | none => none
  | some e =>
    let starts := (List.range n).map (fun k => 2000 * (s.window k).1)
    let later := starts.filter (fun t => decide (e ≤ t))
    let first := starts.foldl min (starts.headD 0)
    if n = 0 then none
    else if (List.range n).any (fun k => decide (0 < s.windowLeft k)) then some 0
    else if later ≠ [] then some (later.foldl min (later.headD 0) - e)
    else some (2000000 * s.obj 0x1110 1 10 - e + first)

/-- The NOTIFY of record `r` as it is set up now (R464). -/
def State.recordOut (s : State) (r : Nat) : Option CanOut :=
  let o := s.recField r 1
  match s.recValue r with
  | .error _ => none
  | .ok (v, n) =>
    if 56 < n then none
    else
      let m : OapMsg := { type := 6, tid := BitVec.ofNat 8 r, index := BitVec.ofNat 16 (o / 256), sub := BitVec.ofNat 8 o
                          length := BitVec.ofNat 16 n, n := n, data := v }
      some { prio := s.recField r 5, dest := s.recField r 4, msg := m, record := some r, classical := s.canClassical }

/-- WINDOW_OPEN (R464): the deferred records of the window, then those due in this round, in ascending number. -/
def execWindowOpen (k : Fin 16) (s : State) : Host.Outcome State Fault Refusal :=
  if s.canOn && decide (k.val < s.obj 0x1110 2 0) && s.roundTime.isSome then
    let q := s.dict.canQueue
    let here := (List.range 32).filter (fun r => s.recField r 0 = 1 && s.recField r 2 = k.val)
    let held := here.filter (fun r => q.any (fun o : CanOut => o.record = some r))
    let due := here.filter (fun r => !(held.contains r) && s.dict.round % s.recField r 3 = 0)
    let stay := q.filter (fun o : CanOut => match o.record with
      | some r => s.recField r 0 = 1 && !(here.contains r)
      | none => true)
    .next { s with dict := { s.dict with canQueue := stay ++ (held ++ due).filterMap (fun r => s.recordOut r) } }
  else .next s

/-- The frame's time fits (R460, R463); a round mark begins a round and waits for none. -/
def State.canFits (s : State) (o : CanOut) : Bool :=
  let t := s.messageTime o.classical (8 + o.msg.n)
  match o.record with
  | some r => decide (t ≤ s.windowLeft (s.recField r 2))
  | none =>
    o.mark || (match s.openLeft with
      | some left => decide (t ≤ left)
      | none => true)

/-- Records at the head of the queue that do not fit wait for the next round and are counted, up to the first that fits
(R463, R464). -/
def State.deferRecords (s : State) (q : List CanOut) : List CanOut × List Nat :=
  match q with
  | [] => ([], [])
  | o :: rest =>
    match o.record with
    | none => let x := s.deferRecords rest
      (o :: x.1, x.2)
    | some r =>
      if o.deferred then
        let x := s.deferRecords rest
        (o :: x.1, x.2)
      else if s.canFits o then (o :: rest, [])
      else
        let x := s.deferRecords rest
        ({ o with deferred := true } :: x.1, r :: x.2)

/-- The frame that is attempted: the first record still to be sent, or a fitting frame outside a record, of the lowest
priority class, and of those the one that has waited longest (R456, R464). -/
def State.canNext (s : State) (q : List CanOut) : Option CanOut :=
  let recs := (q.filter (fun o : CanOut => o.record.isSome && !o.deferred)).take 1
  let cands := recs ++ q.filter (fun o : CanOut => o.record.isNone && s.canFits o)
  cands.find? (fun o : CanOut => cands.all (fun x : CanOut => decide (o.prio ≤ x.prio)))

/-- The identifier of a frame of the device (R456). -/
def State.canId (s : State) (o : CanOut) : BitVec 29 :=
  BitVec.ofNat 29 (o.prio * 2 ^ 24 + 1 * 2 ^ 16 + o.dest % 256 * 2 ^ 8 + s.dict.canNode)

/-- The frames that carry a message (R456, R457): one FD frame, padded with zero bytes, or classical frames of 8 bytes and a last
one. -/
def State.canFrames (s : State) (o : CanOut) : List CanFrame :=
  let b := oapBytes o.msg
  if o.classical then
    (List.range ((b.2 + 7) / 8)).map (fun i => ⟨true, s.canId o, false, min 8 (b.2 - 8 * i), bitsAt b.1 (64 * i) 64⟩)
  else [⟨true, s.canId o, true, fdSize b.2, b.1⟩]

/-- The frame has been sent (R461, R464). -/
def State.canSend (s : State) (o : CanOut) : State :=
  let d := s.dict
  let d := { d with canQueue := d.canQueue.erase o, canSent := d.canSent ++ s.canFrames o }
  match o.record with
  | some r => { s with dict := { d with recSent := Sparse.set 0 d.recSent r ((Sparse.get 0 d.recSent r + 1) % 2 ^ 32) } }
  | none =>
    if o.mark then { s with dict := { d with round := bitsAt o.msg.data 0 32, roundAt := some s.calends } }
    else { s with dict := d }

/-- FRAME_ATTEMPT (R463): the frame whose turn it is starts if its time fits, and is sent if it wins arbitration. -/
def execFrameAttempt (won : Bool) (s : State) : Host.Outcome State Fault Refusal :=
  if !s.canOn then .next s
  else
    let x := s.deferRecords s.dict.canQueue
    let recs := x.2.foldl (fun m r => Sparse.set 0 m r ((Sparse.get 0 m r + 1) % 2 ^ 32)) s.dict.recDeferred
    let s := if x.2 = [] then s else
      { s with dict := { s.dict with canQueue := x.1, recDeferred := recs } }.oapStat 7 x.2.length
    match s.canNext s.dict.canQueue with
    | some o => .next (if won then s.canSend o else s)
    | none => .next s

/-! ### Ethernet (R466) -/

/-- The port is on (R468, R470). -/
def State.ethOn (s : State) : Bool := s.obj 0x1150 0 1 = 1 && s.answers (.can 0)

/-- An IPv4 address in the form ::ffff:a.b.c.d. -/
def mapped (a : Nat) : Nat := 0xFFFF * 2 ^ 32 + a

/-- The IPv4 address of the device: static or leased. -/
def State.ownV4 (s : State) : Option Nat :=
  if s.obj 0x1150 1 1 = 0 then (if s.obj 0x1150 2 0 = 0 then none else some (mapped (s.obj 0x1150 2 0)))
  else s.dict.lease.map (fun l => mapped l.1.toNat)

/-- The link-local IPv6 address formed from the MAC address. PRESUMED (log entry 16): the modified EUI-64 of RFC 4291. -/
def linkLocal : Nat :=
  let m := Config.macAddress.toNat
  0xFE80 * 2 ^ 112 + (bitsAt m 24 24 ^^^ 0x020000) * 2 ^ 40 + 0xFFFE * 2 ^ 24 + bitsAt m 0 24

/-- The static IPv6 address: byte 0 of the object is the first. -/
def State.ownV6 (s : State) : Option Nat :=
  let e := ofLength (s.obj 0x1150 5 1)
  if e.2 = 16 then some (prefixAddress e.1) else none

/-- An address of the device. -/
def State.ownAddress (s : State) (a : BitVec 128) : Bool :=
  s.ownV4 = some a.toNat || a.toNat = linkLocal || s.ownV6 = some a.toNat

/-- A frame leaves by the port. -/
def State.ethSend (s : State) (o : EthOut) : State := { s with dict := { s.dict with eth := s.dict.eth ++ [o] } }

/-- UDP_DATAGRAM (R451, R466). -/
def execUdpDatagram (a : BitVec 128) (port : BitVec 16) (n v : Nat) (s : State) : Host.Outcome State Fault Refusal :=
  if !s.ethOn then .next s
  else if n < 8 ∨ 1400 < n then .next (s.oapStat 6 1)
  else .next (s.oap (.udp a port) (.requester (.udp a port)) false (oapParse n (v % 2 ^ (8 * n)))).1

/-- ETHERNET_FRAME (R466). -/
def execEthernetFrame (f : EthFrame) (s : State) : Host.Outcome State Fault Refusal :=
  if !s.ethOn then .next s
  else
    match f with
    | .resolve a => .next (if s.ownAddress a then s.ethSend (.resolve a) else s)
    | .echo a n v => .next (if s.ownAddress a then s.ethSend (.echo a n (v % 2 ^ (8 * n))) else s)
    | .offer a => if s.obj 0x1150 1 1 = 1 then .next (s.ethSend (.dhcpRequest a)) else .next (s.oapStat 6 1)
    | .lease a l g =>
      if s.obj 0x1150 1 1 = 1 then .next { s with dict := { s.dict with lease := some (a, l % 33, g) } }
      else .next (s.oapStat 6 1)
    | .other => .next (s.oapStat 6 1)

end Sys2Proof.Machine
end

