-- ==== Sys2Proof/Machine/Response.lean ====
section
/-! DEFINITION. How requests end: responses (R255, R282, R283), synthesised timeouts (R279, R280), grants (R264, R277),
pulls (R265, R276), notes (R290); their issue (R262) and their service, the host region's included (R54, R263, R397, R398). -/

namespace Sys2Proof.Machine

/-! ### Accesses of the host to memory (R385, R400) -/

/-- The answer to an access of the host once all of its parts have ended (R385, R400): a CXL read that failed returns all
ones, a BAR4 read Unsupported Request; a write that failed is dropped; both are counted. -/
def State.hostAccessDone (s : State) (x : HostAccess) : State :=
  let s := { s with host := { s.host with accesses := s.host.accesses.filter (fun y => y.id ≠ x.id) } }
  let s := if x.failed then s.hostStat 4 else s
  if x.write then s
  else
    let ans : HostAnswer :=
      if x.failed then (if x.cxl then .data x.id (2 ^ (8 * x.n) - 1) false else .unsupported x.id)
      else .data x.id x.got (decide (x.poison ≠ 0))
    let h := s.host
    { s with host := { h with
        answers := h.answers ++ [ans]
        hostLines := if x.cxl ∧ !x.failed then h.hostLines.filter (· ≠ x.a / 64) ++ [x.a / 64] else h.hostLines } }

/-- A part of an access of the host ends. -/
def State.hostPartEnd (s : State) (id a : Nat) (st : Status) (v poison : Nat) : State :=
  match s.host.accesses.find? (fun x => x.id = id) with
  | none => s
  | some x =>
    let x := if st = .ok then { x with left := x.left - 1, got := x.got + v * 2 ^ (8 * (a - x.a)), poison := x.poison + poison }
      else { x with left := x.left - 1, failed := true }
    if x.left = 0 then s.hostAccessDone x
    else { s with host := { s.host with accesses := s.host.accesses.map (fun y => if y.id = id then x else y) } }

/-! ### The end of a request -/

/-- What a request was sent for takes its end. `lat` is the latency of R297. -/
def State.purposeEnd (s : State) (n : Nat) (p : Packet) (why : Purpose) (st : Status) (d : Loaded) (lat : Nat) : State :=
  match why, nodeKind n with
  | .piece seq q, some (.tile t) => if h : t < 4096 then pieceEnd ⟨t, h⟩ seq q st d s else s
  | .drainRow seq, some (.tile t) => if h : t < 4096 then drainRowEnd ⟨t, h⟩ seq st s else s
  | .copyRead q id off len issue, some (.copyEngine e) => copyReadEnd e q id off len issue st d lat s
  | .copyWrite q id len issue, some (.copyEngine e) => copyWriteEnd e q id len issue (poisonedWords p.address.toNat len p.poisoned) st s
  | .far lt, some (.newen k) => farEnd k lt st d.val d.poison s
  | .host id, _ => s.hostPartEnd id p.address.toNat st d.val d.poison
  | _, _ => s

/-- The bin of a latency (R297). -/
def latencyBin (l : Nat) : Nat :=
  if l < 64 then 0 else if l < 128 then 1 else if l < 256 then 2 else if l < 512 then 3 else if l < 1024 then 4
  else if l < 2048 then 5 else if l < 4096 then 6 else 7

/-- An outstanding request ends with a status (R262, R297): it leaves the outstanding requests, is counted, and its purpose
takes the end. -/
def State.endRequest (s : State) (n : Nat) (r : Req) (st : Status) (d : Loaded) : State :=
  let i := s.initiator n
  let s := s.setInitiator n { i with out := i.out.filter (fun x => x.tag ≠ r.tag) }
  let read := decide (r.pkt.cmd.toNat = cmdRead)
  let lat := s.calends - r.start
  let s := if st = .timeout ∨ st = .targetIsolated then s
    else s.netCount n ((if read then 0 else 8) + latencyBin lat) 1
  let s := if st = .ok then s.netCount n (if read then 28 else 29) r.pkt.bytes.toNat else s
  let s := if st = .targetIsolated then s.nodeEvent n 0x08 r.pkt.dest.toNat else s
  s.purposeEnd n r.pkt r.purpose st d lat

/-- A held slot is released (R282). -/
def State.release (s : State) (n target tag : Nat) : State :=
  let i := s.initiator n
  s.setInitiator n { i with held := i.held.erase (target, tag) }

/-- A response whose tag is not outstanding (R282, R283): late where the slot is held, else stray. -/
def State.unmatched (s : State) (n target tag : Nat) : State :=
  if (s.initiator n).held.contains (target, tag) then (s.netCount n 25 1).release n target tag
  else s.netCount n 26 1

/-- The outstanding request that a response with this source and tag ends. -/
def State.outstanding (s : State) (n target tag : Nat) : Option Req :=
  (s.initiator n).out.find? (fun r => r.tag = tag && r.pkt.dest.toNat = target)

/-- A response arrives (R255, R282, R283, R286, R289). -/
def State.response (s : State) (p : Packet) : State :=
  s.arriveChecked p (fun s =>
    let s := s.countReceived p
    let n := p.dest.toNat
    match s.outstanding n p.src.toNat p.tag.toNat with
    | some r =>
      if r.sent ∧ (decide (p.cmd.toNat = cmdReadResp) = decide (r.pkt.cmd.toNat = cmdRead)) then
        let st := (Status.ofCode p.status.toNat).getD .illegalEncoding
        s.endRequest n r st ⟨p.payload, Packet.damage p⟩
      else s.unmatched n p.src.toNat p.tag.toNat
    | none => s.unmatched n p.src.toNat p.tag.toNat)

/-- READ_RESP. -/
def execReadResp (p : Packet) (s : State) : Host.Outcome State Fault Refusal :=
  .next (s.response (Packet.arriving p cmdReadResp))

/-- WRITE_ACK. -/
def execWriteAck (p : Packet) (s : State) : Host.Outcome State Fault Refusal :=
  .next (s.response (Packet.arriving p cmdWriteAck))

/-- The timer of a request reaches its limit (R280): the tag and the reply room are free, the slot is held. -/
def State.timeOut (s : State) (n : Nat) (r : Req) : State :=
  let i := s.initiator n
  let s := s.setInitiator n { i with held := i.held ++ [(r.pkt.dest.toNat, r.tag)] }
  let s := (s.netCount n 24 1).nodeEvent n 0x06 r.pkt.dest.toNat
  s.endRequest n r .timeout ⟨0, 0⟩

/-- TAG_TIMEOUT (R279, R280). -/
def execTagTimeout (n : NodeId) (tag : BitVec 12) (target : NodeId) (s : State) : Host.Outcome State Fault Refusal :=
  if (nodeKind n.toNat).isNone then .fault .noSuchUnit
  else
    match s.outstanding n.toNat target.toNat tag.toNat with
    | some r => .next (s.timeOut n.toNat r)
    | none => .next s

/-- A grant that is not used goes back to its tile, with the fields it came with (R277, R358). -/
def State.returnSlot (s : State) (p : Packet) : State :=
  s.sendControl cmdSlotReturn p.dest.toNat p.src.toNat p.tag.toNat p.address.toNat (packetWho p) 0 0

/-- SLOT_GRANT (R264, R277, R289). -/
def execSlotGrant (p : Packet) (s : State) : Host.Outcome State Fault Refusal :=
  let p := Packet.arriving p cmdSlotGrant
  .next (s.arriveChecked p (fun s =>
    let n := p.dest.toNat
    let t := p.src.toNat
    match s.outstanding n t p.tag.toNat with
    | some r =>
      if r.sent then s.returnSlot p
      else if p.status ≠ 0 then s.endRequest n r ((Status.ofCode p.status.toNat).getD .targetIsolated) ⟨0, 0⟩
      else
        let i := s.initiator n
        let s := s.setInitiator n { i with out := i.out.map (fun x => if x.tag = r.tag then { x with sent := true } else x) }
        s.sendPacket (if r.pkt.cmd.toNat = cmdWritePull then { r.pkt with payload := 0, poisoned := 0, poison := false } else r.pkt)
    | none =>
      let s := (s.netCount n 25 1).release n t p.tag.toNat
      if p.status = 0 then s.returnSlot p else s))

/-- The bytes an initiator sends for a pulled write (R265): as they stand now. -/
def State.pulledData (s : State) (n : Nat) (r : Req) : Loaded × State :=
  match r.purpose, nodeKind n with
  | .piece seq q, some (.tile t) =>
    if h : t < 4096 then
      match (s.tile ⟨t, h⟩).xfers.find? (fun x => x.seq = seq) with
      | some tr => s.putBytes ⟨t, h⟩ tr q
      | none => (⟨0, 0⟩, s)
    else (⟨0, 0⟩, s)
  | .far lt, some (.newen k) => (⟨r.pkt.payload, r.pkt.poisoned⟩, s.farPulled k lt)
  | _, _ => (⟨r.pkt.payload, r.pkt.poisoned⟩, s)

/-- PULL (R265, R276). -/
def execPull (p : Packet) (s : State) : Host.Outcome State Fault Refusal :=
  let p := Packet.arriving p cmdPull
  .next (s.arriveChecked p (fun s =>
    let n := p.dest.toNat
    let t := p.src.toNat
    let answer := fun (s : State) (st : Status) (v poison : Nat) =>
      s.sendPacket { mkPacket cmdPullData n t p.tag.toNat p.address.toNat p.bytes.toNat p.conv.toNat p.vi.toNat p.part.toNat
        p.priority.toNat (Status.code st) v poison with ext := p.ext }
    match s.outstanding n t p.tag.toNat with
    | some r =>
      if r.sent ∧ r.pkt.cmd.toNat = cmdWritePull then
        let (d, s) := s.pulledData n r
        answer s .ok d.val d.poison
      else s.netCount n 26 1
    | none =>
      if (s.initiator n).held.contains (t, p.tag.toNat) then answer s .timeout 0 0 else s.netCount n 26 1))

/-- ISOLATE_NOTE (R283, R290). -/
def execIsolateNote (p : Packet) (s : State) : Host.Outcome State Fault Refusal :=
  let p := Packet.arriving p cmdIsolateNote
  .next (s.arriveChecked p (fun s =>
    let n := p.dest.toNat
    let t := p.src.toNat
    match s.outstanding n t p.tag.toNat with
    | some r => s.endRequest n r .targetIsolated ⟨0, 0⟩
    | none =>
      if (s.initiator n).held.contains (t, p.tag.toNat) then s.release n t p.tag.toNat else s.netCount n 26 1))

/-! ### Issue (R262) -/

/-- The first waiting request of an initiator that can leave, in order; one that ends at issue takes its end (R600). -/
def State.issueWaiting (s : State) (n : Nat) : List (Packet × Purpose) → State
  | [] => s
  | (p, why) :: rest =>
    let drop := fun (s : State) =>
      let i := s.initiator n
      s.setInitiator n { i with waiting := i.waiting.erase (p, why) }
    match s.issueRequest n p why with
    | .waits => s.issueWaiting n rest
    | .sent s => drop s
    | .ended s st => (drop s).purposeEnd n p why st ⟨0, 0⟩ 0

/-- REQUEST_ISSUE (R262, R264, R296, R600): the next request of an initiator that has its slot and its reply room. -/
def execRequestIssue (n : NodeId) (s : State) : Host.Outcome State Fault Refusal :=
  match nodeKind n.toNat with
  | none => .fault .noSuchUnit
  | some (.tile t) => if h : t < 4096 then execTransferPieceIssue ⟨t, h⟩ s else .next s
  | some (.copyEngine e) => if h : e < 16 then execCopyRequestIssue ⟨e, h⟩ false s else .next s
  | some _ => .next (s.issueWaiting n.toNat (s.initiator n.toNat).waiting)

/-! ### The host region (R54, R397, R398) -/

/-- The device uses `k` tags toward the host. -/
def State.takeTags (s : State) (k : Nat) : State := { s with host := { s.host with nextTag := (s.host.nextTag + k) % 1024 } }

/-- Tag `i` from the next one on. -/
def HostPort.tagAt (h : HostPort) (i : Nat) : Nat := (h.nextTag + i) % 1024

/-- A request of the device to the host region is taken up (R33, R54, R397, R398): it ends LINK_DOWN while the link is down,
although the loss of the link has cleared Bus Master Enable as well (DEDUCED, log entry 91); refused without Bus Master Enable; translated
first under ATS; a write goes as posted writes, a read as reads that answer later. -/
def State.hostService (s : State) (e : IntakeEntry) : State :=
  let vi := e.pkt.vi.toNat
  let a := e.pkt.address.toNat - hostBase
  let n := e.pkt.bytes.toNat
  let x := s.vi vi
  let busy := fun (s : State) (e' : IntakeEntry) =>
    let t := s.target pcieNode
    s.setTarget pcieNode { t with intake := t.intake.erase e ++ [{ e' with phase := .inService }], stallSince := some s.calends }
  if s.host.linkState ≠ 2 then (s.hostStat 3).finishEntry pcieNode e .linkDown 0 0
  else if !x.busMaster then (s.hostStat 3).finishEntry pcieNode e .targetIsolated 0 0
  else
    match s.translated vi a with
    | none =>
      if s.host.reqs.any (fun r => r.xlate && r.vi = vi && r.a / 4096 = a / 4096) ∨ 1024 ≤ s.host.reqs.length then s
      else
        let tag := s.host.tagAt 0
        let s := (s.takeTags 1).toHost (.translate vi (a / 4096 * 4096) tag)
        { s with host := { s.host with
            reqs := s.host.reqs ++ [⟨tag, e.pkt.src.toNat, e.pkt.tag.toNat, 0, 0, vi, a, true, s.calends⟩] } }
    | some b =>
      if e.pkt.cmd.toNat = cmdRead then
        let ps := hostParts (max x.maxRead 128) (n + 1) b n
        if 1024 < s.host.reqs.length + ps.length then s
        else
          let h := s.host
          let rs := ps.mapIdx (fun i (q : Nat × Nat) =>
            (⟨h.tagAt i, e.pkt.src.toNat, e.pkt.tag.toNat, q.1 - b, q.2, vi, a + (q.1 - b), false, s.calends⟩ : HostReq))
          let s := s.hostRead vi b n
          let s := { s with host := { s.host with reqs := s.host.reqs ++ rs } }
          busy s { e with pkt := { e.pkt with payload := 0, poisoned := 0, status := 0 } }
      else
        (s.hostWrite vi b n e.pkt.payload e.pkt.poisoned).finishEntry pcieNode e .ok 0 e.pkt.poisoned

/-- INTAKE_SERVICE (R263, R601, R397): a free service unit of a target takes the next entry in service order. -/
def execIntakeService (n : NodeId) (s : State) : Host.Outcome State Fault Refusal :=
  match nodeKind n.toNat with
  | none => .fault .noSuchUnit
  | some _ =>
    match firstEntry (s.servable n.toNat) (s.target n.toNat).intake with
    | none => .next s
    | some e => if n.toNat = pcieNode ∧ e.toHost then .next (s.hostService e) else .next (s.serve n.toNat e)

/-- Invalidations whose requests have all completed are answered (R398). -/
def State.answerInvalidations (s : State) : State :=
  let h := s.host
  let open_ := fun (i : AtsInvalidation) => i.waits.any (fun t => h.reqs.any (fun r => r.tag = t))
  let done := h.invalidations.filter (fun i => !(open_ i))
  { s with host := { h with invalidations := h.invalidations.filter open_
                            answers := h.answers ++ done.map (fun i => .invalidated i.vi i.a i.n) } }

/-- One part of a host read has ended: its data joins the entry, and the last part answers it (R397). -/
def State.hostPart (s : State) (r : HostReq) (h : HostData) : State :=
  match (s.target pcieNode).intake.find? (fun e => e.pkt.src.toNat = r.src && e.pkt.tag.toNat = r.rtag && e.phase = .inService) with
  | none => s
  | some e =>
    let st := hostStatus h.outcome
    let p := e.pkt
    let good := st = .ok
    let p := { p with
      payload := if good then p.payload + h.data % 2 ^ (8 * r.len) * 2 ^ (8 * r.off) else p.payload
      poisoned := if h.outcome = .poisoned then p.poisoned + (2 ^ r.len - 1) * 2 ^ r.off else p.poisoned
      status := if good ∨ p.status ≠ 0 then p.status else BitVec.ofNat 8 (Status.code st) }
    let e' := { e with pkt := p }
    let t := s.target pcieNode
    let s := (s.setTarget pcieNode (t.updEntry e e'))
    let s := if good then s else s.hostStat 3
    if s.host.reqs.any (fun q => q.src = r.src && q.rtag = r.rtag && !q.xlate) then s
    else s.finishEntry pcieNode e' ((Status.ofCode p.status.toNat).getD .ok) p.payload p.poisoned

/-- HOST_COMPLETION (R397, R398): the host ends a request of the device; for a translation, `data` is the translated page
address, and a refusal completes OUT_OF_RANGE every request that waits for it. -/
def execHostCompletion (tag : Nat) (h : HostData) (s : State) : Host.Outcome State Fault Refusal :=
  match s.host.reqs.find? (fun r => r.tag = tag) with
  | none => .next s
  | some r =>
    let s := { s with host := { s.host with reqs := s.host.reqs.erase r } }
    let s :=
      if r.xlate then
        if h.outcome = .ok then
          let l := s.host.atc ++ [(r.vi, r.a / 4096, h.data / 4096)]
          { s with host := { s.host with atc := l.drop (l.length - 4096) } }
        else
          let mine := (s.target pcieNode).intake.filter (fun e =>
            e.toHost && e.ready && e.pkt.vi.toNat = r.vi && (e.pkt.address.toNat - hostBase) / 4096 = r.a / 4096)
          mine.foldl (fun (s : State) e => (s.hostStat 3).finishEntry pcieNode e .outOfRange 0 0) s
      else s.hostPart r h
    .next s.answerInvalidations

/-! ### The forced end of a VI reset (R367, step 6) -/

/-- The outstanding requests of VI `v`, Shelf page moves left out (R367). -/
def State.viOutstanding (s : State) (v : Nat) : List (Nat × Req) :=
  s.net.initiators.flatMap (fun i => (i.2.out.filter (fun r =>
    r.pkt.vi.toNat = v && !(privileged r.pkt.src.toNat r.pkt.tag.toNat && decide (0x2010 ≤ i.1)))).map (fun r => (i.1, r)))

/-- VI_RESET_FORCE (R367, step 6): at 20 µs every remaining tag of the VI is forced to TIMEOUT, and the reset completes. -/
def execViResetForce (v : ViId) (s : State) : Host.Outcome State Fault Refusal :=
  if (s.vi v.val).resetting.isNone then .next s
  else
    let s := (s.viOutstanding v.val).foldl (fun s r => s.timeOut r.1 r.2) s
    .next (s.endViReset v.val)

end Sys2Proof.Machine
end

