-- ==== Sys2Proof/Machine/HostRest.lean ====
section
/-! DEFINITION. What the host does to the port itself: configuration requests (R364, R402), link training (R554), function
and link resets (R402), ATS invalidations (R398), and its accesses to memory (R385, R399, R400). -/

namespace Sys2Proof.Machine

/-! ### Resets (R402) -/

/-- VF_FLR (R402). -/
def execVfFlr (v : ViId) (s : State) : Host.Outcome State Fault Refusal :=
  if v.val ≠ 0 ∧ s.viState v.val ≠ 0 then .next (s.resetFunction v.val) else .next s

/-- PF_FLR (R402). -/
def execPfFlr (s : State) : Host.Outcome State Fault Refusal := .next s.resetAllVis

/-- HOT_RESET (R402): after a hot reset or loss of the data link the link trains anew; a disabled link is down. -/
def execHotReset (cause : LinkLoss) (s : State) : Host.Outcome State Fault Refusal :=
  if s.host.linkState = 2 then .next (s.portReset (if cause = .disable then 0 else 1)) else .next s

/-- D3HOT_EXIT (R402). -/
def execD3hotExit (s : State) : Host.Outcome State Fault Refusal :=
  if (s.vi 0).d3hot then .next (s.resetFunction 0) else .next s

/-! ### Link and configuration (R364, R381, R384, R554) -/

/-- PCIE_LINK_UP (R384, R405, R552, R554): the link has trained, also one that the host had disabled. CXL is not offered in X8X8 mode (R383). -/
def execPcieLinkUp (speed : Fin 7) (width : Nat) (flit : Bool) (cxl : Fin 4) (s : State) : Host.Outcome State Fault Refusal :=
  let s := s.trainPcie
  let x := s.power
  if s.host.linkState = 1 ∧ speed.val ≠ 0 then
    let ready := s.host.ready || decide (0xB < x.stage) || (x.bootSel = 1 && x.stage = 4)
    .next { s with host := { s.host with
      linkState := 2, linkSpeed := speed.val, linkWidth := if s.host.bifurcation = 1 then min width 8 else min width 16
      flit := flit, cxl := if s.host.bifurcation = 1 then 0 else cxl.val, ready := ready } }
  else .next s

/-- NumVFs and VF Enable of a link are written: functions that come to be enabled appear, and those that are no longer
enabled are reset, and DISABLED from then on (R364). -/
def State.writeSriov (s : State) (link n : Nat) (enable : Bool) : State :=
  let g := if link = 0 then s.host.sriov else s.host.sriov1
  let g := (if g.2 && enable then g.1 else min n 63, enable)
  let s := { s with host := if link = 0 then { s.host with sriov := g } else { s.host with sriov1 := g } }
  (List.range 64).foldl (fun s v =>
    let x := s.vi v
    if v = 0 ∨ s.linkOf v ≠ link ∨ x.vf = s.vfOn v then s
    else if x.vf then s.resetFunction v
    else s.setVi v { x with vf := true }) s

/-- A size that a configuration register can hold: a power of two from `lo` to `hi`. -/
def powerIn (lo hi n : Nat) : Bool := decide (lo ≤ n ∧ n ≤ hi) && (List.range 13).any (fun k => n = 2 ^ k)

/-- A configuration request takes effect at a function that is there. -/
def State.configure (s : State) (req : ConfigRequest) : State :=
  let of := fun (v : Nat) (f : Vi → Vi) => if s.viState v = 0 then s else s.setVi v (f (s.vi v))
  match req with
  | .sriov link n on => if link.val = 1 ∧ s.host.bifurcation = 0 then s else s.withTest (fun s => s.writeSriov link.val n on)
  | .busMaster v on => of v.val (fun x => { x with busMaster := on })
  | .msix v on mask => (of v.val (fun x => { x with msixEnable := on, functionMask := mask })).sendPending v.val
  | .deviceControl v p r =>
    if powerIn 128 512 p ∧ powerIn 128 4096 r then of v.val (fun x => { x with maxPayload := p, maxRead := r }) else s
  | .ats v on => of v.val (fun x => { x with ats := on })
  | .d3hot => of 0 (fun x => { x with d3hot := true })
  | .hdmCommit on => if s.host.cxl = 0 then s else { s with host := { s.host with hdmCommitted := on } }
  | .bar4Size n => if powerIn 1 64 n then { s with host := { s.host with bar4 := n } } else s
  | .other => s

/-- CONFIGURATION_REQUEST (R364, R401, R554): Request Retry Status until readiness. -/
def execConfigurationRequest (req : ConfigRequest) (s : State) : Host.Outcome State Fault Refusal :=
  if s.host.linkState ≠ 2 then .next s
  else if s.host.ready then .next (s.configure req) else .next (s.answerHost .retry)

/-! ### Address translation (R398) -/

/-- ATS_INVALIDATION (R398): the range leaves the cache; the answer waits for the requests that use it. A request that is
not issued yet is translated again (R406). -/
def execAtsInvalidation (v : ViId) (a n : Nat) (s : State) : Host.Outcome State Fault Refusal :=
  if !(s.vi v.val).ats then .next s
  else
    let h := s.host
    let used := h.reqs.filter (fun r : HostReq => r.vi = v.val && decide (r.a < a + n) && decide (a < r.a + max r.len 1))
    let atc := h.atc.filter (fun t : Nat × Nat × Nat =>
      !(decide (t.1 = v.val ∧ t.2.1 * 4096 < a + n ∧ a < (t.2.1 + 1) * 4096)))
    let i : AtsInvalidation := { vi := v.val, a := a, n := n, waits := used.map (fun r => r.tag) }
    .next ({ s with host := { h with atc := atc, invalidations := h.invalidations ++ [i] } }).answerInvalidations

/-! ### Accesses to memory (R385, R399, R400) -/

/-- An access of the host becomes requests of the port, at priority 2 (R262, R267, R400). -/
def State.hostAccess (s : State) (cxl write : Bool) (part a n v : Nat) : State :=
  let v := v % 2 ^ (8 * n)
  let id := s.serial + 1
  let ps := pieces2k (n / 2048 + 2) a n
  let x : HostAccess := { id := id, cxl := cxl, write := write, a := a, n := n, data := v, left := ps.length }
  let ask := ps.map (fun (q : Nat × Nat) =>
    let cmd := if write then (if q.2 ≤ 32 then cmdWrite else cmdWritePull) else cmdRead
    let data := if write then bitsAt v (8 * (q.1 - a)) (8 * q.2) else 0
    (mkPacket cmd pcieNode 0 0 q.1 q.2 0 0 part 2 0 data 0, Purpose.host id))
  let i := s.initiator pcieNode
  { s.setInitiator pcieNode { i with waiting := i.waiting ++ ask } with
    serial := id, host := { s.host with accesses := s.host.accesses ++ [x] } }

/-- An access of the host that fails at once (R385, R400). -/
def State.hostAccessFails (s : State) (cxl write : Bool) (a n : Nat) : State :=
  let x : HostAccess := { id := s.serial + 1, cxl := cxl, write := write, a := a, n := n, data := 0, left := 0, failed := true }
  ({ s with serial := s.serial + 1 }).hostAccessDone x

/-- CXL_MEM_REQUEST (R384, R385): a request for the 64-byte line of an address. -/
def execCxlMemRequest (write : Bool) (a : BitVec 48) (data : Nat) (s : State) : Host.Outcome State Fault Refusal :=
  let line := a.toNat / 64 * 64
  let p := s.obj 0x6000 10 255
  if s.host.cxl = 0 ∨ s.host.linkState ≠ 2 then .next s
  else if 8 ≤ p ∨ hbmBytes s < line + 64 then .next (s.hostAccessFails true write line 64)
  else .next (s.hostAccess true write p line 64 data)

/-- CXL_SNOOP (R399): the device holds no host line. -/
def execCxlSnoop (a : BitVec 48) (s : State) : Host.Outcome State Fault Refusal :=
  if s.host.cxl = 0 ∨ s.host.linkState ≠ 2 then .next s else .next (s.answerHost (.snoopMiss a.toNat))

/-- BAR4_ACCESS (R382, R400). -/
def execBar4Access (write : Bool) (off n data : Nat) (s : State) : Host.Outcome State Fault Refusal :=
  let a := s.obj 0x6000 8 0 + off
  if s.host.linkState ≠ 2 ∨ n = 0 ∨ 4096 < n ∨ s.host.bar4 * 2 ^ 30 < off + n then .next s
  else
    match s.viPart 0 with
    | none => .next (s.hostAccessFails false write a n)
    | some p =>
      if hbmBytes s < a + n then .next (s.hostAccessFails false write a n)
      else .next (s.hostAccess false write p a n data)

/-- BACK_INVALIDATE_RESPONSE (R385): the host no longer holds the line, and the device writes it held back take effect. -/
def execBackInvalidateResponse (a : BitVec 48) (s : State) : Host.Outcome State Fault Refusal :=
  let line := a.toNat / 64
  if s.host.snoops.contains line then
    let s := { s with host := { s.host with
      snoops := s.host.snoops.filter (fun k => k ≠ line), hostLines := s.host.hostLines.filter (fun k => k ≠ line) } }
    let p := (hbmTarget (64 * line)).1
    let held := (s.inService p).filter (fun e =>
      decide (e.pkt.cmd.toNat ≠ cmdRead ∧ e.pkt.src.toNat ≠ pcieNode)
        && (linesOf e.pkt.address.toNat e.pkt.bytes.toNat).contains line)
    .next (held.foldl (fun s e => s.hbmComplete p e 0) s)
  else .next s

end Sys2Proof.Machine
end

