-- ==== Sys2Proof/Machine/Scalar.lean ====
section
/-! DEFINITION. The scalar instructions of a tile: MOVI, MOVHI and the two-operand operations (R157, R163). -/

namespace Sys2Proof.Machine

/-- MOVI (R157). -/
def execMovi (t : TileId) (f : FmtI) (s : State) : Host.Outcome State Fault Refusal :=
  .next (issue t s (f.r = 0) false [] (fun x => .done (s.setTile t (x.setG f.d ⟨f.imm.signExtend 64, false⟩))))

/-- MOVHI (R157): the other bits, and their poison, are kept. -/
def execMovhi (t : TileId) (f : FmtI) (s : State) : Host.Outcome State Fault Refusal :=
  .next (issue t s (f.r = 0 && f.imm.toNat < 2 ^ 16) false [] (fun x =>
    let g := x.greg f.d
    .done (s.setTile t (x.setG f.d ⟨f.imm.setWidth 16 ++ g.val.setWidth 48, g.poison⟩))))

/-- A scalar operation: Gd becomes `op Ga B`, poisoned when an operand is (R163, R165). -/
def scalarOp (op : BitVec 64 → BitVec 64 → BitVec 64) (t : TileId) (f : FmtR) (s : State) : State :=
  issue t s (legalScalar f) false [] (fun x =>
    let a := x.greg f.a
    let b := x.scalarB f
    .done (s.setTile t (x.setG f.d ⟨op a.val b.val, a.poison || b.poison⟩)))

/-- SHL and SHR give 0 for an amount of 64 or more, SRA the sign fill (R163). -/
def shl64 (a b : BitVec 64) : BitVec 64 := if 64 ≤ b.toNat then 0 else a <<< b.toNat
def shr64 (a b : BitVec 64) : BitVec 64 := if 64 ≤ b.toNat then 0 else a >>> b.toNat
def sra64 (a b : BitVec 64) : BitVec 64 := a.sshiftRight (min b.toNat 63)

/-- ADD (R163). -/
def execAdd (t : TileId) (f : FmtR) (s : State) : Host.Outcome State Fault Refusal :=
  .next (scalarOp (fun a b => a + b) t f s)
/-- SUB (R163). -/
def execSub (t : TileId) (f : FmtR) (s : State) : Host.Outcome State Fault Refusal :=
  .next (scalarOp (fun a b => a - b) t f s)
/-- MUL (R163). -/
def execMul (t : TileId) (f : FmtR) (s : State) : Host.Outcome State Fault Refusal :=
  .next (scalarOp (fun a b => a * b) t f s)
/-- AND (R163). -/
def execAnd (t : TileId) (f : FmtR) (s : State) : Host.Outcome State Fault Refusal :=
  .next (scalarOp (fun a b => a &&& b) t f s)
/-- OR (R163). -/
def execOr (t : TileId) (f : FmtR) (s : State) : Host.Outcome State Fault Refusal :=
  .next (scalarOp (fun a b => a ||| b) t f s)
/-- XOR (R163). -/
def execXor (t : TileId) (f : FmtR) (s : State) : Host.Outcome State Fault Refusal :=
  .next (scalarOp (fun a b => a ^^^ b) t f s)
/-- SHL (R163). -/
def execShl (t : TileId) (f : FmtR) (s : State) : Host.Outcome State Fault Refusal :=
  .next (scalarOp shl64 t f s)
/-- SHR (R163). -/
def execShr (t : TileId) (f : FmtR) (s : State) : Host.Outcome State Fault Refusal :=
  .next (scalarOp shr64 t f s)
/-- SRA (R163). -/
def execSra (t : TileId) (f : FmtR) (s : State) : Host.Outcome State Fault Refusal :=
  .next (scalarOp sra64 t f s)
/-- MIN, signed (R163). -/
def execMin (t : TileId) (f : FmtR) (s : State) : Host.Outcome State Fault Refusal :=
  .next (scalarOp (fun a b => if a.slt b then a else b) t f s)
/-- MAX, signed (R163). -/
def execMax (t : TileId) (f : FmtR) (s : State) : Host.Outcome State Fault Refusal :=
  .next (scalarOp (fun a b => if a.slt b then b else a) t f s)
/-- MINU (R163). -/
def execMinu (t : TileId) (f : FmtR) (s : State) : Host.Outcome State Fault Refusal :=
  .next (scalarOp (fun a b => if a.ult b then a else b) t f s)
/-- MAXU (R163). -/
def execMaxu (t : TileId) (f : FmtR) (s : State) : Host.Outcome State Fault Refusal :=
  .next (scalarOp (fun a b => if a.ult b then b else a) t f s)

end Sys2Proof.Machine
end

