-- ==== Sys2Proof/Machine/Dispatch.lean ====
section
/-! DEFINITION. The meaning of every command: one arm per constructor of `Instr`. -/

namespace Sys2Proof.Machine

def exec (i : Instr) (s : State) : Host.Outcome State Fault Refusal :=
  match i with
  | .nop t f => Sys2Proof.Machine.execNop t f s
  | .endTask t f => Sys2Proof.Machine.execEndTask t f s
  | .jmp t f => Sys2Proof.Machine.execJmp t f s
  | .br t f => Sys2Proof.Machine.execBr t f s
  | .loop t f => Sys2Proof.Machine.execLoop t f s
  | .wait t f => Sys2Proof.Machine.execWait t f s
  | .tinc t f => Sys2Proof.Machine.execTinc t f s
  | .twait t f => Sys2Proof.Machine.execTwait t f s
  | .movi t f => Sys2Proof.Machine.execMovi t f s
  | .movhi t f => Sys2Proof.Machine.execMovhi t f s
  | .add t f => Sys2Proof.Machine.execAdd t f s
  | .sub t f => Sys2Proof.Machine.execSub t f s
  | .mul t f => Sys2Proof.Machine.execMul t f s
  | .and t f => Sys2Proof.Machine.execAnd t f s
  | .or t f => Sys2Proof.Machine.execOr t f s
  | .xor t f => Sys2Proof.Machine.execXor t f s
  | .shl t f => Sys2Proof.Machine.execShl t f s
  | .shr t f => Sys2Proof.Machine.execShr t f s
  | .sra t f => Sys2Proof.Machine.execSra t f s
  | .min t f => Sys2Proof.Machine.execMin t f s
  | .max t f => Sys2Proof.Machine.execMax t f s
  | .minu t f => Sys2Proof.Machine.execMinu t f s
  | .maxu t f => Sys2Proof.Machine.execMaxu t f s
  | .ld t f => Sys2Proof.Machine.execLd t f s
  | .st t f => Sys2Proof.Machine.execSt t f s
  | .vld t f => Sys2Proof.Machine.execVld t f s
  | .vst t f => Sys2Proof.Machine.execVst t f s
  | .get t f => Sys2Proof.Machine.execGet t f s
  | .put t f => Sys2Proof.Machine.execPut t f s
  | .xfer t f => Sys2Proof.Machine.execXfer t f s
  | .mma t f => Sys2Proof.Machine.execMma t f s
  | .drain t f => Sys2Proof.Machine.execDrain t f s
  | .vadd t f => Sys2Proof.Machine.execVadd t f s
  | .vsub t f => Sys2Proof.Machine.execVsub t f s
  | .vmul t f => Sys2Proof.Machine.execVmul t f s
  | .vfma t f => Sys2Proof.Machine.execVfma t f s
  | .vmax t f => Sys2Proof.Machine.execVmax t f s
  | .vmin t f => Sys2Proof.Machine.execVmin t f s
  | .vexp2 t f => Sys2Proof.Machine.execVexp2 t f s
  | .vrcp t f => Sys2Proof.Machine.execVrcp t f s
  | .vrsqrt t f => Sys2Proof.Machine.execVrsqrt t f s
  | .viadd t f => Sys2Proof.Machine.execViadd t f s
  | .visub t f => Sys2Proof.Machine.execVisub t f s
  | .vimul t f => Sys2Proof.Machine.execVimul t f s
  | .vand t f => Sys2Proof.Machine.execVand t f s
  | .vor t f => Sys2Proof.Machine.execVor t f s
  | .vxor t f => Sys2Proof.Machine.execVxor t f s
  | .vshl t f => Sys2Proof.Machine.execVshl t f s
  | .vshr t f => Sys2Proof.Machine.execVshr t f s
  | .vsra t f => Sys2Proof.Machine.execVsra t f s
  | .vcmp t f => Sys2Proof.Machine.execVcmp t f s
  | .vsel t f => Sys2Proof.Machine.execVsel t f s
  | .vbcg t f => Sys2Proof.Machine.execVbcg t f s
  | .vget t f => Sys2Proof.Machine.execVget t f s
  | .vperm t f => Sys2Proof.Machine.execVperm t f s
  | .vred t f => Sys2Proof.Machine.execVred t f s
  | .vcvt t f => Sys2Proof.Machine.execVcvt t f s
  | .mop t f => Sys2Proof.Machine.execMop t f s
  | .vtkf t f => Sys2Proof.Machine.execVtkf t f s
  | .vtkm t f => Sys2Proof.Machine.execVtkm t f s
  | .srkey t f => Sys2Proof.Machine.execSrkey t f s
  | .srq t f => Sys2Proof.Machine.execSrq t f s
  | .sradd t f => Sys2Proof.Machine.execSradd t f s
  | .srdq t f => Sys2Proof.Machine.execSrdq t f s
  | .lace t f => Sys2Proof.Machine.execLace t f s
  | .dgst t f => Sys2Proof.Machine.execDgst t f s
  | .evt t f => Sys2Proof.Machine.execEvt t f s
  | .mmaStart t => Sys2Proof.Machine.execMmaStart t s
  | .mmaEnd t => Sys2Proof.Machine.execMmaEnd t s
  | .drainStart t => Sys2Proof.Machine.execDrainStart t s
  | .drainRowWrite t => Sys2Proof.Machine.execDrainRowWrite t s
  | .drainComplete t => Sys2Proof.Machine.execDrainComplete t s
  | .transferPieceIssue t => Sys2Proof.Machine.execTransferPieceIssue t s
  | .transferFaultReport t => Sys2Proof.Machine.execTransferFaultReport t s
  | .insnFault t => Sys2Proof.Machine.execInsnFault t s
  | .programBeat t bad => Sys2Proof.Machine.execProgramBeat t bad s
  | .laceKeyArrival t x => Sys2Proof.Machine.execLaceKeyArrival t x s
  | .laceResult t x => Sys2Proof.Machine.execLaceResult t x s
  | .taskFetch c q host => Sys2Proof.Machine.execTaskFetch c q host s
  | .taskReady c q slot => Sys2Proof.Machine.execTaskReady c q slot s
  | .taskDispatch c host => Sys2Proof.Machine.execTaskDispatch c host s
  | .taskDone c q slot => Sys2Proof.Machine.execTaskDone c q slot s
  | .epochWaitTimeout c q slot => Sys2Proof.Machine.execEpochWaitTimeout c q slot s
  | .dutySlot => Sys2Proof.Machine.execDutySlot s
  | .commitApply c => Sys2Proof.Machine.execCommitApply c s
  | .tallySlotWrite pkt => Sys2Proof.Machine.execTallySlotWrite pkt s
  | .latchStart v r seq => Sys2Proof.Machine.execLatchStart v r seq s
  | .latchEnd v r seq => Sys2Proof.Machine.execLatchEnd v r seq s
  | .completionWrite v r seq => Sys2Proof.Machine.execCompletionWrite v r seq s
  | .eyeletCombine p ch eyelet upset => Sys2Proof.Machine.execEyeletCombine p ch eyelet upset s
  | .laceOpEnd p ch => Sys2Proof.Machine.execLaceOpEnd p ch s
  | .laceTimeout p ch => Sys2Proof.Machine.execLaceTimeout p ch s
  | .domainEndMessage p ch n => Sys2Proof.Machine.execDomainEndMessage p ch n s
  | .routerHop router errs alt => Sys2Proof.Machine.execRouterHop router errs alt s
  | .requestIssue n => Sys2Proof.Machine.execRequestIssue n s
  | .nocRead pkt => Sys2Proof.Machine.execNocRead pkt s
  | .nocWrite pkt => Sys2Proof.Machine.execNocWrite pkt s
  | .writePull pkt => Sys2Proof.Machine.execWritePull pkt s
  | .pull pkt => Sys2Proof.Machine.execPull pkt s
  | .pullData pkt => Sys2Proof.Machine.execPullData pkt s
  | .readResp pkt => Sys2Proof.Machine.execReadResp pkt s
  | .writeAck pkt => Sys2Proof.Machine.execWriteAck pkt s
  | .slotAsk pkt => Sys2Proof.Machine.execSlotAsk pkt s
  | .slotGrant pkt => Sys2Proof.Machine.execSlotGrant pkt s
  | .slotGrantSend t => Sys2Proof.Machine.execSlotGrantSend t s
  | .slotReturn pkt => Sys2Proof.Machine.execSlotReturn pkt s
  | .tallyAdd pkt => Sys2Proof.Machine.execTallyAdd pkt s
  | .tallyWatch pkt => Sys2Proof.Machine.execTallyWatch pkt s
  | .tallyMet pkt => Sys2Proof.Machine.execTallyMet pkt s
  | .wakeReq pkt => Sys2Proof.Machine.execWakeReq pkt s
  | .isolateNote pkt => Sys2Proof.Machine.execIsolateNote pkt s
  | .isolateNoteSend n => Sys2Proof.Machine.execIsolateNoteSend n s
  | .intakeService n => Sys2Proof.Machine.execIntakeService n s
  | .intakeAged n src tag => Sys2Proof.Machine.execIntakeAged n src tag s
  | .tagTimeout n tag target => Sys2Proof.Machine.execTagTimeout n tag target s
  | .timeoutReport n => Sys2Proof.Machine.execTimeoutReport n s
  | .deadStall n => Sys2Proof.Machine.execDeadStall n s
  | .controlStateError n => Sys2Proof.Machine.execControlStateError n s
  | .porchArrival d pkt => Sys2Proof.Machine.execPorchArrival d pkt s
  | .domainOn d => Sys2Proof.Machine.execDomainOn d s
  | .wakeFail d => Sys2Proof.Machine.execWakeFail d s
  | .routesRecomputed => Sys2Proof.Machine.execRoutesRecomputed s
  | .scrubWord n => Sys2Proof.Machine.execScrubWord n s
  | .eccWriteback a => Sys2Proof.Machine.execEccWriteback a s
  | .poisonMark a => Sys2Proof.Machine.execPoisonMark a s
  | .hbmEntryComplete p src tag ondie => Sys2Proof.Machine.execHbmEntryComplete p src tag ondie s
  | .hbmRefresh p => Sys2Proof.Machine.execHbmRefresh p s
  | .hbmRfm p bank => Sys2Proof.Machine.execHbmRfm p bank s
  | .hbmTempRead st celsius => Sys2Proof.Machine.execHbmTempRead st celsius s
  | .hbmPowerDown p => Sys2Proof.Machine.execHbmPowerDown p s
  | .hbmDeepSleepEntry g => Sys2Proof.Machine.execHbmDeepSleepEntry g s
  | .copyEnqueue => Sys2Proof.Machine.execCopyEnqueue s
  | .copyActivate e q => Sys2Proof.Machine.execCopyActivate e q s
  | .copyRequestIssue e w => Sys2Proof.Machine.execCopyRequestIssue e w s
  | .copyReport e q => Sys2Proof.Machine.execCopyReport e q s
  | .engineIsolationDrain e => Sys2Proof.Machine.execEngineIsolationDrain e s
  | .wake sid => Sys2Proof.Machine.execWake sid s
  | .pageMoveIssue => Sys2Proof.Machine.execPageMoveIssue s
  | .pageMoveComplete mv => Sys2Proof.Machine.execPageMoveComplete mv s
  | .frameZeroed p fr => Sys2Proof.Machine.execFrameZeroed p fr s
  | .idlePark sid => Sys2Proof.Machine.execIdlePark sid s
  | .clusterMapWrite r p v => Sys2Proof.Machine.execClusterMapWrite r p v s
  | .partitionReady x => Sys2Proof.Machine.execPartitionReady x s
  | .partReset p => Sys2Proof.Machine.execPartReset p s
  | .fenceWrite r p word v => Sys2Proof.Machine.execFenceWrite r p word v s
  | .fenceZeroingDone p => Sys2Proof.Machine.execFenceZeroingDone p s
  | .viReset v => Sys2Proof.Machine.execViReset v s
  | .viTileScrub v => Sys2Proof.Machine.execViTileScrub v s
  | .viResetComplete v => Sys2Proof.Machine.execViResetComplete v s
  | .viResetForce v => Sys2Proof.Machine.execViResetForce v s
  | .ringTail v r size val => Sys2Proof.Machine.execRingTail v r size val s
  | .cqHead v size val => Sys2Proof.Machine.execCqHead v size val s
  | .wakeDoorbell v size val => Sys2Proof.Machine.execWakeDoorbell v size val s
  | .entryFetch v r => Sys2Proof.Machine.execEntryFetch v r s
  | .entryArrival v r host => Sys2Proof.Machine.execEntryArrival v r host s
  | .hostNop v r seq => Sys2Proof.Machine.execHostNop v r seq s
  | .run v r seq => Sys2Proof.Machine.execRun v r seq s
  | .loadModel v r seq host => Sys2Proof.Machine.execLoadModel v r seq host s
  | .memCopy v r seq => Sys2Proof.Machine.execMemCopy v r seq s
  | .sessionWake v r seq => Sys2Proof.Machine.execSessionWake v r seq s
  | .sessionPark v r seq => Sys2Proof.Machine.execSessionPark v r seq s
  | .sessionClose v r seq => Sys2Proof.Machine.execSessionClose v r seq s
  | .fence v r seq => Sys2Proof.Machine.execFence v r seq s
  | .dict v r seq host => Sys2Proof.Machine.execDict v r seq host s
  | .digestRead v r seq => Sys2Proof.Machine.execDigestRead v r seq s
  | .ringEnable v r val => Sys2Proof.Machine.execRingEnable v r val s
  | .cqEnable v val => Sys2Proof.Machine.execCqEnable v val s
  | .regError v => Sys2Proof.Machine.execRegError v s
  | .fnEvents v val => Sys2Proof.Machine.execFnEvents v val s
  | .ringFault v r val => Sys2Proof.Machine.execRingFault v r val s
  | .registerWrite box off size val => Sys2Proof.Machine.execRegisterWrite box off size val s
  | .hostCompletion tag host => Sys2Proof.Machine.execHostCompletion tag host s
  | .perstN => Sys2Proof.Machine.execPerstN s
  | .vfFlr v => Sys2Proof.Machine.execVfFlr v s
  | .pfFlr => Sys2Proof.Machine.execPfFlr s
  | .hotReset cause => Sys2Proof.Machine.execHotReset cause s
  | .d3hotExit => Sys2Proof.Machine.execD3hotExit s
  | .atsInvalidation v a size => Sys2Proof.Machine.execAtsInvalidation v a size s
  | .cxlMemRequest write a data => Sys2Proof.Machine.execCxlMemRequest write a data s
  | .cxlSnoop a => Sys2Proof.Machine.execCxlSnoop a s
  | .bar4Access write off size data => Sys2Proof.Machine.execBar4Access write off size data s
  | .imageGo host => Sys2Proof.Machine.execImageGo host s
  | .codewordReceived n errs => Sys2Proof.Machine.execCodewordReceived n errs s
  | .alignmentCodeword n => Sys2Proof.Machine.execAlignmentCodeword n s
  | .frameSend n => Sys2Proof.Machine.execFrameSend n s
  | .dataFrame n fr => Sys2Proof.Machine.execDataFrame n fr s
  | .idleFrame n fr => Sys2Proof.Machine.execIdleFrame n fr s
  | .markFrame n fr => Sys2Proof.Machine.execMarkFrame n fr s
  | .nakFrame n fr => Sys2Proof.Machine.execNakFrame n fr s
  | .helloFrame n fr => Sys2Proof.Machine.execHelloFrame n fr s
  | .nakRepeat n => Sys2Proof.Machine.execNakRepeat n s
  | .replayTimeout n => Sys2Proof.Machine.execReplayTimeout n s
  | .markPeriod n => Sys2Proof.Machine.execMarkPeriod n s
  | .trainPhaseEnd n peerGen peerMin good2 good1 => Sys2Proof.Machine.execTrainPhaseEnd n peerGen peerMin good2 good1 s
  | .trainPhaseTimeout n => Sys2Proof.Machine.execTrainPhaseTimeout n s
  | .trainRetry n => Sys2Proof.Machine.execTrainRetry n s
  | .retrainTime n => Sys2Proof.Machine.execRetrainTime n s
  | .nearProxyForward n lt => Sys2Proof.Machine.execNearProxyForward n lt s
  | .portEnable r n v => Sys2Proof.Machine.execPortEnable r n v s
  | .oapRead r msg => Sys2Proof.Machine.execOapRead r msg s
  | .oapWrite r msg => Sys2Proof.Machine.execOapWrite r msg s
  | .readBlock r msg => Sys2Proof.Machine.execReadBlock r msg s
  | .writeBlock r msg => Sys2Proof.Machine.execWriteBlock r msg s
  | .blockContinuation r msg => Sys2Proof.Machine.execBlockContinuation r msg s
  | .blockSegmentTimeout r => Sys2Proof.Machine.execBlockSegmentTimeout r s
  | .commit r msg => Sys2Proof.Machine.execCommit r msg s
  | .commitTimeout no => Sys2Proof.Machine.execCommitTimeout no s
  | .schedule r msg => Sys2Proof.Machine.execSchedule r msg s
  | .notify r msg => Sys2Proof.Machine.execNotify r msg s
  | .roundMarkSend => Sys2Proof.Machine.execRoundMarkSend s
  | .roundLost => Sys2Proof.Machine.execRoundLost s
  | .windowOpen k => Sys2Proof.Machine.execWindowOpen k s
  | .frameAttempt won => Sys2Proof.Machine.execFrameAttempt won s
  | .canFrameReceive frame => Sys2Proof.Machine.execCanFrameReceive frame s
  | .classicalGapTimeout node => Sys2Proof.Machine.execClassicalGapTimeout node s
  | .udpDatagram address port size data => Sys2Proof.Machine.execUdpDatagram address port size data s
  | .go box len => Sys2Proof.Machine.execGo box len s
  | .persistWrite ok => Sys2Proof.Machine.execPersistWrite ok s
  | .accessLevel r v => Sys2Proof.Machine.execAccessLevel r v s
  | .discardStaged r v => Sys2Proof.Machine.execDiscardStaged r v s
  | .persistRestore r v => Sys2Proof.Machine.execPersistRestore r v s
  | .tileDisableMap r v => Sys2Proof.Machine.execTileDisableMap r v s
  | .queueFlush r c v => Sys2Proof.Machine.execQueueFlush r c v s
  | .progFlush r c v => Sys2Proof.Machine.execProgFlush r c v s
  | .isolate r v => Sys2Proof.Machine.execIsolate r v s
  | .deviceReset r v => Sys2Proof.Machine.execDeviceReset r v s
  | .vigilRequest r v => Sys2Proof.Machine.execVigilRequest r v s
  | .resetPinMask r v => Sys2Proof.Machine.execResetPinMask r v s
  | .lbStart r v => Sys2Proof.Machine.execLbStart r v s
  | .objectWrite r index sub size v => Sys2Proof.Machine.execObjectWrite r index sub size v s
  | .eventEntryWrite n => Sys2Proof.Machine.execEventEntryWrite n s
  | .watchdog c => Sys2Proof.Machine.execWatchdog c s
  | .freeze => Sys2Proof.Machine.execFreeze s
  | .vigilSnapshot => Sys2Proof.Machine.execVigilSnapshot s
  | .vigilDone => Sys2Proof.Machine.execVigilDone s
  | .almanacFrame => Sys2Proof.Machine.execAlmanacFrame s
  | .align => Sys2Proof.Machine.execAlign s
  | .traceRecordCollect n mark => Sys2Proof.Machine.execTraceRecordCollect n mark s
  | .porN => Sys2Proof.Machine.execPorN s
  | .porRelease => Sys2Proof.Machine.execPorRelease s
  | .supplyFault => Sys2Proof.Machine.execSupplyFault s
  | .pllLock bootSel nodeSel => Sys2Proof.Machine.execPllLock bootSel nodeSel s
  | .pllUnlock => Sys2Proof.Machine.execPllUnlock s
  | .resetN => Sys2Proof.Machine.execResetN s
  | .resetNRise => Sys2Proof.Machine.execResetNRise s
  | .resetPinStuck => Sys2Proof.Machine.execResetPinStuck s
  | .perstNRise => Sys2Proof.Machine.execPerstNRise s
  | .trstN low => Sys2Proof.Machine.execTrstN low s
  | .thermtripN => Sys2Proof.Machine.execThermtripN s
  | .sensorRead clusters other => Sys2Proof.Machine.execSensorRead clusters other s
  | .dutyRaise => Sys2Proof.Machine.execDutyRaise s
  | .deviceResetSequence scope => Sys2Proof.Machine.execDeviceResetSequence scope s
  | .bootStageEnd found => Sys2Proof.Machine.execBootStageEnd found s
  | .bootStageTimeout => Sys2Proof.Machine.execBootStageTimeout s
  | .computeDomainIdle c => Sys2Proof.Machine.execComputeDomainIdle c s
  | .sliceRetain c => Sys2Proof.Machine.execSliceRetain c s
  | .newenDomainOff => Sys2Proof.Machine.execNewenDomainOff s
  | .almanacReceiverCheck present => Sys2Proof.Machine.execAlmanacReceiverCheck present s
  | .scrubBurst d => Sys2Proof.Machine.execScrubBurst d s
  | .lbLock => Sys2Proof.Machine.execLbLock s
  | .lbLockTimeout => Sys2Proof.Machine.execLbLockTimeout s
  | .lbDurationEnd found => Sys2Proof.Machine.execLbDurationEnd found s
  | .bypass => Sys2Proof.Machine.execBypass s
  | .idcode => Sys2Proof.Machine.execIdcode s
  | .samplePreload => Sys2Proof.Machine.execSamplePreload s
  | .extest => Sys2Proof.Machine.execExtest s
  | .clamp => Sys2Proof.Machine.execClamp s
  | .highz => Sys2Proof.Machine.execHighz s
  | .extestPulse => Sys2Proof.Machine.execExtestPulse s
  | .extestTrain => Sys2Proof.Machine.execExtestTrain s
  | .configurationRequest req => Sys2Proof.Machine.execConfigurationRequest req s
  | .pcieLinkUp speed width flit cxl => Sys2Proof.Machine.execPcieLinkUp speed width flit cxl s
  | .alignmentCodewordMissing n => Sys2Proof.Machine.execAlignmentCodewordMissing n s
  | .supplyInTolerance => Sys2Proof.Machine.execSupplyInTolerance s
  | .formingTimeout p failing => Sys2Proof.Machine.execFormingTimeout p failing s
  | .partResetComplete x => Sys2Proof.Machine.execPartResetComplete x s
  | .fenceEpochTimeout v r seq => Sys2Proof.Machine.execFenceEpochTimeout v r seq s
  | .backInvalidateResponse a => Sys2Proof.Machine.execBackInvalidateResponse a s
  | .ethernetFrame frame => Sys2Proof.Machine.execEthernetFrame frame s

end Sys2Proof.Machine
end

