-- ==== Sys2Proof/Safety.lean ====
section
/-! DEFINITION. What counts as a safe step and a safe run, in the terms claims use. -/

namespace Sys2Proof

/-- The fields of format R that no opcode of the instruction uses are zero (R155), for an instruction that has D, A and B/IMM
alone. -/
abbrev FmtR.twoOperand (f : FmtR) : Prop :=
  f.c = 0 ∧ f.msk = 0 ∧ f.s = false ∧ f.sub = 0 ∧ (f.i = true → f.b = 0) ∧ (f.i = false → f.imm = 0)

/-- The fields of format R that a lane-wise two-operand instruction leaves unused are zero, and the mask's number is zero where
masking is off (R155). -/
abbrev FmtR.maskedTwo (f : FmtR) : Prop :=
  f.c = 0 ∧ f.s = false ∧ f.sub = 0 ∧ (f.i = true → f.b = 0) ∧ (f.i = false → f.imm = 0) ∧ (f.msk.getLsbD 2 = false → f.msk = 0)

/-- The same for a lane-wise instruction of one operand, A. -/
abbrev FmtR.maskedOne (f : FmtR) : Prop :=
  f.b = 0 ∧ f.c = 0 ∧ f.i = false ∧ f.s = false ∧ f.sub = 0 ∧ f.imm = 0 ∧ (f.msk.getLsbD 2 = false → f.msk = 0)

/-- The same for a lane-wise instruction of two register operands, A and B. -/
abbrev FmtR.maskedRegs (f : FmtR) : Prop :=
  f.c = 0 ∧ f.i = false ∧ f.s = false ∧ f.sub = 0 ∧ f.imm = 0 ∧ (f.msk.getLsbD 2 = false → f.msk = 0)

/-- Every field of format R is zero. -/
abbrev FmtR.blank (f : FmtR) : Prop := f = ⟨0, 0, 0, 0, false, 0, false, 0, 0⟩

end Sys2Proof

namespace Sys2Proof.Machine

/-- A step is safe where the block goes on: neither a fault nor a refusal. -/
def safeStep (s : State) : Bool :=
  match step s with
  | .next _ => true
  | _ => false

/-- `n` steps are safe. -/
def safeRun : Nat → State → Bool
  | 0, _ => true
  | n + 1, s =>
    match step s with
    | .next t => safeRun n t
    | _ => false

/-! ### Tile instructions -/

/-- Tile `t` issues the instruction at its PC: it runs a task whose program is loaded and no fault, stop or broadcast waits
(R149, R153, R187, R189), its partition is not HUNG (R510), its cluster is in an on-slot (R207), and the program word reads
clean (R188). -/
def State.tileReady (s : State) (t : TileId) : Bool :=
  (s.tile t).canIssue && !s.hungCluster (clusterOfTile t.val) && !s.offSlot (clusterOfTile t.val)
    && !(s.condAt (tileAddr t.val (8 * (s.tile t).pc))).bad

/-- A tile after an instruction that passes on in sequence: a busy cycle (R490), PC and loops as R160 says, and the end of the
program at N (R153). -/
def Tile.retired (x : Tile) : Tile :=
  let next := seqNext x.pc x.loops
  (x.count wBusy 1).goto next.1 next.2

/-- A tile after a taken branch to `pc`: loops whose body does not hold the target end (R160). -/
def Tile.branched (x : Tile) (pc : Nat) : Tile :=
  (x.count wBusy 1).goto pc (x.loops.filter (fun l => decide (l.first ≤ pc) && decide (pc ≤ l.last)))

/-- A tile after a LOOP that runs no iteration passes its body (R160). -/
def Tile.skipped (x : Tile) (last : Nat) : Tile :=
  let next := seqNext last x.loops
  (x.count wBusy 1).goto next.1 next.2

/-- Tile `t` issues an instruction of the vector unit that reads and writes the registers `vqs`: none of them awaits a Lacing
result (R149), no SUM.R quantises in this cycle (R227) and no strict MMA occupies the unit (R139). -/
def State.vectorReady (s : State) (t : TileId) (vqs : List (BitVec 4)) : Bool :=
  s.tileReady t && !(s.tile t).awaitsLace vqs && !s.keyCycle t && !(s.tile t).strictRunning

/-- The rows of a tile's local space: first offset, and the offset past the last (R127). -/
def localRows : List (Nat × Nat) :=
  [(0, 0x18000), (0x18000, 0x18800), (0x18800, 0x19000), (0x19000, 0x19800), (0x19800, 0x1A000), (0x1A000, 0x1A200),
   (0x1A200, 0x1AA00), (0x1AA00, 0x1AC00), (0x1B000, 0x1B200), (0x1C000, 0x1E000), (0x1E000, 0x1E008)]

/-- The scalar operations with their functions on 64-bit values (R163). -/
def scalarRows : List ((TileId → FmtR → Instr) × (BitVec 64 → BitVec 64 → BitVec 64)) :=
  [(.add, fun a b => BitVec.ofNat 64 (a.toNat + b.toNat)), (.sub, fun a b => BitVec.ofInt 64 (a.toInt - b.toInt)),
   (.mul, fun a b => BitVec.ofNat 64 (a.toNat * b.toNat)), (.and, fun a b => a &&& b), (.or, fun a b => a ||| b),
   (.xor, fun a b => a ^^^ b), (.shl, fun a b => a <<< b), (.shr, fun a b => a >>> b), (.sra, fun a b => a.sshiftRight' b),
   (.min, fun a b => if a.toInt ≤ b.toInt then a else b), (.max, fun a b => if a.toInt ≤ b.toInt then b else a),
   (.minu, fun a b => if a.toNat ≤ b.toNat then a else b), (.maxu, fun a b => if a.toNat ≤ b.toNat then b else a)]

/-- The two-operand operations on 32-bit lanes with their functions on raw lanes (R174, R176). -/
def lane2Rows : List ((TileId → FmtR → Instr) × (BitVec 32 → BitVec 32 → BitVec 32)) :=
  [(.viadd, fun a b => a + b), (.visub, fun a b => a - b), (.vimul, fun a b => a * b), (.vand, fun a b => a &&& b),
   (.vor, fun a b => a ||| b), (.vxor, fun a b => a ^^^ b), (.vshl, fun a b => a <<< b), (.vshr, fun a b => a >>> b),
   (.vsra, fun a b => a.sshiftRight' b), (.vmax, fun a b => BitVec.ofNat 32 (fpMax a.toNat b.toNat)),
   (.vmin, fun a b => BitVec.ofNat 32 (fpMin a.toNat b.toNat))]

/-- The functions of one FP32 lane (R175). -/
def lane1Rows : List ((TileId → FmtR → Instr) × (Nat → Nat)) := [(.vexp2, fpExp2), (.vrcp, fpRcp), (.vrsqrt, fpRsqrt)]

/-- The FP32 lane operations (R174): whether C is used, the result with S = 0 and, with S = 1, the result and its flags, on the
codes of the lanes of A, B and C. -/
def fpRows : List ((TileId → FmtR → Instr) × Bool × (Nat → Nat → Nat → Nat) × (Nat → Nat → Nat → Nat × IeeeFlags)) :=
  [(.vadd, false, fun a b _ => rne32 ((dec32 a).add (dec32 b)), fun a b _ => strictAdd a b),
   (.vsub, false, fun a b _ => rne32 ((dec32 a).add (dec32 b).neg), fun a b _ => strictAdd a (b ^^^ 0x80000000)),
   (.vmul, false, fun a b _ => rne32 ((dec32 a).mul (dec32 b)), fun a b _ => strictMul a b),
   (.vfma, true, fun a b c => rne32 (((dec32 a).mul (dec32 b)).add (dec32 c)), strictFma)]

/-- Lane `l` of a VQ register as a bit vector. -/
def VReg.bits (v : VReg) (l : Nat) : BitVec 32 := v.val.extractLsb' (32 * l) 32

/-- A lane is active under a MSK field (R155). -/
def Tile.laneActive (x : Tile) (msk : BitVec 3) (l : Nat) : Bool :=
  if msk.getLsbD 2 then (x.mreg (msk.toNat % 4)).val.getLsbD l else true

/-- The mask bit that governs a lane is poisoned (R599). -/
def Tile.laneTainted (x : Tile) (msk : BitVec 3) (l : Nat) : Bool :=
  if msk.getLsbD 2 then (x.mreg (msk.toNat % 4)).poison.getLsbD l else false

/-- The tests of R177, in SUB order EQ, NE, LT, GE, LE, GT, on two integers. -/
def intTest (sub : Nat) (a b : Int) : Bool :=
  [decide (a = b), decide (a ≠ b), decide (a < b), decide (b ≤ a), decide (a ≤ b), decide (b < a)].getD sub false

/-- The comparison of two lanes that C and SUB of VCMP name (R177): FP32 values, where a NaN makes NE alone true, signed
integers or unsigned ones. -/
def laneTest (c sub : Nat) (a b : BitVec 32) : Bool :=
  match c with
  | 0 =>
    match (dec32 a.toNat).cmp (dec32 b.toNat) with
    | none => decide (sub = 1)
    | some .lt => intTest sub 0 1
    | some .eq => intTest sub 0 0
    | some .gt => intTest sub 1 0
  | 1 => intTest sub a.toInt b.toInt
  | _ => intTest sub a.toNat b.toNat

/-- What a lane-wise instruction leaves in its destination (R155, R165, R599): an active lane takes its result, poisoned where
the result is; an inactive lane keeps its value and poison; a lane whose mask bit is poisoned is poisoned. -/
def Tile.lanesWritten (x : Tile) (d : BitVec 4) (msk : BitVec 3) (res : Nat → BitVec 32) (bad : Nat → Bool) (v : VReg) : Prop :=
  ∀ l < 32, v.bits l = (if x.laneActive msk l then res l else (x.vreg d).bits l) ∧
    v.lanePoison l = ((if x.laneActive msk l then bad l else (x.vreg d).lanePoison l) || x.laneTainted msk l)

/-- The table of R159, on the integers that two 64-bit values name. -/
def branchHolds (cond : BitVec 3) (a b : BitVec 64) : Bool :=
  match cond.toNat with
  | 0 => decide (a.toNat = b.toNat)
  | 1 => decide (a.toNat ≠ b.toNat)
  | 2 => decide (a.toInt < b.toInt)
  | 3 => decide (b.toInt ≤ a.toInt)
  | 4 => decide (a.toNat < b.toNat)
  | _ => decide (b.toNat ≤ a.toNat)

/-! ### Packets -/

/-- A packet that passes the checks of R252 and finds its target neither asleep (R293) nor isolated (R289). -/
def State.getsThrough (s : State) (p : Packet) : Bool :=
  p.crcOk && !(Packet.illegal p) && (s.porchBlocks p.dest.toNat).isNone && !(s.shimActive p.dest.toNat)

/-- The arrivals of requests, with their commands (R255). -/
def requestRows : List ((Packet → Instr) × Nat) := [(.nocRead, 0x01), (.nocWrite, 0x02), (.writePull, 0x03)]

/-- The arrivals of responses, of pulled data and of control messages, with their commands (R255). -/
def messageRows : List ((Packet → Instr) × Nat) :=
  [(.pullData, 0x04), (.readResp, 0x10), (.writeAck, 0x11), (.pull, 0x12), (.slotAsk, 0x20), (.slotGrant, 0x21),
    (.tallyAdd, 0x22), (.tallyWatch, 0x23), (.tallyMet, 0x24), (.isolateNote, 0x26), (.slotReturn, 0x27)]

/-- Entry `e` is the one that a free service unit of node `n` takes next: of those it may take, the first in service order
(R263). -/
def State.takesNext (s : State) (n : Nat) (e : IntakeEntry) : Prop :=
  e ∈ (s.target n).intake ∧ s.servable n e = true ∧
    ∀ x ∈ (s.target n).intake, x ≠ e → s.servable n x = true → e.before x = true ∧ x.before e = false

/-! ### Writes of objects -/

/-- The rows of the command table that write one object of the dictionary: requester, index, sub-index, bytes and value. -/
def objectRow (i : Instr) : Option (Requester × Nat × Nat × Nat × Nat) :=
  match i with
  | .clusterMapWrite r p v => some (r, 0x5000 + 0x100 * p.val, 0, 1, v)
  | .fenceWrite r p k v => some (r, 0x5001 + 0x100 * p.val, k.val, 8, v)
  | .portEnable r n v => some (r, 0x6100 + 0x10 * n.val, 0, 1, v)
  | .accessLevel r v => some (r, 0x1010, 0, 1, v)
  | .discardStaged r v => some (r, 0x1020, 5, 1, v)
  | .persistRestore r v => some (r, 0x9010, 2, 1, v)
  | .tileDisableMap r v => some (r, 0x1006, 0, 512, v)
  | .queueFlush r c v => some (r, 0x4016 + 0x100 * c.val, 0, 2, v)
  | .progFlush r c v => some (r, 0x4016 + 0x100 * c.val, 1, 1, v)
  | .isolate r v => some (r, 0x3104, 0, 2, v)
  | .deviceReset r v => some (r, 0x9001, 0, 1, v)
  | .vigilRequest r v => some (r, 0x3500, 1, 1, v)
  | .resetPinMask r v => some (r, 0x3400, 1, 1, v)
  | .lbStart r v => some (r, 0x8000, 5, 1, v)
  | .objectWrite r i sub n v => some (r, i.toNat, sub.toNat, n, v)
  | _ => none

/-- The object write of a row is answered and passes every check of R440 that comes before its effect. -/
def State.writePasses (s : State) (i : Instr) : Prop :=
  ∃ r idx sub n v d, objectRow i = some (r, idx, sub, n, v) ∧ s.answers r = true ∧ v < 2 ^ (8 * n) ∧ s.checkWrite r idx sub n v = .ok d

/-- The state with the status of the last write. -/
def State.written (s : State) (st : Status) : State := { s with dict := { s.dict with lastStatus := st } }

end Sys2Proof.Machine
end

