-- ==== Sys2Proof/Certificates/Slice0/Obligations.lean ====
section
/-! DEFINITION. The statements for the provers, each a proposition about the model; OBLIGATIONS.json lists them. -/

section
open Sys2Proof Sys2Proof.Machine

/-- The queue of commands is first in, first out: a step takes the front command and runs it on the rest. -/
def Obligations.StepRunsTheFrontCommand : Prop :=
  ∀ (c : Instr) (q : List Instr) (s : State), step { s with pending := c :: q } = exec c { s with pending := q }

/-- R57, R172 and R486, with the model's choices of log entries 2 and 13: an idle step is one cycle of CLK_CORE. -/
def Obligations.IdleStepCountsOneCycle : Prop :=
  ∀ s : State, s.pending = [] →
    (s.power.porHeld = true → step s = .next s) ∧
    (s.power.porHeld = false → ∃ u : State, step s = .next u ∧ u.calends = (s.calends + 1) % 2 ^ 64 ∧
      ((∀ t : TileId, (s.tile t).mmaRun = none) →
        { u with calends := 0, tiles := [], engineCounts := [] } = { s with calends := 0, tiles := [], engineCounts := [] } ∧
        ∀ t : TileId, { u.tile t with counters := (s.tile t).counters } = s.tile t) ∧
      (∀ (t : TileId) (o : MmaOp) (c : MmaCombo), s.tiles.filter (fun e => e.2.mmaRun.isSome) = [(t.val, s.tile t)] → (s.tile t).mmaRun = some o →
        mmaCombo o.f = some c → o.steps < o.k →
        (u.tile t).mmaRun = some { o with steps := o.steps + 1 } ∧
        (∀ r < 16, ∀ j < 32,
          let i := 32 * r + j
          let q := s.cell t o.f.acc i
          let cell := stepCell c o.f.passes.toNat (if o.steps = 0 then startCell o c q else q)
            (elementOf (s.operandBytes t o.a o.f.astr.toNat o.steps (16 * c.a.width / 8)) c.a.width r)
            (expandB o c t j (elementOf (s.operandBytes t o.b o.f.bstr.toNat o.steps (32 * c.bRead.width / 8)) c.bRead.width j))
          memNat u.mem.cells (tileAddr t.val (accBase o.f.acc false + 4 * i)) 4 = cell.acc % 2 ^ 32 ∧
          memNat u.mem.cells (tileAddr t.val (accBase o.f.acc true + 4 * i)) 4 = cell.comp % 2 ^ 32 ∧
          Sparse.get false (u.tile t).accPoison (accKey o.f.acc i) = cell.poison) ∧
        (∀ b, b < tileAddr t.val (accBase o.f.acc false) ∨ tileAddr t.val (accBase o.f.acc false) + 4096 ≤ b →
          memByte u.mem.cells b = memByte s.mem.cells b) ∧
        (u.tile t).g = (s.tile t).g ∧ (u.tile t).vq = (s.tile t).vq ∧ (u.tile t).pc = (s.tile t).pc ∧ (u.tile t).loops = (s.tile t).loops ∧
        (∀ v : TileId, v ≠ t → { u.tile v with counters := (s.tile v).counters } = s.tile v)))

/-- R163 (with R155 to R157 and R165): scalar operations on 64-bit values. -/
def Obligations.ScalarOperationsFollowTheirRule : Prop :=
  ∀ row ∈ scalarRows, ∀ (t : TileId) (f : FmtR) (s : State), s.tileReady t = true →
    (f.twoOperand → exec (row.1 t f) s = .next (s.setTile t ((s.tile t).setG f.d
      ⟨row.2 ((s.tile t).greg f.a).val (if f.i then f.imm.signExtend 64 else ((s.tile t).greg f.b).val),
        ((s.tile t).greg f.a).poison || (!f.i && ((s.tile t).greg f.b).poison)⟩).retired)) ∧
    (¬ f.twoOperand → exec (row.1 t f) s = .next (s.faultAt t .illegalEncoding))

/-- R158 and R159 (with R155, R156 and R599): branches. -/
def Obligations.BranchesReachTheirTarget : Prop :=
  ∀ (t : TileId) (f : FmtJ) (s : State), s.tileReady t = true →
    let x := s.tile t
    let target := (x.pc : Int) + f.imm.toInt
    let taken := if 0 ≤ target ∧ target ≤ ((x.progLen / 8 : Nat) : Int) then s.setTile t (x.branched target.toNat) else s.faultAt t .outOfRange
    exec (.jmp t f) s = .next
      (if f.a = 0 ∧ f.b = 0 ∧ f.cond = 0 ∧ f.i = false ∧ f.len = 0 then taken else s.faultAt t .illegalEncoding) ∧
    exec (.br t f) s = .next
      (if f.cond.toNat ≤ 5 ∧ f.i = false ∧ f.len = 0 then
        (if (x.greg f.a).poison = true ∨ (x.greg f.b).poison = true then s.faultAt t .eccUncorrected
         else if branchHolds f.cond (x.greg f.a).val (x.greg f.b).val = true then taken
         else s.setTile t x.retired)
       else s.faultAt t .illegalEncoding)

/-- R157 (with R153, R155, R156): NOP, END, MOVI, MOVHI. -/
def Obligations.MovesAndEndFollowTheOpcodeTable : Prop :=
  ∀ (t : TileId) (f : FmtR) (i : FmtI) (s : State), s.tileReady t = true →
    exec (.nop t f) s = .next (if f.blank then s.setTile t (s.tile t).retired else s.faultAt t .illegalEncoding) ∧
    exec (.endTask t f) s = .next (if f.blank then s.setTile t { (s.tile t).count wBusy 1 with ended := true, held := none }
      else s.faultAt t .illegalEncoding) ∧
    exec (.movi t i) s = .next (if i.r = 0 then s.setTile t ((s.tile t).setG i.d ⟨BitVec.ofInt 64 i.imm.toInt, false⟩).retired
      else s.faultAt t .illegalEncoding) ∧
    exec (.movhi t i) s = .next (if i.r = 0 ∧ i.imm.toNat < 2 ^ 16 then
        s.setTile t ((s.tile t).setG i.d ⟨BitVec.ofNat 64 (i.imm.toNat * 2 ^ 48 + ((s.tile t).greg i.d).val.toNat % 2 ^ 48),
          ((s.tile t).greg i.d).poison⟩).retired
      else s.faultAt t .illegalEncoding)

/-- R160 (with R155 and R599): hardware loops. -/
def Obligations.LoopFollowsItsRule : Prop :=
  ∀ (t : TileId) (s : State), s.tileReady t = true →
    let x := s.tile t
    (∀ f : FmtJ,
      let count := if f.i then f.imm.toNat else (x.greg f.a).val.toNat
      let last := x.pc + f.len.toNat
      exec (.loop t f) s = .next
        (if ¬ (f.b = 0 ∧ f.cond = 0 ∧ (f.i = true → f.a = 0) ∧ (f.i = false → f.imm = 0)) then s.faultAt t .illegalEncoding
         else if f.i = false ∧ (x.greg f.a).poison = true then s.faultAt t .eccUncorrected
         else if 2 ^ 32 ≤ count ∨ x.progLen / 8 ≤ last ∨ (∃ l ∈ x.loops, ¬ (l.first ≤ x.pc + 1 ∧ last ≤ l.last)) ∨ 4 ≤ x.loops.length
           then s.faultAt t .outOfRange
         else if count = 0 ∨ f.len.toNat = 0 then s.setTile t (x.skipped last)
         else s.setTile t { x with loops := ⟨x.pc + 1, last, count⟩ :: x.loops }.retired)) ∧
    (∀ (f : FmtR) (l : LoopState) (ls : List LoopState), f.blank → x.loops = l :: ls → x.pc = l.last →
      ∃ y, exec (.nop t f) s = .next (s.setTile t y) ∧
        (1 < l.left → y.pc = l.first ∧ y.loops = { l with left := l.left - 1 } :: ls) ∧
        (l.left ≤ 1 → (∀ m ∈ ls, m.last ≠ x.pc) → y.pc = x.pc + 1 ∧ y.loops = ls))

/-- R161 (with R151 and R155): WAIT. Which of several failing conditions is counted is the model's choice (log entry 18). -/
def Obligations.WaitFollowsItsRule : Prop :=
  ∀ (t : TileId) (f : FmtW) (s : State), s.tileReady t = true →
    let x := s.tile t
    exec (.wait t f) s = .next
      (if ¬ (f.r = 0 ∧ f.n.toNat ≤ 8 ∧ (f.noc = false → f.n = 0)) then s.faultAt t .illegalEncoding
       else if f.noc = true ∧ f.n.toNat < x.xfers.length then s.setTile t (x.stall 2)
       else if f.mma = true ∧ ¬ (x.mmaRun = none ∧ x.mmaQueue = none) then s.setTile t (x.stall 4)
       else if f.drn = true ∧ ¬ (x.drainRun = none ∧ x.drainQueue = none) then s.setTile t (x.stall 4)
       else if f.lac = true ∧ x.laces ≠ [] then s.setTile t (x.stall 3)
       else s.setTile t x.retired)

/-- R162 (with R151, R155, R197, R256, R599): TINC and TWAIT. -/
def Obligations.TallyInstructionsFollowTheirRule : Prop :=
  ∀ (t : TileId) (f : FmtY) (s : State) (k : TileTask), s.tileReady t = true → (s.tile t).task = some k →
    let x := s.tile t
    let c := t.val / 512
    let g := x.greg f.a
    let poisoned := f.i = false ∧ g.poison = true
    let v := if f.i then f.imm else g.val.setWidth 32
    let legal := f.r = 0 ∧ (f.i = true → f.a = 0) ∧ (f.i = false → f.imm = 0)
    let allowed := s.obj (0x4010 + 0x100 * c) (f.num.toNat / 16) 255 = k.vi
    let message := fun (cmd : Nat) => (s.sendControl cmd t.val (0x2000 + c) 0 f.num.toNat (k.vi, k.part, k.priority) 0 v.toNat).net
    (∀ i ∈ [Instr.tinc t f, Instr.twait t f],
      (¬ legal → exec i s = .next (s.faultAt t .illegalEncoding)) ∧
      (legal → poisoned → exec i s = .next (s.faultAt t .eccUncorrected)) ∧
      (legal → ¬ poisoned → ¬ allowed → exec i s = .next (s.faultAt t .accessLevel))) ∧
    (legal → ¬ poisoned → allowed →
      ((x.xfers.filter (·.isPut)) = [] → x.nocDrains = 0 → x.tincs = [] →
        exec (.tinc t f) s = .next (({ s with net := message 0x22 } : State).setTile t x.retired)) ∧
      ((x.xfers.filter (·.isPut)) ≠ [] ∨ x.nocDrains ≠ 0 → (∀ w ∈ x.tincs, ¬ (w.xfers = [] ∧ w.drains = 0)) →
        exec (.tinc t f) s = .next (s.setTile t
          (Tile.retired { x with tincs := x.tincs ++ [⟨f.num.toNat, v, (x.xfers.filter (·.isPut)).map (·.seq), x.nocDrains⟩] }))) ∧
      (x.watch = none →
        exec (.twait t f) s = .next (({ s with net := message 0x23 } : State).setTile t (Tile.stall { x with watch := some ⟨f.num.toNat, v, false⟩ } 5))) ∧
      (∀ w, x.watch = some w → exec (.twait t f) s = .next (s.setTile t
        (if w.met then Tile.retired { x with watch := none } else x.stall 5))))

/-- R9: several bytes at an address are one little-endian number; the frame of a write. -/
def Obligations.MemoryReadsWhatWasWritten : Prop :=
  ∀ (m : List Host.Cell) (a n v : Nat), Memory.wf m →
    (memNat m a n < 2 ^ (8 * n) ∧ ∀ i < n, laneNat (memNat m a n) 8 i = (memByte m (a + i)).toNat) ∧
    (Memory.wf (memWrite m a n v) ∧ memNat (memWrite m a n v) a n = v % 2 ^ (8 * n) ∧
      ∀ b, b < a ∨ a + n ≤ b → memByte (memWrite m a n v) b = memByte m b) ∧
    (Memory.wf (memZero m a n) ∧ memNat (memZero m a n) a n = 0 ∧
      ∀ b, b < a ∨ a + n ≤ b → memByte (memZero m a n) b = memByte m b)

/-- R164 and R165: LD and ST in the tile store. -/
def Obligations.LdAndStMoveTheirBytes : Prop :=
  ∀ (t : TileId) (f : FmtM) (s : State), s.tileReady t = true →
    let x := s.tile t
    let o := ((x.greg f.a).val + f.off.signExtend 64).toNat
    let n := 2 ^ f.size.toNat
    let a := tileAddr t.val o
    f.r1 = 0 → f.msk = 0 → f.r2 = false → (x.greg f.a).poison = false → o % n = 0 → o + n ≤ 0x18000 →
    (s.condsIn a n = [] → exec (.ld t f) s = .next (s.setTile t (x.setG f.d
      ⟨if f.sx then BitVec.ofInt 64 (if memNat s.mem.cells a n < 2 ^ (8 * n - 1) then memNat s.mem.cells a n
          else (memNat s.mem.cells a n : Int) - 2 ^ (8 * n)) else BitVec.ofNat 64 (memNat s.mem.cells a n), false⟩).retired)) ∧
    (f.sx = false → x.progLen ≤ o → ∃ u : State, exec (.st t f) s = .next u ∧
      u.tile t = Tile.retired { x with eccSeen := x.eccSeen || (x.greg f.d).poison } ∧
      (∀ i < n, memByte u.mem.cells (a + i) = (x.greg f.d).val.extractLsb' (8 * i) 8) ∧
      (∀ b, b < a ∨ a + n ≤ b → memByte u.mem.cells b = memByte s.mem.cells b) ∧
      (∀ v : TileId, v ≠ t → u.tile v = s.tile v) ∧
      { u with mem := {}, tiles := [], memEcc := [], light := [] } = { s with mem := {}, tiles := [], memEcc := [], light := [] })

/-- R164, R165 and R155: VLD and VST in the tile store. -/
def Obligations.VldAndVstMoveTheirLanes : Prop :=
  ∀ (t : TileId) (f : FmtM) (s : State), s.tileReady t = true → (s.tile t).awaitsLace [f.d] = false →
    let x := s.tile t
    let o := ((x.greg f.a).val + f.off.signExtend 64).toNat
    let a := tileAddr t.val o
    let active := fun (l : Nat) => if f.msk.getLsbD 2 then (x.mreg (f.msk.toNat % 4)).val.getLsbD l else true
    f.r1 = 0 → f.size = 0 → f.sx = false → f.r2 = false → (f.msk.getLsbD 2 = false → f.msk = 0) →
    (f.msk.getLsbD 2 = true → (x.mreg (f.msk.toNat % 4)).poison = 0) →
    (x.greg f.a).poison = false → o % 4 = 0 → o + 128 ≤ 0x18000 →
    (s.condsIn a 128 = [] → ∃ v, exec (.vld t f) s = .next (s.setTile t (x.setV f.d v).retired) ∧
      ∀ l < 32, v.lane l = (if active l then laneNat (memNat s.mem.cells a 128) 32 l else (x.vreg f.d).lane l) ∧
        v.lanePoison l = (!active l && (x.vreg f.d).lanePoison l)) ∧
    (x.progLen ≤ o → ∃ u : State, exec (.vst t f) s = .next u ∧
      u.tile t = Tile.retired { x with eccSeen := x.eccSeen || (List.range 32).any (fun l => active l && (x.vreg f.d).lanePoison l) } ∧
      (∀ l < 32, ∀ b < 4, memByte u.mem.cells (a + 4 * l + b) =
        if active l then (x.vreg f.d).val.extractLsb' (32 * l + 8 * b) 8 else memByte s.mem.cells (a + 4 * l + b)) ∧
      (∀ b, b < a ∨ a + 128 ≤ b → memByte u.mem.cells b = memByte s.mem.cells b) ∧
      (∀ v : TileId, v ≠ t → u.tile v = s.tile v) ∧
      { u with mem := {}, tiles := [], memEcc := [], light := [] } = { s with mem := {}, tiles := [], memEcc := [], light := [] })

/-- R164 (with R127, R130, R155 and R599): the faults of local accesses. -/
def Obligations.LocalAccessesFaultAsStated : Prop :=
  ∀ (t : TileId) (f : FmtM) (s : State), s.tileReady t = true → (s.tile t).awaitsLace [f.d] = false →
    let x := s.tile t
    let o := ((x.greg f.a).val + f.off.signExtend 64).toNat
    ∀ row ∈ ([(.ld t f, false, f.r1 = 0 ∧ f.r2 = false ∧ f.msk = 0, 2 ^ f.size.toNat, 2 ^ f.size.toNat),
        (.st t f, true, f.r1 = 0 ∧ f.r2 = false ∧ f.msk = 0 ∧ f.sx = false, 2 ^ f.size.toNat, 2 ^ f.size.toNat),
        (.vld t f, false, f.r1 = 0 ∧ f.r2 = false ∧ f.size = 0 ∧ f.sx = false ∧ (f.msk.getLsbD 2 = false → f.msk = 0), 128, 4),
        (.vst t f, true, f.r1 = 0 ∧ f.r2 = false ∧ f.size = 0 ∧ f.sx = false ∧ (f.msk.getLsbD 2 = false → f.msk = 0), 128, 4)] :
        List (Instr × Bool × Prop × Nat × Nat)),
      (¬ row.2.2.1 → exec row.1 s = .next (s.faultAt t .illegalEncoding)) ∧
      (row.2.2.1 → (x.greg f.a).poison = true → exec row.1 s = .next (s.faultAt t .eccUncorrected)) ∧
      (row.2.2.1 → (x.greg f.a).poison = false →
        (o % row.2.2.2.2 ≠ 0 ∨ (∀ r ∈ localRows, ¬ (r.1 ≤ o ∧ o + row.2.2.2.1 ≤ r.2)) → exec row.1 s = .next (s.faultAt t .outOfRange)) ∧
        (row.2.1 = true → o % row.2.2.2.2 = 0 →
          (0x1B000 ≤ o ∧ o + row.2.2.2.1 ≤ 0x1B200 ∨ 0x1C000 ≤ o ∧ o + row.2.2.2.1 ≤ 0x1E000 → exec row.1 s = .next (s.faultAt t .accessLevel)) ∧
          (o + row.2.2.2.1 ≤ 0x18000 → o < x.progLen → exec row.1 s = .next (s.faultAt t .outOfRange))))

/-- R176, and VMAX and VMIN of R174 (with R155, R157, R599). -/
def Obligations.LaneOperationsFollowTheirRules : Prop :=
  ∀ row ∈ lane2Rows, ∀ (t : TileId) (f : FmtR) (s : State), s.vectorReady t (if f.i then [f.d, f.a] else [f.d, f.a, f.b]) = true →
    let x := s.tile t
    (¬ f.maskedTwo → exec (row.1 t f) s = .next (s.faultAt t .illegalEncoding)) ∧
    (f.maskedTwo → ∃ v, exec (row.1 t f) s = .next (s.setTile t (x.setV f.d v).retired) ∧
      x.lanesWritten f.d f.msk (fun l => row.2 ((x.vreg f.a).bits l) (if f.i then f.imm else (x.vreg f.b).bits l))
        (fun l => (x.vreg f.a).lanePoison l || (!f.i && (x.vreg f.b).lanePoison l)) v)

/-- R174 and R175 (with R155 and R599): FP32 lane arithmetic. -/
def Obligations.FpLaneOperationsFollowTheirRules : Prop :=
  (∀ row ∈ fpRows, ∀ (t : TileId) (f : FmtR) (s : State),
    s.vectorReady t ([f.d, f.a] ++ (if f.i then [] else [f.b]) ++ (if row.2.1 then [f.c] else [])) = true →
    let x := s.tile t
    let legal := (row.2.1 = false → f.c = 0) ∧ f.sub = 0 ∧ (f.i = true → f.b = 0) ∧ (f.i = false → f.imm = 0) ∧ (f.msk.getLsbD 2 = false → f.msk = 0)
    let b := fun (l : Nat) => if f.i then f.imm.toNat else (x.vreg f.b).lane l
    let c := fun (l : Nat) => if row.2.1 then (x.vreg f.c).lane l else 0
    let strict := fun (l : Nat) => row.2.2.2 ((x.vreg f.a).lane l) (b l) (c l)
    (¬ legal → exec (row.1 t f) s = .next (s.faultAt t .illegalEncoding)) ∧
    (legal → ∃ v fl, exec (row.1 t f) s = .next (s.setTile t ((x.setV f.d v).raise (s.strictFlagEvent (t.val / 512)) s.calends fl).retired) ∧
      x.lanesWritten f.d f.msk
        (fun l => BitVec.ofNat 32 (if f.s then (strict l).1 else row.2.2.1 ((x.vreg f.a).lane l) (b l) (c l)))
        (fun l => (x.vreg f.a).lanePoison l || (!f.i && (x.vreg f.b).lanePoison l) || (row.2.1 && (x.vreg f.c).lanePoison l)) v ∧
      (f.s = false → fl = {}) ∧
      (f.s = true →
        (fl.invalid = true ↔ ∃ l < 32, x.laneActive f.msk l = true ∧ (strict l).2.invalid = true) ∧
        (fl.divZero = true ↔ ∃ l < 32, x.laneActive f.msk l = true ∧ (strict l).2.divZero = true) ∧
        (fl.overflow = true ↔ ∃ l < 32, x.laneActive f.msk l = true ∧ (strict l).2.overflow = true) ∧
        (fl.underflow = true ↔ ∃ l < 32, x.laneActive f.msk l = true ∧ (strict l).2.underflow = true) ∧
        (fl.inexact = true ↔ ∃ l < 32, x.laneActive f.msk l = true ∧ (strict l).2.inexact = true)))) ∧
  (∀ row ∈ lane1Rows, ∀ (t : TileId) (f : FmtR) (s : State), s.vectorReady t [f.d, f.a] = true →
    let x := s.tile t
    (¬ f.maskedOne → exec (row.1 t f) s = .next (s.faultAt t .illegalEncoding)) ∧
    (f.maskedOne → ∃ v, exec (row.1 t f) s = .next (s.setTile t (x.setV f.d v).retired) ∧
      x.lanesWritten f.d f.msk (fun l => BitVec.ofNat 32 (row.2 ((x.vreg f.a).lane l))) (fun l => (x.vreg f.a).lanePoison l) v))

/-- R177 (with R155 to R157 and R599): compare, select, broadcast, get and permute. -/
def Obligations.CompareSelectMoveFollowTheirRules : Prop :=
  ∀ (t : TileId) (f : FmtR) (s : State),
    let x := s.tile t
    (s.vectorReady t (if f.i then [f.a] else [f.a, f.b]) = true →
      let legal := f.s = false ∧ f.d.toNat < 4 ∧ f.c.toNat < 3 ∧ f.sub.toNat < 6 ∧ (f.i = true → f.b = 0) ∧ (f.i = false → f.imm = 0) ∧
        (f.msk.getLsbD 2 = false → f.msk = 0)
      (¬ legal → exec (.vcmp t f) s = .next (s.faultAt t .illegalEncoding)) ∧
      (legal → ∃ m, exec (.vcmp t f) s = .next (s.setTile t (x.setM f.d.toNat m).retired) ∧ ∀ l < 32,
        m.val.getLsbD l = (x.laneActive f.msk l && laneTest f.c.toNat f.sub.toNat ((x.vreg f.a).bits l) (if f.i then f.imm else (x.vreg f.b).bits l)) ∧
        m.poison.getLsbD l = ((x.laneActive f.msk l && ((x.vreg f.a).lanePoison l || (!f.i && (x.vreg f.b).lanePoison l))) || x.laneTainted f.msk l))) ∧
    (s.vectorReady t [f.d, f.a, f.b] = true →
      (¬ (f.maskedRegs ∧ f.msk.getLsbD 2 = true) → exec (.vsel t f) s = .next (s.faultAt t .illegalEncoding)) ∧
      (f.maskedRegs → f.msk.getLsbD 2 = true → ∃ v, exec (.vsel t f) s = .next (s.setTile t (x.setV f.d v).retired) ∧ ∀ l < 32,
        v.bits l = (if x.laneActive f.msk l then (x.vreg f.a).bits l else (x.vreg f.b).bits l) ∧
        v.lanePoison l = ((if x.laneActive f.msk l then (x.vreg f.a).lanePoison l else (x.vreg f.b).lanePoison l) || x.laneTainted f.msk l)) ∧
      (¬ f.maskedRegs → exec (.vperm t f) s = .next (s.faultAt t .illegalEncoding)) ∧
      (f.maskedRegs → ∃ v, exec (.vperm t f) s = .next (s.setTile t (x.setV f.d v).retired) ∧
        x.lanesWritten f.d f.msk (fun l => if (x.vreg f.b).lane l < 32 then (x.vreg f.a).bits ((x.vreg f.b).lane l) else 0)
          (fun l => (x.vreg f.b).lanePoison l || (decide ((x.vreg f.b).lane l < 32) && (x.vreg f.a).lanePoison ((x.vreg f.b).lane l))) v)) ∧
    (s.vectorReady t [f.d] = true →
      (¬ f.maskedOne → exec (.vbcg t f) s = .next (s.faultAt t .illegalEncoding)) ∧
      (f.maskedOne → ∃ v, exec (.vbcg t f) s = .next (s.setTile t (x.setV f.d v).retired) ∧
        x.lanesWritten f.d f.msk (fun _ => (x.greg f.a).val.setWidth 32) (fun _ => (x.greg f.a).poison) v)) ∧
    (s.vectorReady t [f.a] = true →
      exec (.vget t f) s = .next
        (if ¬ (f.b = 0 ∧ f.c = 0 ∧ f.i = true ∧ f.msk = 0 ∧ f.s = false ∧ f.sub = 0) then s.faultAt t .illegalEncoding
         else if 32 ≤ f.imm.toNat then s.faultAt t .outOfRange
         else s.setTile t (x.setG f.d ⟨((x.vreg f.a).bits f.imm.toNat).setWidth 64, (x.vreg f.a).lanePoison f.imm.toNat⟩).retired))

/-- R178, R180 and R140 (with R155, R156 and R599): reductions, mask operations and top-k lists. -/
def Obligations.ReductionsMasksAndListsFollowTheirRules : Prop :=
  ∀ (t : TileId) (f : FmtR) (s : State),
    let x := s.tile t
    let on := (List.range 32).filter (fun l => x.laneActive f.msk l)
    let tainted := (List.range 32).any (fun l => x.laneTainted f.msk l)
    (s.vectorReady t [f.d, f.a] = true →
      let legal := f.b = 0 ∧ f.c = 0 ∧ f.i = false ∧ f.s = false ∧ f.sub.toNat < 4 ∧ f.imm = 0 ∧ (f.msk.getLsbD 2 = false → f.msk = 0)
      let lane := fun (l : Nat) => (x.vreg f.a).lane l
      (¬ legal → exec (.vred t f) s = .next (s.faultAt t .illegalEncoding)) ∧
      (legal → ∃ v, exec (.vred t f) s = .next (s.setTile t (x.setV f.d v).retired) ∧
        v.bits 0 = BitVec.ofNat 32 (match f.sub.toNat with
          | 0 => on.foldl (fun r l => rne32 ((dec32 r).add (dec32 (lane l)))) 0
          | 1 => on.foldl (fun r l => fpMax r (lane l)) 0xFF800000
          | 2 => on.foldl (fun r l => fpMin r (lane l)) 0x7F800000
          | _ => (on.map lane).sum) ∧
        v.lanePoison 0 = (on.any (fun l => (x.vreg f.a).lanePoison l) || tainted) ∧
        ∀ l < 32, 1 ≤ l → v.bits l = 0 ∧ v.lanePoison l = false) ∧
      let legalForm := f.c = 0 ∧ f.i = false ∧ f.s = false ∧ f.sub = 0 ∧ f.imm.toNat ≤ 16 ∧ (f.msk.getLsbD 2 = false → f.msk = 0)
      (¬ legalForm → exec (.vtkf t f) s = .next (s.faultAt t .illegalEncoding)) ∧
      (legalForm → ∃ v, exec (.vtkf t f) s = .next (s.setTile t (x.setV f.d v).retired) ∧ ∀ e < 16,
        (v.lane e, v.lane (16 + e)) = (topK f.imm.toNat (on.map (fun l => (lane l, ((x.greg f.b).val.toNat + l) % 2 ^ 32)))).getD e (0, 0) ∧
        v.lanePoison e = ((x.greg f.b).poison || on.any (fun l => (x.vreg f.a).lanePoison l) || tainted) ∧
        v.lanePoison (16 + e) = v.lanePoison e)) ∧
    (s.vectorReady t [f.d, f.a, f.b] = true →
      let legal := f.c = 0 ∧ f.i = false ∧ f.msk = 0 ∧ f.s = false ∧ f.sub = 0 ∧ f.imm.toNat ≤ 16
      let entries := fun (r : VReg) => (List.range 16).map (fun e => (r.lane e, r.lane (16 + e)))
      (¬ legal → exec (.vtkm t f) s = .next (s.faultAt t .illegalEncoding)) ∧
      (legal → ∃ v, exec (.vtkm t f) s = .next (s.setTile t (x.setV f.d v).retired) ∧ ∀ e < 16,
        (v.lane e, v.lane (16 + e)) = (topK f.imm.toNat (entries (x.vreg f.a) ++ entries (x.vreg f.b))).getD e (0, 0) ∧
        v.lanePoison e = (decide ((x.vreg f.a).poison ≠ 0) || decide ((x.vreg f.b).poison ≠ 0)) ∧
        v.lanePoison (16 + e) = v.lanePoison e)) ∧
    (s.vectorReady t [] = true →
      let k := f.sub.toNat
      let m := fun (r : BitVec 4) => x.mreg r.toNat
      let legal := f.c = 0 ∧ f.i = false ∧ f.msk = 0 ∧ f.s = false ∧ f.imm = 0 ∧ k < 7 ∧ (4 ≤ k → f.b = 0) ∧
        (k < 4 → f.d.toNat < 4 ∧ f.a.toNat < 4 ∧ f.b.toNat < 4) ∧ (k = 4 → f.d.toNat < 4) ∧ (5 ≤ k → f.a.toNat < 4)
      exec (.mop t f) s = .next
        (if ¬ legal then s.faultAt t .illegalEncoding
         else s.setTile t (Tile.retired (match k with
          | 0 => x.setM f.d.toNat ⟨(m f.a).val &&& (m f.b).val, (m f.a).poison ||| (m f.b).poison⟩
          | 1 => x.setM f.d.toNat ⟨(m f.a).val ||| (m f.b).val, (m f.a).poison ||| (m f.b).poison⟩
          | 2 => x.setM f.d.toNat ⟨(m f.a).val ^^^ (m f.b).val, (m f.a).poison ||| (m f.b).poison⟩
          | 3 => x.setM f.d.toNat ⟨(m f.a).val &&& ~~~(m f.b).val, (m f.a).poison ||| (m f.b).poison⟩
          | 4 => x.setM f.d.toNat ⟨(x.greg f.a).val.setWidth 32, if (x.greg f.a).poison then BitVec.allOnes 32 else 0⟩
          | 5 => x.setG f.d ⟨(m f.a).val.setWidth 64, decide ((m f.a).poison ≠ 0)⟩
          | _ => x.setG f.d ⟨BitVec.ofNat 64 ((List.range 32).filter (fun l => (m f.a).val.getLsbD l)).length, decide ((m f.a).poison ≠ 0)⟩))))

/-- R179, R181 and R226 (with R155 and R599): conversion and the SUM.R instructions. -/
def Obligations.ConversionAndSumrInstructionsFollowTheirRules : Prop :=
  (∀ (t : TileId) (f : FmtR) (s : State), s.vectorReady t [f.d, f.a] = true →
    let x := s.tile t
    let legal := f.i = false ∧ f.sub.getLsbD 2 = false ∧ f.imm.toNat < 256 ∧ (f.msk.getLsbD 2 = false → f.msk = 0)
    let el := fun (r : VReg) (w i : Nat) => laneNat r.val.toNat w i
    ((¬ legal ∨ vcvtOpts f = none) → exec (.vcvt t f) s = .next (s.faultAt t .illegalEncoding)) ∧
    (∀ o, legal → vcvtOpts f = some o → ∃ v n fl,
      exec (.vcvt t f) s = .next (s.setTile t (((x.setV f.d v).overflows (s.convOvfEvent (t.val / 512)) s.calends 0xFF f.c.toNat n).raise
        (s.strictFlagEvent (t.val / 512)) s.calends fl).retired) ∧
      v.val.toNat < 2 ^ (32 * o.dst.width) ∧
      n = ((List.range 32).filter (fun i => x.laneActive f.msk i && (convertCode o (el (x.vreg f.a) o.src.width i)).1.overflow)).length ∧
      (o.strict = false → fl = {}) ∧
      (∀ flag ∈ [IeeeFlags.invalid, IeeeFlags.divZero, IeeeFlags.overflow, IeeeFlags.underflow, IeeeFlags.inexact],
        flag fl = true ↔ ∃ i < 32, x.laneActive f.msk i = true ∧ flag (convertCode o (el (x.vreg f.a) o.src.width i)).2 = true) ∧
      (∀ i < 32, el v o.dst.width i = if x.laneActive f.msk i then (convertCode o (el (x.vreg f.a) o.src.width i)).1.code % 2 ^ o.dst.width
        else el (x.vreg f.d) o.dst.width i) ∧
      (∀ l < 32, v.lanePoison l = true ↔ ∃ i < 32, i * o.dst.width / 32 = l ∧
        ((if x.laneActive f.msk i then (x.vreg f.a).lanePoison (i * o.src.width / 32) else (x.vreg f.d).lanePoison (i * o.dst.width / 32)) = true ∨
          x.laneTainted f.msk i = true)))) ∧
  (∀ (t : TileId) (f : FmtR) (s : State), s.vectorReady t [f.d, f.a] = true →
    let x := s.tile t
    (¬ f.maskedOne → exec (.srkey t f) s = .next (s.faultAt t .illegalEncoding)) ∧
    (f.maskedOne → ∃ v, exec (.srkey t f) s = .next (s.setTile t (x.setV f.d v).retired) ∧
      x.lanesWritten f.d f.msk (fun l => BitVec.ofNat 32 (keyMerge ((x.vreg f.d).lane l) (keyOf ((x.vreg f.a).lane l))))
        (fun l => (x.vreg f.d).lanePoison l || (x.vreg f.a).lanePoison l) v)) ∧
  (∀ (t : TileId) (f : FmtR) (s : State), s.vectorReady t [f.d, f.d + 1, f.d + 2, f.a, f.b] = true →
    let x := s.tile t
    (¬ (f.maskedRegs ∧ f.d.toNat ≤ 13) → exec (.srq t f) s = .next (s.faultAt t .illegalEncoding)) ∧
    (f.maskedRegs → f.d.toNat ≤ 13 → ∃ v0 v1 v2,
      exec (.srq t f) s = .next (s.setTile t (((x.setV f.d v0).setV (f.d + 1) v1).setV (f.d + 2) v2).retired) ∧ ∀ k < 3,
        x.lanesWritten (f.d + BitVec.ofNat 4 k) f.msk
          (fun l => BitVec.ofNat 32 (laneNat (quantise ((x.vreg f.a).lane l) ((x.vreg f.b).lane l)) 32 k))
          (fun l => (x.vreg f.a).lanePoison l || (x.vreg f.b).lanePoison l) ([v0, v1, v2].getD k {}))) ∧
  (∀ (t : TileId) (f : FmtR) (s : State), s.vectorReady t [f.d, f.d + 1, f.d + 2, f.a, f.a + 1, f.a + 2] = true →
    let x := s.tile t
    (¬ (f.maskedOne ∧ f.d.toNat ≤ 13 ∧ f.a.toNat ≤ 13) → exec (.sradd t f) s = .next (s.faultAt t .illegalEncoding)) ∧
    (f.maskedOne → f.d.toNat ≤ 13 → f.a.toNat ≤ 13 → ∃ v0 v1 v2,
      exec (.sradd t f) s = .next (s.setTile t (((x.setV f.d v0).setV (f.d + 1) v1).setV (f.d + 2) v2).retired) ∧ ∀ k < 3,
        x.lanesWritten (f.d + BitVec.ofNat 4 k) f.msk
          (fun l => BitVec.ofNat 32 (laneNat ((x.triple f.d l + x.triple f.a l) % 2 ^ 96) 32 k))
          (fun l => x.triplePoison f.d l || x.triplePoison f.a l) ([v0, v1, v2].getD k {}))) ∧
  (∀ (t : TileId) (f : FmtR) (s : State), s.vectorReady t [f.d, f.b, f.a, f.a + 1, f.a + 2] = true →
    let x := s.tile t
    (¬ (f.maskedRegs ∧ f.a.toNat ≤ 13) → exec (.srdq t f) s = .next (s.faultAt t .illegalEncoding)) ∧
    (f.maskedRegs → f.a.toNat ≤ 13 → ∃ v, exec (.srdq t f) s = .next (s.setTile t (x.setV f.d v).retired) ∧
      x.lanesWritten f.d f.msk (fun l => BitVec.ofNat 32 (sumrResult (x.triple f.a l) ((x.vreg f.b).lane l)))
        (fun l => x.triplePoison f.a l || (x.vreg f.b).lanePoison l) v))

/-- R182 and R226: the result does not depend on the order of the values. -/
def Obligations.SumrDoesNotDependOnOrder : Prop :=
  ∀ (xs ys : List Nat), xs.Perm ys →
    let key := fun (vs : List Nat) => vs.foldl (fun k v => keyMerge k (keyOf v)) 0
    let total := fun (vs : List Nat) => vs.foldl (fun a v => (a + quantise v (key vs)) % 2 ^ 96) 0
    key xs = key ys ∧ total xs = total ys ∧ sumrResult (total xs) (key xs) = sumrResult (total ys) (key ys)

/-- R166 and R167 (with R91, R155, R599): GET and PUT. -/
def Obligations.GetAndPutEnterTheNetworkInterface : Prop :=
  ∀ (put : Bool) (t : TileId) (f : FmtT) (s : State) (k : TileTask), s.tileReady t = true → (s.tile t).task = some k →
    let x := s.tile t
    let i := if put then Instr.put t f else Instr.get t f
    let remote := (x.greg f.a).val.toNat
    let o := (x.greg f.b).val.toNat
    let n := (x.greg f.c).val.toNat
    let e := s.convEntry (t.val / 512) k.part f.conv.toNat
    let out := (convMode f.conv.toNat e).bind (fun m => convBytes m n)
    let inRange := fun (d : Nat) => if put then o + n ≤ 0x18000
      else (x.progLen ≤ o ∧ o + d ≤ 0x18000) ∨ (0x1A000 ≤ o ∧ o + d ≤ 0x1AC00) ∨ d = 0
    (8 ≤ x.xfers.length → exec i s = .next (s.setTile t (x.stall 1))) ∧
    (x.xfers.length < 8 → f.r ≠ 0 → exec i s = .next (s.faultAt t .illegalEncoding)) ∧
    (x.xfers.length < 8 → f.r = 0 → ((x.greg f.a).poison || (x.greg f.b).poison || (x.greg f.c).poison) = true → exec i s = .next (s.faultAt t .eccUncorrected)) ∧
    (x.xfers.length < 8 → f.r = 0 → ((x.greg f.a).poison || (x.greg f.b).poison || (x.greg f.c).poison) = false →
      (n = 0 → exec i s = .next (s.setTile t x.retired)) ∧
      (0 < n →
        (2 ^ 48 ≤ remote ∨ 98304 < n → exec i s = .next (s.faultAt t .outOfRange)) ∧
        (remote < 2 ^ 48 → n ≤ 98304 →
          (out = none → exec i s = .next (s.faultAt t .badDescriptor)) ∧
          (∀ d, out = some d →
            (¬ inRange d → exec i s = .next (s.faultAt t .outOfRange)) ∧
            (inRange d → ∃ ps,
              exec i s = .next (s.setTile t (Tile.retired { x with
                xfers := x.xfers ++ [⟨x.issueSeq, x.pc, put, f.conv.toNat, e, remote, 0, o, 0, n, ps, 0, [], [], [], none⟩],
                issueSeq := x.issueSeq + 1 })) ∧
              (∀ p ∈ ps, p.row = 0 ∧ 0 < p.len ∧ (remote + p.off) % 2048 + p.len ≤ 2048) ∧
              (∀ b, (ps.filter (fun p => decide (p.off ≤ b) && decide (b < p.off + p.len))).length =
                if b < (if put then d else n) then 1 else 0))))))

/-- R168 (with R166, R167, R599): XFER. -/
def Obligations.XferEntersItsRows : Prop :=
  ∀ (t : TileId) (f : FmtT) (s : State) (k : TileTask), s.tileReady t = true → (s.tile t).task = some k →
    let x := s.tile t
    let o := (x.greg f.b).val.toNat
    let v := memNat s.mem.cells (tileAddr t.val o) 32
    let w := fun (i : Nat) => v / 2 ^ (64 * i) % 2 ^ 64
    let put := (w 0).testBit 48
    let conv := w 1 / 2 ^ 56 % 2 ^ 8
    let n := w 1 % 2 ^ 32
    let rows := w 3 / 2 ^ 48 % 2 ^ 16
    let remote := fun (r : Nat) => w 0 % 2 ^ 48 + r * (w 2 / 2 ^ 32 % 2 ^ 32)
    let loc := fun (r : Nat) => w 3 % 2 ^ 17 + r * (w 2 % 2 ^ 32)
    let e := s.convEntry (t.val / 512) k.part conv
    let legal := f.r = 0 ∧ f.a = 0 ∧ f.c = 0 ∧ f.conv = 0
    (8 ≤ x.xfers.length → exec (.xfer t f) s = .next (s.setTile t (x.stall 1))) ∧
    (x.xfers.length < 8 → ¬ legal → exec (.xfer t f) s = .next (s.faultAt t .illegalEncoding)) ∧
    (x.xfers.length < 8 → legal → (x.greg f.b).poison = true → exec (.xfer t f) s = .next (s.faultAt t .eccUncorrected)) ∧
    (x.xfers.length < 8 → legal → (x.greg f.b).poison = false →
      (0x18000 < o + 32 → exec (.xfer t f) s = .next (s.faultAt t .outOfRange)) ∧
      (o + 32 ≤ 0x18000 → (∃ e ∈ s.condsIn (tileAddr t.val o) 32, e.2.bad = true) →
        exec (.xfer t f) s = .next ((s.load (tileAddr t.val o) 32).2.faultAt t .eccUncorrected)) ∧
      (o + 32 ≤ 0x18000 → s.condsIn (tileAddr t.val o) 32 = [] → o % 32 ≠ 0 → exec (.xfer t f) s = .next (s.faultAt t .outOfRange)) ∧
      (o % 32 = 0 → o + 32 ≤ 0x18000 → s.condsIn (tileAddr t.val o) 32 = [] →
        let reserved := w 0 / 2 ^ 49 ≠ 0 ∨ w 1 / 2 ^ 32 % 2 ^ 24 ≠ 0 ∨ w 3 / 2 ^ 17 % 2 ^ 31 ≠ 0
        (reserved → exec (.xfer t f) s = .next (s.faultAt t .illegalEncoding)) ∧
        (¬ reserved → rows = 0 ∨ n = 0 → exec (.xfer t f) s = .next (s.setTile t x.retired)) ∧
        (∀ d, ¬ reserved → 0 < rows → 0 < n → (convMode conv e).bind (fun m => convBytes m n) = some d →
          n ≤ 98304 → rows * n ≤ 98304 → (rows - 1) * (w 2 % 2 ^ 32) + (if put then n else d) ≤ 98304 →
          (∀ r < rows, remote r < 2 ^ 48 ∧ (if put then loc r + n ≤ 0x18000
            else (x.progLen ≤ loc r ∧ loc r + d ≤ 0x18000) ∨ (0x1A000 ≤ loc r ∧ loc r + d ≤ 0x1AC00) ∨ d = 0)) →
          ∃ ps,
            exec (.xfer t f) s = .next (s.setTile t (Tile.retired { x with
              xfers := x.xfers ++ [⟨x.issueSeq, x.pc, put, conv, e, w 0 % 2 ^ 48, w 2 / 2 ^ 32 % 2 ^ 32, w 3 % 2 ^ 17, w 2 % 2 ^ 32, n, ps, 0, [], [], [], none⟩],
              issueSeq := x.issueSeq + 1 })) ∧
            (∀ p ∈ ps, p.row < rows ∧ 0 < p.len ∧ (remote p.row + p.off) % 2048 + p.len ≤ 2048) ∧
            (∀ r < rows, ∀ b, (ps.filter (fun p => decide (p.row = r) && decide (p.off ≤ b) && decide (b < p.off + p.len))).length =
              if b < (if put then d else n) then 1 else 0))))

/-- R167 and R169 (with R262, R278, R296 and R600): issue of pieces, and the report of a fault. -/
def Obligations.TransferPiecesAndFaultsFollowTheirRules : Prop :=
  (∀ (t : TileId) (s : State) (k : TileTask) (tr : Transfer) (ts : List Transfer) (p : Piece) (ps : List Piece),
    (s.tile t).task = some k → (s.tile t).xfers = tr :: ts → tr.todo = p :: ps → (∀ r ∈ ts, r.seq ≠ tr.seq) → k.part < 8 →
    let a := tr.remote + p.row * tr.remoteStride + p.off
    let cmd := if tr.isPut then (if p.len ≤ 32 then 0x02 else 0x03) else 0x01
    let w := if cmd = 0x02 then s.putBytes t tr p else (⟨0, 0⟩, s)
    let q := mkPacket cmd t.val 0 0 a p.len tr.convId k.vi k.part k.priority 0 w.1.val w.1.poison
    (∀ dst tag, a < 2 ^ 48 → w.2.nodeOfAddr k.part a = some dst → dst < 0x4000 → w.2.routesLoaded = true →
      (w.2.routeTo t.val dst).isSome = true → (w.2.routeBack t.val dst).isSome = true → w.2.tagNow t.val { q with dest := BitVec.ofNat 14 dst } = some tag →
      exec (.transferPieceIssue t) s = .next ((w.2.launch t.val tag { q with dest := BitVec.ofNat 14 dst } (.piece tr.seq p)).setTile t
        { w.2.tile t with xfers := { tr with todo := ps, out := tr.out + 1 } :: ts.filter (fun r => !(r.todo.isEmpty && r.out = 0)) })) ∧
    (2 ^ 48 ≤ a ∨ w.2.nodeOfAddr k.part a = none →
      ∃ u : State, exec (.transferPieceIssue t) s = .next u ∧
        (u.tile t).asyncFaults = (s.tile t).asyncFaults ++ (if tr.err = none then [(tr.seq, tr.index, .outOfRange)] else []) ∧
        (∀ r ∈ (u.tile t).xfers, r.seq = tr.seq → r.todo = []))) ∧
  (∀ (t : TileId) (s : State) (f : Nat × Nat × Status), (s.tile t).task.isSome = true → (s.tile t).stopped = false → (s.tile t).fault = none →
    f ∈ (s.tile t).asyncFaults → (∀ g ∈ (s.tile t).asyncFaults, g ≠ f → f.1 < g.1) →
    exec (.transferFaultReport t) s = .next (s.setTile t { s.tile t with fault := some (f.2.1, f.2.2) }))

/-- R149, R170 to R173 and R142: the issue of MMA and DRAIN. -/
def Obligations.MmaAndDrainEnterTheirQueues : Prop :=
  (∀ (t : TileId) (f : FmtX) (s : State), s.tileReady t = true →
    let x := s.tile t
    let a := (x.greg f.ga).val.toNat
    let b := (x.greg f.gb).val.toNat
    let k := (x.greg f.gk).val.toNat
    let bad := ((x.greg f.ga).poison || (x.greg f.gb).poison || (x.greg f.gk).poison) = true
    (x.mmaQueue.isSome = true → exec (.mma t f) s = .next (s.setTile t (x.stall 4))) ∧
    (x.mmaQueue = none → mmaCombo f = none → exec (.mma t f) s = .next (s.faultAt t .illegalEncoding)) ∧
    (∀ c, x.mmaQueue = none → mmaCombo f = some c →
      let refused := (x.role = .v ∧ f.strict = false) ∨ ∃ n, c.b = .table n ∧ n ≠ .bf16 ∧
        ∃ i < 16, memNat s.mem.cells (tileAddr t.val (0x1A000 + 32 * f.sel.toNat)) 32 / 2 ^ (16 * i + 8) % 2 ^ 8 ≠ 0
      let outside := 1 ≤ k ∧ (0x18000 < a + (k - 1) * f.astr.toNat + 16 * c.a.width / 8 ∨ 0x18000 < b + (k - 1) * f.bstr.toNat + 32 * c.bRead.width / 8)
      (bad → exec (.mma t f) s = .next (s.faultAt t .eccUncorrected)) ∧
      (¬ bad → refused → exec (.mma t f) s = .next (s.faultAt t .illegalEncoding)) ∧
      (¬ bad → ¬ refused → 2 ^ 32 ≤ k ∨ outside → exec (.mma t f) s = .next (s.faultAt t .outOfRange)) ∧
      (¬ bad → ¬ refused → k < 2 ^ 32 → ¬ outside → exec (.mma t f) s = .next (s.setTile t (Tile.retired { x with
        mmaQueue := some { seq := x.issueSeq, f := f, a := a, b := b, k := k }, issueSeq := x.issueSeq + 1 }))))) ∧
  (∀ (t : TileId) (f : FmtD) (s : State), s.tileReady t = true →
    let x := s.tile t
    let o := (x.greg f.a).val.toNat
    let at_ := tileAddr t.val o
    let v := memNat s.mem.cells at_ 32
    let w := fun (i : Nat) => v / 2 ^ (64 * i) % 2 ^ 64
    let legal := f.r1 = 0 ∧ f.r2 = 0
    let ke := x.kindAhead f.acc
    (x.drainQueue.isSome = true → exec (.drain t f) s = .next (s.setTile t (x.stall 4))) ∧
    (x.drainQueue = none → ¬ legal → exec (.drain t f) s = .next (s.faultAt t .illegalEncoding)) ∧
    (x.drainQueue = none → legal → (x.greg f.a).poison = true → exec (.drain t f) s = .next (s.faultAt t .eccUncorrected)) ∧
    (x.drainQueue = none → legal → (x.greg f.a).poison = false →
      (0x18000 < o + 32 → exec (.drain t f) s = .next (s.faultAt t .outOfRange)) ∧
      (o + 32 ≤ 0x18000 → (∃ e ∈ s.condsIn at_ 32, e.2.bad = true) → exec (.drain t f) s = .next ((s.load at_ 32).2.faultAt t .eccUncorrected)) ∧
      (o + 32 ≤ 0x18000 → s.condsIn at_ 32 = [] → o % 32 ≠ 0 → exec (.drain t f) s = .next (s.faultAt t .outOfRange)) ∧
      (o % 32 = 0 → o + 32 ≤ 0x18000 → s.condsIn at_ 32 = [] →
        (∀ st, checkFinish x ke.1 (w 0) (w 1) (w 2) (w 3) = st → st ≠ .ok → exec (.drain t f) s = .next (s.faultAt t st)) ∧
        (checkFinish x ke.1 (w 0) (w 1) (w 2) (w 3) = .ok → exec (.drain t f) s = .next (s.setTile t (Tile.retired { x with
          drainQueue := some { seq := x.issueSeq, acc := f.acc, w0 := BitVec.ofNat 64 (w 0), w1 := BitVec.ofNat 64 (w 1), w2 := BitVec.ofNat 64 (w 2), w3 := BitVec.ofNat 64 (w 3), kind := ke.1, early := ke.2, index := x.pc },
          issueSeq := x.issueSeq + 1 }))))))

/-- R97 to R111, R125, R126, R131, R133, R137, R143 to R145, R172 and R173: the array and the finishing stage. The steps that MMA_END
itself does, and EARLY after a K of 0 under add, are the model's choices (log entries 13 and 79). -/
def Obligations.ArrayAndFinishingStageRun : Prop :=
  (∀ (t : TileId) (s : State) (o : MmaOp), (s.tile t).mmaRun = none → (s.tile t).mmaQueue = some o →
    let held := (s.tile t).drainBefore s.calends o.seq o.f.acc = true ∨ s.accAsked t o.f.acc = true
    let n := o.f.sel.toNat
    let rs := if o.f.mode then (if o.f.expk then [(0x1AA00 + 32 * n, 32)] else [(0x1A000 + 32 * n, 32)]) ++ (if o.f.early then [(0x1A200 + 128 * n, 128)] else []) else []
    let o' := { o with latch := rs.flatMap (fun r => memSlice s.mem.cells (tileAddr t.val r.1) r.2), latchPoison := rs.flatMap (fun r => s.badWords (tileAddr t.val r.1) r.2) }
    (held → exec (.mmaStart t) s = .next s) ∧
    (¬ held → ∃ u : State, exec (.mmaStart t) s = .next u ∧ (u.tile t).mmaRun = some o' ∧ (u.tile t).mmaQueue = none ∧ u.mem.cells = s.mem.cells ∧
      ((∀ r ∈ rs, s.condsIn (tileAddr t.val r.1) r.2 = []) → u = s.setTile t { s.tile t with mmaRun := some o', mmaQueue := none }))) ∧
  (∀ (t : TileId) (s : State) (o : MmaOp) (c : MmaCombo), (s.tile t).mmaRun = some o → mmaCombo o.f = some c →
    let adds := (o.k = 0 ∧ o.f.accum = false) ∨ o.steps < o.k
    let ke := (s.tile t).kindOf o.f.acc
    let cell := fun (r j : Nat) => ((List.range (o.k - o.steps)).map (· + o.steps)).foldl (fun q k => stepCell c o.f.passes.toNat q
      (elementOf (s.operandBytes t o.a o.f.astr.toNat k (16 * c.a.width / 8)) c.a.width r)
      (expandB o c t j (elementOf (s.operandBytes t o.b o.f.bstr.toNat k (32 * c.bRead.width / 8)) c.bRead.width j)))
      (if o.steps = 0 then startCell o c (s.cell t o.f.acc (32 * r + j)) else s.cell t o.f.acc (32 * r + j))
    ∃ u : State, exec (.mmaEnd t) s = .next u ∧ (u.tile t).mmaRun = none ∧
      (u.tile t).kindOf o.f.acc = (if 1 ≤ o.k ∨ o.f.accum = false then c.kind else ke.1, if o.f.accum then ke.2 || o.f.early else o.f.early) ∧
      (u.tile t).kindOf (!o.f.acc) = (s.tile t).kindOf (!o.f.acc) ∧
      (¬ adds → u.mem = s.mem ∧ (u.tile t).accPoison = (s.tile t).accPoison ∧ (u.tile t).flags = (s.tile t).flags) ∧
      (adds → (∀ r < 16, ∀ j < 32, let i := 32 * r + j
          memNat u.mem.cells (tileAddr t.val (accBase o.f.acc false + 4 * i)) 4 = (cell r j).acc % 2 ^ 32 ∧
          memNat u.mem.cells (tileAddr t.val (accBase o.f.acc true + 4 * i)) 4 = (cell r j).comp % 2 ^ 32 ∧
          Sparse.get false (u.tile t).accPoison (accKey o.f.acc i) = (cell r j).poison) ∧
        (∀ e ∈ [(4, IeeeFlags.invalid), (3, IeeeFlags.divZero), (2, IeeeFlags.overflow), (1, IeeeFlags.underflow), (0, IeeeFlags.inexact)],
          (u.tile t).flags.getLsbD e.1 = true ↔ (s.tile t).flags.getLsbD e.1 = true ∨ ∃ r < 16, ∃ j < 32, e.2 (cell r j).flags = true)) ∧
      (∀ b, b < tileAddr t.val (accBase o.f.acc false) ∨ tileAddr t.val (accBase o.f.acc false) + 4096 ≤ b → memByte u.mem.cells b = memByte s.mem.cells b) ∧
      (∀ v : TileId, v ≠ t → u.tile v = s.tile v) ∧ (u.tile t).g = (s.tile t).g ∧ (u.tile t).vq = (s.tile t).vq ∧ (u.tile t).pc = (s.tile t).pc) ∧
  (∀ (t : TileId) (s : State) (o : DrainOp), (s.tile t).drainRun = none → (s.tile t).drainQueue = some o →
    let held := (s.tile t).mmaBefore o.seq o.acc = true ∨ s.accAsked t o.acc = true
    let base := tileAddr t.val (accBase o.acc false)
    let sbase := tileAddr t.val (0x1A200 + 128 * o.desc.sel)
    let scaled := o.early = false ∧ o.desc.sel < 16
    let o' := { o with
      start := s.calends, cells := memSlice s.mem.cells base 4096, cellPoison := (List.range 512).filter (fun i => (s.cell t o.acc i).poison),
      scale := if scaled then memSlice s.mem.cells sbase 128 else [], scalePoison := if scaled then s.badWords sbase 128 else [] }
    (held → exec (.drainStart t) s = .next s) ∧
    (¬ held → o.desc.rows = 0 ∨ o.desc.cols = 0 → ∃ u : State, exec (.drainStart t) s = .next u ∧ (u.tile t).drainQueue = none ∧ (u.tile t).drainRun = none ∧ u.mem = s.mem) ∧
    (¬ held → 0 < o.desc.rows → 0 < o.desc.cols → ∃ u : State, exec (.drainStart t) s = .next u ∧ (u.tile t).drainRun = some o' ∧ (u.tile t).drainQueue = none ∧
      u.mem.cells = s.mem.cells ∧
      (s.condsIn base 4096 = [] → s.condsIn sbase 128 = [] → u = s.setTile t { s.tile t with drainRun := some o', drainQueue := none }))) ∧
  (∀ (t : TileId) (s : State) (o : DrainOp) (out : NumFmt) (k : TileTask), (s.tile t).drainRun = some o → (s.tile t).task = some k → o.desc.fmt = some out → o.row < o.desc.rows →
    let d := o.desc
    let row := s.finishRow t o out
    let n := (d.cols * out.width + 7) / 8
    let addr := d.destAddr + o.row * d.destStride
    let fuse := (NumFmt.ofCode d.fuseCode).getD .fp32
    let base := tileAddr t.val (accBase o.acc false)
    let fused := fun (j : Nat) => if d.fuseOp = 0 then 0
      else laneNat (memNat s.mem.cells (tileAddr t.val (d.fuseAddr + (if d.fuseRow then 0 else o.row * d.fuseStride))) ((d.cols * fuse.width + 7) / 8)) fuse.width j
    (∀ j < d.cols, laneNat row.val out.width j = (finishCell o.kind o.early d out (memNat o.cells (base + 4 * (32 * o.row + j)) 4) (memNat o.cells (base + 0x800 + 4 * (32 * o.row + j)) 4)
      (memNat o.scale (tileAddr t.val (0x1A200 + 128 * d.sel + 4 * j)) 4) (fused j) fuse).1.code % 2 ^ out.width) ∧
    (d.dest = false → o.part = 0 → ∃ u : State, ∃ o' : DrainOp, exec (.drainRowWrite t) s = .next u ∧
      (∀ i < n, memByte u.mem.cells (tileAddr t.val addr + i) = BitVec.ofNat 8 (row.val / 2 ^ (8 * i))) ∧
      (∀ b, b < tileAddr t.val addr ∨ tileAddr t.val addr + n ≤ b → memByte u.mem.cells b = memByte s.mem.cells b) ∧
      (u.tile t).drainRun = some o' ∧ o'.row = o.row + 1 ∧ o'.seq = o.seq ∧
      (u.tile t).g = (s.tile t).g ∧ (u.tile t).vq = (s.tile t).vq ∧ (u.tile t).pc = (s.tile t).pc ∧ (∀ v : TileId, v ≠ t → u.tile v = s.tile v)) ∧
    (d.dest = true →
      let len := min (2048 - (addr + o.part) % 2048) (n - o.part)
      let p := mkPacket (if len ≤ 32 then 0x02 else 0x03) t.val 0 0 (addr + o.part) len 0 k.vi k.part k.priority 0 (bitsAt row.val (8 * o.part) (8 * len)) (bitsAt row.poison o.part len)
      ∀ s', (s.fusedRead t o).issueAt t.val (addr + o.part) p (.drainRow o.seq) = .sent s' → ∃ u : State, ∃ o' : DrainOp, exec (.drainRowWrite t) s = .next u ∧
        (u.tile t).drainRun = some o' ∧ o'.unacked = o.unacked + 1 ∧ u.net = s'.net ∧ u.mem = s'.mem ∧
        (n ≤ o.part + len → o'.row = o.row + 1 ∧ o'.part = 0) ∧ (o.part + len < n → o'.row = o.row ∧ o'.part = o.part + len))) ∧
  (∀ (t : TileId) (s : State) (o : DrainOp), (s.tile t).drainRun = some o →
    (o.row < o.desc.rows ∨ o.unacked ≠ 0 → exec (.drainComplete t) s = .next s) ∧
    (o.desc.rows ≤ o.row → o.unacked = 0 → ∃ u : State, exec (.drainComplete t) s = .next u ∧ (u.tile t).drainRun = none ∧ u.mem = s.mem ∧
      (u.tile t).priv = (if 0 < o.segBytes then (s.tile t).priv.segment o.crc o.segBytes else (s.tile t).priv)))

/-- R183 to R186 (with R149, R221, R498 to R501 and R599): LACE, DGST and EVT. -/
def Obligations.LaceDgstAndEvtFollowTheirRules : Prop :=
  (∀ (t : TileId) (f : FmtL) (s : State), s.tileReady t = true →
    let x := s.tile t
    let ch := f.ch.toNat
    let op := f.op.toNat
    let sources := if op = 4 ∨ op = 5 then [0, 1, 2, 3, 4, 5, 6, 7, 16, 17, 18, 19, 20, 21, 22, 23] else if op = 6 then List.range 32
      else if op = 11 ∨ (op = 10 ∧ f.root = false) then [] else List.range 8
    let bad := sources.any (fun l => (x.vreg f.a).lanePoison l)
    let msg : LaceMsg := { err := if bad then some .eccUncorrected else none, op := op, k := f.k.toNat, roots := if f.root then 1 else 0, data := if bad then [] else sources.map (fun l => (x.vreg f.a).lane l) }
    let legal := f.r = 0 ∧ op ≤ 12 ∧ f.k.toNat ≤ 16 ∧ (op ≠ 6 → f.k = 0) ∧ (op ≠ 10 → f.root = false) ∧ (op = 11 → f.d = 0 ∧ f.a = 0)
    let waits := x.awaitsLace (if op = 11 then [] else [f.d, f.a]) = true ∨ ∃ l ∈ x.laces, l.ch = ch
    let y := Tile.retired { x with laces := x.laces ++ [{ seq := x.issueSeq, index := x.pc, ch := ch, op := op, k := f.k.toNat, dst := f.d.toNat }], issueSeq := x.issueSeq + 1 }
    let u := s.setTile t y
    (waits → exec (.lace t f) s = .next (s.setTile t (x.stall 3))) ∧
    (¬ waits → ¬ legal → exec (.lace t f) s = .next (s.faultAt t .illegalEncoding)) ∧
    (¬ waits → legal → (∀ p, s.partOfTile t.val = some p → s.member p ch t.val = false) → exec (.lace t f) s = .next (s.faultAt t .accessLevel)) ∧
    (∀ p, ¬ waits → legal → s.partOfTile t.val = some p → s.member p ch t.val = true →
      let c := s.ctx p ch
      (c.active = true → c.expected.contains t.val = true → Sparse.get none c.arrived t.val = none → c.result = none →
        exec (.lace t f) s = .next (u.setCtx p ch { c with arrived := Sparse.set none c.arrived t.val (some msg) })) ∧
      (c.active = true → c.expected.contains t.val = false ∨ (Sparse.get none c.arrived t.val).isSome = true ∨ c.result.isSome = true →
        exec (.lace t f) s = .next (u.setCtx p ch { c with heldNext := Sparse.set none c.heldNext t.val (some msg) })) ∧
      (c.active = false → ∃ a, exec (.lace t f) s = .next (u.setCtx p ch { ended := c.ended, active := true, start := s.calends + 3, expected := s.members p ch, arrived := a, childMsgs := c.childMsgs, timed := true }) ∧
        Sparse.get none a t.val = some msg ∧ ∀ v : TileId, v ≠ t →
          Sparse.get none a v.val = if v.val ∈ s.members p ch ∧ (s.tile v).withdrawn = true then some { op := 15, k := 0, err := some .aborted } else none))) ∧
  (∀ (t : TileId) (f : FmtG) (s : State), s.tileReady t = true →
    let x := s.tile t
    let o := (x.greg f.a).val.toNat
    let n := (x.greg f.b).val.toNat
    let bad := ((x.greg f.a).poison || (x.greg f.b).poison) = true
    (f.r ≠ 0 ∨ (f.sta = false ∧ f.dig = false) ∨ (f.sta = false ∧ f.fmt ≠ 0) ∨ (f.sta = true ∧ ∀ fmt, NumFmt.ofCode f.fmt.toNat = some fmt → fmt.isExpansionOnly = true) →
      exec (.dgst t f) s = .next (s.faultAt t .illegalEncoding)) ∧
    (∀ fmt, f.r = 0 → (f.sta = true ∨ f.dig = true) → (f.sta = false → f.fmt = 0 ∧ fmt = .int8) → (f.sta = true → NumFmt.ofCode f.fmt.toNat = some fmt ∧ fmt.isExpansionOnly = false) →
      (bad → exec (.dgst t f) s = .next (s.faultAt t .eccUncorrected)) ∧
      (¬ bad → n = 0 → exec (.dgst t f) s = .next (s.setTile t x.retired)) ∧
      (¬ bad → 0 < n → 0x18000 < o + n → exec (.dgst t f) s = .next (s.faultAt t .outOfRange)) ∧
      (¬ bad → 0 < n → o + n ≤ 0x18000 → f.sta = true → 8 * n % fmt.width ≠ 0 → exec (.dgst t f) s = .next (s.faultAt t .badDescriptor)) ∧
      (¬ bad → 0 < n → o + n ≤ 0x18000 → (f.sta = true → 8 * n % fmt.width = 0) → s.condsIn (tileAddr t.val o) n = [] →
        let v := memNat s.mem.cells (tileAddr t.val o) n
        let b1 := if f.sta then (List.range (8 * n / fmt.width)).foldl (fun b i => b.element fmt (v / 2 ^ (fmt.width * i) % 2 ^ fmt.width) false) x.priv else x.priv
        let b2 := if f.dig then b1.segment (crc64 ((List.range n).map (fun i => v / 2 ^ (8 * i) % 2 ^ 8))) n else b1
        exec (.dgst t f) s = .next (s.setTile t (Tile.retired { x with priv := b2 }))))) ∧
  (∀ (t : TileId) (f : FmtY) (s : State), s.tileReady t = true →
    let x := s.tile t
    let legal := f.r = 0 ∧ 0xE0 ≤ f.num.toNat ∧ (f.i = true → f.a = 0 ∧ f.imm.toNat < 2 ^ 24) ∧ (f.i = false → f.imm = 0)
    (¬ legal → exec (.evt t f) s = .next (s.faultAt t .illegalEncoding)) ∧
    (legal → exec (.evt t f) s = .next (s.setTile t (Tile.retired (Tile.event { x with eccSeen := x.eccSeen || (!f.i && (x.greg f.a).poison) }
      s.calends f.num.toNat (if f.i then f.imm.toNat else (x.greg f.a).val.toNat % 2 ^ 24))))))

/-- R156, R183, R184, R187 to R189, R215, R226, R227, R234 and R243: what reaches a tile, and the report of its fault. -/
def Obligations.WhatReachesATile : Prop :=
  (∀ (t : TileId) (ch : Chan) (upset : Nat) (s : State) (p : Nat) (key : List Nat) (m : LaceMsg), s.partOfTile t.val = some p →
    (s.ctx p ch.val).key = some key → Sparse.get none (s.ctx p ch.val).arrived t.val = some m → (s.ctx p ch.val).sweep = 2 → m.op = 1 → m.err = none →
    (s.ctx p ch.val).expected.contains t.val = true → Sparse.get none (s.ctx p ch.val).quantised t.val = none →
    let w := if upset = 1 then s.lightBump (t.val / 512) 4 1 else if upset = 2 then s.lightBump (t.val / 512) 5 1 else s
    let q : LaceMsg := if upset = 2 then { m with err := some .eccUncorrected, data := [] } else { m with data := List.zipWith quantise m.data key }
    exec (.laceKeyArrival t ⟨ch, upset⟩) s = .next ((w.setTile t { s.tile t with keyAt := some s.calends }).setCtx p ch.val { s.ctx p ch.val with
      quantised := Sparse.set none (s.ctx p ch.val).quantised t.val (some q) })) ∧
  (∀ (t : TileId) (ch : Chan) (upset : Nat) (s : State) (p : Nat) (m : LaceMsg) (w : LaceWait), s.partOfTile t.val = some p →
    (s.ctx p ch.val).result = some m → (s.tile t).laces.find? (fun l => l.ch = ch.val) = some w →
    (s.ctx p ch.val).delivered.contains t.val = false → (s.ctx p ch.val).expected.contains t.val = true →
    (Sparse.get none (s.ctx p ch.val).arrived t.val).isSome = true → Sparse.get none (s.ctx p ch.val).heldNext t.val = none →
    let b := if upset = 1 then s.lightBump (t.val / 512) 4 1 else if upset = 2 then s.lightBump (t.val / 512) 5 1 else s
    let c := b.setCtx p ch.val { s.ctx p ch.val with delivered := (s.ctx p ch.val).delivered ++ [t.val] }
    let x : Tile := { s.tile t with laces := (s.tile t).laces.filter (fun l => l.ch ≠ ch.val) }
    let d := BitVec.ofNat 4 w.dst
    let lanes := if w.op = 4 ∨ w.op = 5 then [0, 1, 2, 3, 4, 5, 6, 7, 16, 17, 18, 19, 20, 21, 22, 23] else if w.op = 6 then List.range 32 else List.range 8
    let err := if upset = 2 ∧ m.err = none then some .eccUncorrected else m.err
    (w.op = 11 → err = none → exec (.laceResult t ⟨ch, upset⟩) s = .next (c.setTile t (x.count wLaceOps 1))) ∧
    (w.op = 11 → err = some .eccUncorrected → exec (.laceResult t ⟨ch, upset⟩) s = .next (c.setTile t { x.count wLaceOps 1 with eccSeen := true })) ∧
    (w.op ≠ 11 → err = none → m.data.length = lanes.length → ∃ v : VReg, exec (.laceResult t ⟨ch, upset⟩) s = .next (c.setTile t ((x.setV d v).count wLaceOps 1)) ∧
      (∀ l < 32, v.lanePoison l = false) ∧ (∀ l < 32, l ∉ lanes → v.lane l = 0) ∧
      ∀ i (h : i < lanes.length), v.lane (lanes[i]) = m.data.getD i 0 % 2 ^ 32) ∧
    (w.op ≠ 11 → err = some .eccUncorrected → ∃ v : VReg, exec (.laceResult t ⟨ch, upset⟩) s = .next (c.setTile t { (x.setV d v).count wLaceOps 1 with eccSeen := true }) ∧
      ∀ l < 32, v.lane l = 0 ∧ (v.lanePoison l = true ↔ l ∈ lanes)) ∧
    (∀ st, err = some st → st ≠ .eccUncorrected → exec (.laceResult t ⟨ch, upset⟩) s =
      .next (State.setTile (if st = .laceTimeout then c.lightBump (t.val / 512) 7 1 else c) t { x with asyncFaults := x.asyncFaults ++ [(w.seq, w.index, st)] }))) ∧
  (∀ (t : TileId) (s : State) (b : Broadcast) (k : TileTask), (s.tile t).bcast = some b → (s.tile t).task = some k → 32 * b.beat < b.len →
    ∃ u : State, exec (.programBeat t false) s = .next u ∧
      let n := min 32 (b.len - 32 * b.beat)
      let a := tileAddr t.val (32 * b.beat)
      (∀ i < n, memByte u.mem.cells (a + i) = BitVec.ofNat 8 (memNat b.image (32 * b.beat) n / 2 ^ (8 * i))) ∧
      (∀ c, c < a ∨ a + n ≤ c → memByte u.mem.cells c = memByte s.mem.cells c) ∧
      u.tile t = (if b.len ≤ 32 * b.beat + n then { s.tile t with bcast := none, progLen := b.len } else { s.tile t with bcast := some { b with beat := b.beat + 1 } }) ∧
      (∀ v : TileId, v ≠ t → u.tile v = s.tile v)) ∧
  (∀ (t : TileId) (s : State),
    (s.reservedWord t = true → s.tileQuiet t = false → exec (.insnFault t) s = .next (s.faultAt t .illegalEncoding)) ∧
    (∀ i st k, s.reservedWord t = false → (s.tile t).fault = some (i, st) → (s.tile t).task = some k → s.tileQuiet t = true →
      let u := State.lightBump (s.setTile t { Tile.event (Tile.event (s.tile t) s.calends 0x03 (Status.code st * 65536 + i % 2048)) s.calends 0x02 (Status.code st * 65536 + k.taskId.toNat / 2 ^ 24) with
        task := none, fault := none, asyncFaults := [], tincs := [], watch := none, ended := false }) (t.val / 512) 6 1
      exec (.insnFault t) s = .next (match s.task (t.val / 512) k.queue k.slot with
        | some e => u.failTask (t.val / 512) k.queue e st [t.val]
        | none => u)))

/-- R154 and R157: words and instructions of a tile correspond. -/
def Obligations.TileWordsAndInstructionsCorrespond : Prop :=
  (∀ (i : Instr) (w : BitVec 64), tileWord i = some w → ∃ t, tileDecode t w = some i) ∧
  (∀ (t : TileId) (i : Instr) (w : BitVec 64), tileDecode t w = some i → tileWord i = some w)

/-- R149, R153, R188, R189, R207 and R510: where a tile issues nothing. -/
def Obligations.TileThatMayNotIssueIsLeftAlone : Prop :=
  ∀ (t : TileId) (w : BitVec 64) (i : Instr) (s : State), tileDecode t w = some i →
    let x := s.tile t
    let c := t.val / 512
    let a := tileAddr t.val (8 * x.pc)
    (x.task = none ∨ x.ended = true ∨ x.stopped = true ∨ x.fault.isSome = true ∨ x.asyncFaults ≠ [] ∨ x.bcast.isSome = true ∨ x.progLen / 8 ≤ x.pc ∨
      s.hungCluster c = true → exec i s = .next s) ∧
    (x.canIssue = true → s.hungCluster c = false →
      (s.offSlot c = true → exec i s = .next (s.setTile t (x.count wDutyHold 1))) ∧
      (s.offSlot c = false → (s.condAt a).bad = true → exec i s = .next ((s.load a 8).2.setTile t { (s.load a 8).2.tile t with fault := some (((s.load a 8).2.tile t).pc, .eccUncorrected), held := none })))

/-- R153, R158 and R160: PC and the loops of a tile. -/
def Obligations.TileInstructionsKeepPcAndLoops : Prop :=
  ∀ (t : TileId) (w : BitVec 64) (i : Instr) (s u : State) (rest : List Instr),
    let inv := fun (x : Tile) => x.pc ≤ x.progLen / 8 ∧ x.loops.length ≤ 4 ∧
      (∀ l ∈ x.loops, l.first ≤ l.last ∧ l.last < x.progLen / 8 ∧ 1 ≤ l.left ∧ l.first ≤ x.pc ∧ x.pc ≤ l.last) ∧
      x.loops.Pairwise (fun a b => b.first ≤ a.first ∧ a.last ≤ b.last)
    tileDecode t w = some i → s.pending = i :: rest → inv (s.tile t) → step s = .next u → inv (u.tile t)

/-- The reset values of R57, R123, R133, R148, R152, R212, R278, R380, R470, R531 and R535. -/
def Obligations.ResetLeavesTheStatedValues : Prop :=
  State.reset.pending = [] ∧ State.reset.calends = 0 ∧
  (∀ t, (State.reset.tile t).progLen = 0 ∧ (State.reset.tile t).role = .m ∧ (State.reset.tile t).kind0 = .fp ∧ (State.reset.tile t).kind1 = .fp ∧
    (State.reset.tile t).early0 = false ∧ (State.reset.tile t).early1 = false ∧ (State.reset.tile t).flags = 0 ∧ (State.reset.tile t).task = none ∧
    (State.reset.tile t).loops = [] ∧ (State.reset.tile t).pc = 0 ∧ ∀ n, (State.reset.tile t).vreg n = ⟨0, 0⟩) ∧
  (∀ a, memByte State.reset.mem.cells a = 0 ∧ State.reset.condAt a = .clean) ∧ Memory.wf State.reset.mem.cells ∧
  (∀ c q n, State.reset.queue c q = [] ∧ Sparse.get 0 (State.reset.seq c).tallies n = 0 ∧ (State.reset.seq c).epoch = 0) ∧
  (∀ p, (State.reset.partition p).state = .dissolved ∧ (State.reset.partition p).clusters = 0) ∧
  State.reset.net.flights = [] ∧ State.reset.net.isolated = [] ∧
  (∀ p ch, (State.reset.ctx p ch).active = false ∧ (State.reset.ctx p ch).ended = 0) ∧
  (∀ d, State.reset.domain d = .off) ∧ State.reset.power.thermalDuty = 8 ∧ State.reset.power.dieTempMax = -40 ∧
  State.reset.vigil.scope = 255 ∧ State.reset.vigil.count = 0 ∧ State.reset.dict.staged = [] ∧ State.reset.dict.commitNo = 0

/-- R192, R194, R196, R199, R202 and R207: fetch, readiness, the epoch wait and the duty. -/
def Obligations.TasksAreFetchedAndBecomeReady : Prop :=
  (∀ (c : ClusterId) (q : Fin 16) (host : HostData) (s : State) (x : Cmd) (a pos slot : Nat),
    s.nextItem c.val q.val = some (x, a, pos) → slot < 64 → (∀ t ∈ s.queue c.val q.val, t.slot ≠ slot) →
    (∀ k < slot, ∃ t ∈ s.queue c.val q.val, t.slot = k) →
    let r := s.deviceRead (0x2000 + c.val) 0 x.key.vi x.part a 256 host
    let u := r.s.updCmd x.key (fun y => { y with items := y.items.erase (c.val, a, pos), live := y.live + 1 })
    let t : Task := { slot := slot, desc := r.val, cmd := x.key, pos := pos, phase := .pending }
    let w := u.setQueue c.val q.val (s.queue c.val q.val ++ [t])
    let wait := w.objIn c.val (0x4013 + 0x100 * c.val) 2 100000
    (r.st = .ok → r.poison = 0 → u.checkTask c.val x.key.vi (runSession x.entry) r.val = .ok →
      (0 < taskNwait r.val → exec (.taskFetch c q host) s = .next w) ∧
      (taskNwait r.val = 0 → wait ≠ 0 → exec (.taskFetch c q host) s = .next (w.setTask c.val q.val { t with phase := .ready, readyAt := w.calends, epochWait := wait }))) ∧
    (∀ st, st ≠ .ok → r.st = st ∨ (r.st = .ok ∧ r.poison ≠ 0 ∧ st = .eccUncorrected) ∨ (r.st = .ok ∧ r.poison = 0 ∧ u.checkTask c.val x.key.vi (runSession x.entry) r.val = st) →
      exec (.taskFetch c q host) s = .next (w.failTask c.val q.val t st []))) ∧
  (∀ (c : ClusterId) (q : Fin 16) (slot : Fin 64) (s : State) (t : Task), s.task c.val q.val slot.val = some t → t.phase = .pending →
    (∀ w ∈ taskWaits t.desc, reaches (Sparse.get 0 (s.seq c.val).tallies w.1) (BitVec.ofNat 32 w.2) = true) →
    let w := s.objIn c.val (0x4013 + 0x100 * c.val) 2 100000
    w ≠ 0 ∨ s.epochReached c.val (((s.cmd t.cmd).map (·.entry)).getD 0) = true → exec (.taskReady c q slot) s = .next (s.setTask c.val q.val { t with phase := .ready, readyAt := s.calends, epochWait := w })) ∧
  (∀ (c : ClusterId) (q : Fin 16) (slot : Fin 64) (s : State) (t : Task) (x : Cmd), s.task c.val q.val slot.val = some t → t.phase = .ready →
    s.cmd t.cmd = some x → s.epochReached c.val x.entry = false →
    ∃ u : State, exec (.epochWaitTimeout c q slot) s = .next u ∧ u.task c.val q.val slot.val = none ∧ u.calends = s.calends) ∧
  (∀ s, ∃ u : State, exec .dutySlot s = .next u ∧
    (∀ c < 8, (u.seq c).duty = min (s.obj (0x4013 + 0x100 * c) 0 8) s.power.thermalDuty ∧ ({ u.seq c with duty := 0 } : Sequencer) = { s.seq c with duty := 0 }) ∧
    u.tiles = s.tiles ∧ u.mem = s.mem ∧ u.net = s.net ∧ u.host = s.host)

/-- R152, R187, R196, R199 to R204 and R537: dispatch and the end of a task. -/
def Obligations.TasksStartAndEndOnTheirTiles : Prop :=
  (∀ (c : ClusterId) (host : HostData) (b : State) (q : Nat) (t : Task),
    let s := b.applyAtBoundary c.val
    (b.dict.commits = [] → ({ s.seq c.val with force := false } : Sequencer) = { b.seq c.val with force := false } ∧ s.tiles = b.tiles ∧ s.mem = b.mem ∧ s.dict = b.dict ∧ s.net = b.net) ∧
    ((∀ k, (s.seq c.val).lastDispatch = some k → k + 4 ≤ s.calends) →
    s.nextDispatch c.val = some (q, t) →
    (s.domain c.val = .off → exec (.taskDispatch c host) b = .next (s.setDomain c.val .waking)) ∧
    (s.domain c.val = .on → taskTiles c.val t.desc ≠ [] →
      taskProgLen t.desc = 0 ∨ (∀ v ∈ taskTiles c.val t.desc, Sparse.get none (s.seq c.val).programs v = some (taskProgAddr t.desc, taskProgLen t.desc)) →
      ∃ u : State, exec (.taskDispatch c host) b = .next u ∧ (u.seq c.val).lastDispatch = some s.calends ∧
        (∀ v : TileId, v.val ∉ taskTiles c.val t.desc → u.tile v = s.tile v) ∧
        (∀ v : TileId, v.val ∈ taskTiles c.val t.desc →
          (u.tile v).task = some ⟨q, t.slot, BitVec.ofNat 32 (taskId t.desc), t.cmd.vi, (s.partOfCluster c.val).getD 0, 3 - s.queuePrio c.val q⟩ ∧
          (u.tile v).pc = 0 ∧ (u.tile v).loops = [] ∧ (u.tile v).fault = none ∧ (u.tile v).bcast = none ∧ (u.tile v).role = taskRole t.desc ∧
          ((u.tile v).ended = true ↔ taskProgLen t.desc = 0) ∧
          (∀ n, (u.tile v).vreg n = ⟨0, 0⟩) ∧
          (∀ w < 12, (u.tile v).greg (BitVec.ofNat 4 w) = ⟨BitVec.ofNat 64 (taskArg t.desc w), false⟩) ∧
          (u.tile v).greg 12 = ⟨BitVec.ofNat 64 ((taskTiles c.val t.desc).idxOf v.val), false⟩ ∧
          (u.tile v).greg 13 = ⟨BitVec.ofNat 64 (taskTiles c.val t.desc).length, false⟩ ∧ (u.tile v).greg 14 = ⟨BitVec.ofNat 64 v.val, false⟩)))) ∧
  (∀ (c : ClusterId) (q : Fin 16) (slot : Fin 64) (s : State) (t : Task), s.task c.val q.val slot.val = some t → t.phase = .dispatched →
    (∀ v : TileId, v.val ∈ taskTiles c.val t.desc → (s.tile v).ended = true ∧ (s.tile v).bcast = none ∧ (s.tile v).fault = none ∧ (s.tile v).asyncFaults = [] ∧
      (s.tile v).stopped = false ∧ s.tileQuiet v = true) →
    ∃ u : State, exec (.taskDone c q slot) s = .next u ∧ u.task c.val q.val slot.val = none ∧
      (∀ v : TileId, v.val ∈ taskTiles c.val t.desc → (u.tile v).task = none) ∧ (∀ v : TileId, v.val ∉ taskTiles c.val t.desc → u.tile v = s.tile v) ∧
      (∀ n, Sparse.get 0 (u.seq c.val).tallies n = Sparse.get 0 (s.seq c.val).tallies n + BitVec.ofNat 32 (((taskIncs t.desc).filter (fun i => i.1 = n)).map (·.2)).sum))

/-- R209, R210, R395, R396, R397, R492 and R503: latches, records and completions. -/
def Obligations.CommandsAreLatchedAndCompleted : Prop :=
  ∀ (v : ViId) (r : RingId) (seq : Nat) (s : State) (x : Cmd), s.cmd ⟨v.val, r.val, seq⟩ = some x → (s.vi v.val).resetting = none →
    let put := fun (w : State) (a n d : Nat) => w.hostWrite v.val ((s.translated v.val (a - 0x400000000000)).getD (a - 0x400000000000)) n d 0
    (x.start = none → x.refused = false → ∃ u : State, ∃ y : Cmd, exec (.latchStart v r seq) s = .next u ∧ u.cmd ⟨v.val, r.val, seq⟩ = some y ∧
      ({ y with shared := 0 } : Cmd) = { x with start := some s.latch, shared := 0 } ∧
      (∀ k, k ≠ ⟨v.val, r.val, seq⟩ → u.cmd k = s.cmd k) ∧ { u with host := {} } = { s with host := {} } ∧
      (∀ c < 8, y.shared.getLsbD c = (x.shared.getLsbD c || (s.seq c).queues.any (fun q => q.2.any (fun t => decide (t.phase = .dispatched) && decide (t.cmd ≠ ⟨v.val, r.val, seq⟩)))))) ∧
    (∀ a, x.start = some a → x.phase = .ended →
      let addr := entryW x.entry 1 % 2 ^ 48
      let recorded := s.updCmd ⟨v.val, r.val, seq⟩ (fun y => { y with phase := .recorded })
      let record := fun (at_ : Nat) => ofLanes 64 (s.record x a s.latch at_)
      (addr = 0 → exec (.latchEnd v r seq) s = .next recorded) ∧
      (0x400000000000 ≤ addr → s.host.linkState = 2 → (s.vi v.val).busMaster = true →
        (x.block.elements = 0 → addr + 0x100 ≤ 0x800000000000 → exec (.latchEnd v r seq) s = .next (put recorded addr 256 (record 0))) ∧
        (0 < x.block.elements → addr + 0x180 ≤ 0x800000000000 →
          exec (.latchEnd v r seq) s = .next (put (put recorded addr 256 (record (addr + 0x100))) (addr + 0x100) 128 (ofLanes 64 x.block.words))))) ∧
    (x.phase = .recorded → (∀ y ∈ s.host.cmds, y.key.vi = v.val → y.phase = .recorded → x.tEnd ≤ y.tEnd) →
      let y := s.vi v.val
      let a := y.cqBase + 32 * (y.cqTail % y.cqSize)
      let vec := entryW x.entry 0 / 2 ^ 16 % 32
      y.cqEnable = true → y.busMaster = true → s.host.linkState = 2 → 0x400000000000 ≤ a → a + 32 ≤ 0x800000000000 → (y.cqTail + 2 ^ 32 - y.cqHead) % 2 ^ 32 ≠ y.cqSize →
      ∃ d : Nat,
        let sent := (put s a 32 d).setVi v.val { y with cqTail := (y.cqTail + 1) % 2 ^ 32 }
        let u : State := { sent with host := { sent.host with cmds := s.host.cmds.filter (fun c => c.key ≠ ⟨v.val, r.val, seq⟩) } }
        exec (.completionWrite v r seq) s = .next (if (entryW x.entry 0).testBit 8 ∧ vec ≤ 30 then u.raiseVector v.val vec else u) ∧
        d % 2 ^ 32 = entryW x.entry 0 / 2 ^ 32 % 2 ^ 32 ∧ d / 2 ^ 37 % 2 = (if y.cqTail / y.cqSize % 2 = 0 then 1 else 0) ∧ d / 2 ^ 38 % 4 = r.val ∧
        d / 2 ^ 40 % 2 ^ 8 = Status.code x.status ∧ d / 2 ^ 48 % 2 ^ 16 = entryOp x.entry ∧
        d / 2 ^ 64 % 2 ^ 64 = seq % 2 ^ 32 ∧ d / 2 ^ 128 % 2 ^ 64 = x.result % 2 ^ 64 ∧ d / 2 ^ 192 = s.calends % 2 ^ 64)

/-- R214, R221, R222, R224 to R226, R231 to R233, R237, R238, R240, R242 and R243: the combine of an eyelet and the ends of an
operation. OP 15 marks a message that is no member's: an identity or an ERR formed in the tree (log entry 93); the root whose
LACE_ROOT_CONFLICTS grows is the model's choice (log entry 92). -/
def Obligations.LacingOperationsCombineAndEnd : Prop :=
  (∀ (p : PartId) (ch : Chan) (e upset : Nat) (s : State) (l : List LaceMsg),
    let x := s.ctx p.val ch.val
    let parent := s.obj 0x3200 1 255
    (s.partition p.val).state ≠ .hung → e ≤ 586 → x.active = true ∨ (e = 586 ∧ s.passesIdentity p.val ch.val = true) → x.result = none →
    Sparse.get none x.passed e = none → eyeletLevel e < eyeletLevel (s.apex p.val ch.val) ∨ e = s.apex p.val ch.val →
    x.expected.any (belowEyelet e) = true ∨ (e = 586 ∧ s.domainScope p.val ch.val = true) → s.childMessages p.val ch.val e = some l →
    let order : List Status := [.laceTimeout, .linkDown, .aborted, .illegalEncoding, .eccUncorrected]
    (∀ k ∈ l, ∀ st, k.err = some st → st ∈ order) →
    let own := l.filter (fun k => k.op ≠ 15)
    let first := own.headD { op := 15, k := 0 }
    let mis := own.any (fun k => k.op ≠ first.op || k.k ≠ first.k)
    let err := order.find? (fun st => l.any (fun k => k.err = some st) || (mis && st = .illegalEncoding))
    let joined := (own.drop 1).foldl (laceJoin first.op first.k x.sweep) first
    let m : LaceMsg := if err ≠ none then { first with err := err, data := [] } else if upset = 2 then { joined with err := some .eccUncorrected, data := [] } else joined
    let c := if e < 512 then e / 64 else if e < 576 then (e - 512) / 8 else e - 576
    let s1 := if e < 584 ∧ upset = 1 then s.lightBump c 4 1 else if e < 584 ∧ upset = 2 then s.lightBump c 5 1 else s
    let s2 := if mis = true ∧ x.mismatch = false then s1.laceCount p.val 1 else s1
    let y := { x with active := true, passed := Sparse.set none x.passed e (some m), mismatch := x.mismatch || mis }
    let send := fun (w : State) (o : List (Nat × Nat × Bool × LaceMsg)) => { w with lacing := { w.lacing with toPorts := w.lacing.toPorts ++ o } }
    let down := fun (r : LaceMsg) => if s.domainScope p.val ch.val then s.childPorts.map (fun n => (n, 4 * p.val + ch.val, true, r)) else []
    let sums := m.err = none ∧ (m.op = 1 ∨ m.op = 12)
    let out : LaceMsg := if sums ∧ x.sweep ≠ 1 then { m with data := List.zipWith sumrResult m.data (x.key.getD []) }
      else if m.op = 10 ∧ m.roots = 0 ∧ m.err = none then { m with data := List.replicate 8 0 } else m
    (e ≠ s.apex p.val ch.val → exec (.eyeletCombine p ch e upset) s = .next (s2.setCtx p.val ch.val y)) ∧
    (e = s.apex p.val ch.val → s.domainScope p.val ch.val = false ∨ parent = 255 →
      let s3 := if m.err = none ∧ m.op = 10 ∧ m.roots ≠ 1 then s2.laceCount p.val 2 else s2
      exec (.eyeletCombine p ch e upset) s = .next ((send s3 (down out)).setCtx p.val ch.val
        (if sums ∧ x.sweep = 1 then { y with sweep := 2, key := some m.data, passed := [], childMsgs := [], sentUp := false }
        else { y with result := some out, childMsgs := [], sentUp := false }))) ∧
    (e = s.apex p.val ch.val → s.domainScope p.val ch.val = true → parent ≠ 255 →
      let lost : LaceMsg := { m with err := some .linkDown, data := [] }
      exec (.eyeletCombine p ch e upset) s = .next (if s.linked parent
        then (send s2 [(parent, 4 * p.val + ch.val, false, m)]).setCtx p.val ch.val { y with sentUp := true }
        else (send s2 (down lost)).setCtx p.val ch.val { y with result := some lost, childMsgs := [], sentUp := false }))) ∧
  (∀ (p : PartId) (ch : Chan) (e upset : Nat) (s : State), s.eyeletWorks p.val ch.val e = false ∨ s.childMessages p.val ch.val e = none →
    exec (.eyeletCombine p ch e upset) s = .next s) ∧
  (∀ (p : PartId) (ch : Chan) (s : State), (s.ctx p.val ch.val).active = true → (s.ctx p.val ch.val).result.isSome = true →
    (∀ t ∈ (s.ctx p.val ch.val).expected, s.laceAwaits p.val ch.val t = false) →
    ∃ u : State, exec (.laceOpEnd p ch) s = .next u ∧ (u.ctx p.val ch.val).ended = ((s.ctx p.val ch.val).ended + 1) % 2 ^ 32 ∧ (u.ctx p.val ch.val).result = none ∧
      ((s.ctx p.val ch.val).heldNext = [] → (u.ctx p.val ch.val).active = false) ∧
      ((s.ctx p.val ch.val).heldNext ≠ [] → (u.ctx p.val ch.val).active = true ∧ (u.ctx p.val ch.val).start = s.calends ∧
        (u.ctx p.val ch.val).expected = s.members p.val ch.val ∧
        ∀ t m, Sparse.get none (s.ctx p.val ch.val).heldNext t = some m → Sparse.get none (u.ctx p.val ch.val).arrived t = some m) ∧
      u.tiles = s.tiles ∧ u.mem = s.mem ∧ (∀ a b, 4 * a + b ≠ 4 * p.val + ch.val → u.ctx a b = s.ctx a b)) ∧
  (∀ (p : PartId) (ch : Chan) (n : NewenId) (s : State) (i : Instr) (skip : Option Nat),
    let parent := s.obj 0x3200 1 255
    let ports := if s.domainScope p.val ch.val then ((if parent = 255 then [] else [(parent, false)]) ++ s.childPorts.map (fun n => (n, true))).filter (fun e => some e.1 ≠ skip) else []
    let sent := ports.map (fun e : Nat × Bool => (e.1, 4 * p.val + ch.val, e.2, ({ err := some .laceTimeout, op := 15, k := 0 } : LaceMsg)))
    ((i = .laceTimeout p ch ∧ skip = none ∧ (s.partition p.val).state ≠ .hung ∧ (s.ctx p.val ch.val).timed = true ∧
        ((s.ctx p.val ch.val).result = none ∨ ∃ t ∈ (s.ctx p.val ch.val).expected, s.laceAwaits p.val ch.val t = true)) ∨
      (i = .domainEndMessage p ch n ∧ skip = some n.val ∧ s.domainScope p.val ch.val = true) → (s.ctx p.val ch.val).active = true →
    ∃ u : State, exec i s = .next u ∧ (u.ctx p.val ch.val).ended = ((s.ctx p.val ch.val).ended + 1) % 2 ^ 32 ∧ (u.ctx p.val ch.val).result = none ∧
      Sparse.get 0 u.lacing.counters (3 * p.val) = (Sparse.get 0 s.lacing.counters (3 * p.val) + 1) % 2 ^ 32 ∧ u.mem = s.mem ∧
      u.lacing.toPorts = s.lacing.toPorts ++ sent ∧
      (∀ (t : TileId) (w : LaceWait), t.val ∈ (s.ctx p.val ch.val).expected → s.laceAwaits p.val ch.val t.val = true →
        (s.tile t).laces.find? (fun l => l.ch = ch.val) = some w →
        u.tile t = { s.tile t with laces := (s.tile t).laces.filter (fun l => l.ch ≠ ch.val), asyncFaults := (s.tile t).asyncFaults ++ [(w.seq, w.index, .laceTimeout)] }) ∧
      (∀ t : TileId, t.val ∉ (s.ctx p.val ch.val).expected ∨ s.laceAwaits p.val ch.val t.val = false → u.tile t = s.tile t)) ∧
    (i = .domainEndMessage p ch n → skip = some n.val → (s.ctx p.val ch.val).active = false →
      exec i s = .next { s with lacing := { s.lacing with toPorts := s.lacing.toPorts ++ sent } }))

/-- R252, R255, R261 to R265, R289, R290, R293, R300: packets that arrive. -/
def Obligations.PacketsAreCheckedWhereTheyArrive : Prop :=
  (∀ r ∈ requestRows, ∀ (p : Packet) (s : State),
    let q := Packet.arriving p r.2
    let n := q.dest.toNat
    let mesh := s.cameByMesh q
    let t := s.consume q
    let i := (slotIndex q.src.toNat q.tag.toNat).getD 0
    (q.crcOk = false → exec (r.1 p) s = .next (t.discard q)) ∧
    (∀ d, q.crcOk = true → s.porchBlocks n = some d →
      exec (r.1 p) s = .next (if 64 ≤ (s.porch d).packets.length then s else t.porchEnter d (t.beforePorch q) mesh)) ∧
    (q.crcOk = true → s.porchBlocks n = none →
      (s.shimActive n = true → exec (r.1 p) s = .next (t.answerFor q mesh .targetIsolated)) ∧
      (s.shimActive n = false → Packet.illegal q = true →
        (isRequest q.cmd.toNat = true ∨ (cmdVc q.cmd.toNat q.bulk = none ∧ q.vc = 1) → exec (r.1 p) s = .next (t.respond q mesh (answerCmd q.cmd.toNat) .illegalEncoding 0 0)) ∧
        (isRequest q.cmd.toNat = false → cmdVc q.cmd.toNat q.bulk ≠ none ∨ q.vc ≠ 1 → exec (r.1 p) s = .next (t.discard q))) ∧
      (s.shimActive n = false → Packet.illegal q = false → Packet.crosses q = true → exec (r.1 p) s = .next (t.respond q mesh (answerCmd r.2) .outOfRange 0 0))) ∧
    (s.getsThrough q = true → Packet.crosses q = false → ∃ u : State, exec (r.1 p) s = .next u ∧
      (u.target n).intake.length = (s.target n).intake.length + 1 ∧ (u.target n).shimMap = Sparse.set none (s.target n).shimMap i (some q.tag.toNat) ∧
      let e : IntakeEntry := { pkt := q, arrival := s.calends, mesh := mesh }
      ((∀ x ∈ (s.target n).intake, x.pkt.cmd.toNat = 0x03 → x.phase ≠ .waiting) → r.2 ≠ 0x03 →
        (u.target n).intake = (s.target n).intake ++ [e] ∧ (u.target n).pullUsed = (s.target n).pullUsed) ∧
      ((∀ x ∈ (s.target n).intake, x.pkt.cmd.toNat = 0x03 → x.phase ≠ .waiting) → r.2 = 0x03 →
        (s.target n).pullUsed + q.bytes.toNat ≤ pullRoom n → (∀ x ∈ (s.target n).intake, x ≠ e) →
        (u.target n).intake = (s.target n).intake ++ [{ e with phase := .pulling }] ∧
        (u.target n).pullUsed = (s.target n).pullUsed + q.bytes.toNat) ∧
      (∀ k, k ≠ n → u.target k = s.target k) ∧ u.mem = s.mem ∧ u.seqs = s.seqs ∧ u.power = s.power)) ∧
  (∀ r ∈ messageRows, ∀ (p : Packet) (s : State),
    let q := Packet.arriving p r.2
    let n := q.dest.toNat
    let mesh := s.cameByMesh q
    let t := s.consume q
    (q.crcOk = false → exec (r.1 p) s = .next (t.discard q)) ∧
    (q.crcOk = true → Packet.illegal q = true →
      (cmdVc q.cmd.toNat q.bulk ≠ none ∨ q.vc ≠ 1 → exec (r.1 p) s = .next (t.discard q)) ∧
      (cmdVc q.cmd.toNat q.bulk = none → q.vc = 1 → exec (r.1 p) s = .next (t.respond q mesh 0x11 .illegalEncoding 0 0))) ∧
    (q.crcOk = true → Packet.illegal q = false →
      (∀ d, s.porchBlocks n = some d → exec (r.1 p) s = .next (if 64 ≤ (s.porch d).packets.length then s else t.porchEnter d (t.beforePorch q) mesh)) ∧
      (s.porchBlocks n = none → s.shimActive n = true → exec (r.1 p) s = .next (t.answerFor q mesh .targetIsolated)))) ∧
  (∀ (q : Packet) (s : State), Sparse.get 0 (s.discard q).net.errors (6 * errorScope q.dest.toNat + 2) =
    Sparse.get 0 s.net.errors (6 * errorScope q.dest.toNat + 2) + 1)

/-- R162, R196, R198, R256, R263 to R265, R277, R290, R293: what messages and ageing do. -/
def Obligations.MessagesChangeTheirTargets : Prop :=
  (∀ (p : Packet) (s : State), s.getsThrough (Packet.arriving p 0x04) = true →
    let q := Packet.arriving p 0x04
    let n := q.dest.toNat
    let f := (s.target n).intake.find? (fun e => e.pkt.src = q.src && e.pkt.tag = q.tag && e.phase = .pulling)
    (f = none → exec (.pullData p) s = .next ((s.consume q).discard q)) ∧
    (∀ e, f = some e →
      (q.status ≠ 0 → exec (.pullData p) s = .next (((s.consume q).countReceived q).finishEntry n e .timeout 0 0)) ∧
      (q.status = 0 → exec (.pullData p) s = .next (((s.consume q).countReceived q).setTarget n { s.target n with
        intake := (s.target n).intake.map (fun i => if i = e then { e with phase := .pulled, pkt := { e.pkt with payload := q.payload, poisoned := q.poisoned, poison := q.poison } } else i) })))) ∧
  (∀ (p : Packet) (s : State) (i : Nat), s.getsThrough (Packet.arriving p 0x20) = true → slotIndex p.src.toNat p.tag.toNat = some i →
    let q := Packet.arriving p 0x20
    exec (.slotAsk p) s = .next ((s.consume q).setTarget p.dest.toNat { s.target p.dest.toNat with
      asks := (s.target p.dest.toNat).asks.filter (fun a => a.idx ≠ i) ++ [{ idx := i, tag := p.tag.toNat, vi := p.vi.toNat, part := p.part.toNat, priority := p.priority.toNat }] })) ∧
  (∀ (p : Packet) (s : State) (i : Nat), s.getsThrough (Packet.arriving p 0x27) = true → slotIndex p.src.toNat p.tag.toNat = some i →
    let q := Packet.arriving p 0x27
    exec (.slotReturn p) s = .next ((s.consume q).setTarget p.dest.toNat { s.target p.dest.toNat with
      lent := (s.target p.dest.toNat).lent.erase (i, p.tag.toNat) })) ∧
  (∀ (t : TileId) (s : State) (a : SlotAsk), (s.target t.val).lent.length < 16 → s.shimActive t.val = false → s.routesLoaded = true →
    let x := s.target t.val
    let dist := fun (b : SlotAsk) => (b.idx + 4160 - (x.lastGrant.elim 0 (· + 1)) % 4160) % 4160
    a ∈ x.asks → (∀ b ∈ x.asks, b ≠ a → dist a < dist b) →
    exec (.slotGrantSend t) s = .next ((s.setTarget t.val { x with asks := x.asks.erase a, lastGrant := some a.idx, lent := x.lent ++ [(a.idx, a.tag)] }).sendControl 0x21 t.val (slotNode a.idx) a.tag 0 (a.vi, a.part, a.priority) 0 0)) ∧
  (∀ (p : Packet) (s : State) (c : Nat), s.getsThrough (Packet.arriving p 0x22) = true → nodeKind p.dest.toNat = some (.sequencer c) →
    let q := Packet.arriving p 0x22
    let n := p.address.toNat % 256
    let v := Sparse.get 0 (s.seq c).tallies n + BitVec.ofNat 32 p.payload
    let met := (s.seq c).watches.filter (fun w => w.tally = n && decide ((v - BitVec.ofNat 32 w.target).toNat < 2 ^ 31))
    exec (.tallyAdd p) s = .next (met.foldl (fun s w => s.sendControl 0x24 (0x2000 + c) w.tile w.tag n (w.vi, (s.partOfCluster c).getD 0, 2) 0 0)
      ((s.consume q).setSeq c { s.seq c with tallies := Sparse.set 0 (s.seq c).tallies n v, watches := (s.seq c).watches.filter (fun w => !(met.contains w)) }))) ∧
  (∀ (p : Packet) (s : State) (c : Nat), s.getsThrough (Packet.arriving p 0x23) = true → nodeKind p.dest.toNat = some (.sequencer c) →
    let q := Packet.arriving p 0x23
    let n := p.address.toNat % 256
    let target := BitVec.ofNat 32 p.payload
    ((Sparse.get 0 (s.seq c).tallies n - target).toNat < 2 ^ 31 →
      exec (.tallyWatch p) s = .next ((s.consume q).sendControl 0x24 (0x2000 + c) p.src.toNat p.tag.toNat n (p.vi.toNat, (s.partOfCluster c).getD 0, 2) 0 0)) ∧
    (¬ (Sparse.get 0 (s.seq c).tallies n - target).toNat < 2 ^ 31 →
      exec (.tallyWatch p) s = .next ((s.consume q).setSeq c { s.seq c with
        watches := (s.seq c).watches.filter (fun w => w.tile ≠ p.src.toNat) ++ [{ tile := p.src.toNat, tag := p.tag.toNat, tally := n, target := target.toNat, vi := p.vi.toNat }] }))) ∧
  (∀ (p : Packet) (s : State) (t : TileId) (w : Watch), s.getsThrough (Packet.arriving p 0x24) = true → p.dest.toNat = t.val →
    (s.tile t).watch = some w → w.tally = p.address.toNat % 256 →
    exec (.tallyMet p) s = .next ((s.consume (Packet.arriving p 0x24)).setTile t { s.tile t with watch := some { w with met := true } })) ∧
  (∀ (n src : NodeId) (tag : BitVec 12) (s : State) (e : IntakeEntry),
    (s.target n.toNat).intake.find? (fun e => e.pkt.src = src && e.pkt.tag = tag && !e.urgent && e.phase ≠ .inService) = some e →
    ({ e with aged := some s.calends } : IntakeEntry).urgent = true ∧
    exec (.intakeAged n src tag) s = .next (s.setTarget n.toNat { s.target n.toNat with
      intake := (s.target n.toNat).intake.map (fun i => if i = e then { e with aged := some s.calends } else i) })) ∧
  (∀ (p : Packet) (s : State) (c : Fin 8),
    let q := Packet.arriving p 0x02
    let t := s.arriveRequest q
    p.dest.toNat = 0x2000 + c.val →
    (s.entryOf q = none → exec (.tallySlotWrite p) s = if (t.entryOf q).isSome then exec (.tallySlotWrite p) t else .next t) ∧
    ∀ e, s.entryOf q = some e → s.takesNext (0x2000 + c.val) e →
    let o := (e.pkt.address.toNat - controlBase) % 0x1000000
    let n := (o - 0x1000) / 4
    let mine := s.partOfCluster c.val = some e.pkt.part.toNat
    let owner := s.obj (0x4010 + 0x100 * c.val) (n / 16) 255 = e.pkt.vi.toNat
    (o < 0x1000 ∨ 0x1400 ≤ o → exec (.tallySlotWrite p) s = .next (s.finishEntry (0x2000 + c.val) e (if o = 0x108 ∧ e.pkt.bytes.toNat = 8 then .accessLevel else .outOfRange) 0 0)) ∧
    (0x1000 ≤ o → o < 0x1400 →
      (e.pkt.bytes.toNat ≠ 4 ∨ o % 4 ≠ 0 ∨ ¬ mine → exec (.tallySlotWrite p) s = .next (s.finishEntry (0x2000 + c.val) e .outOfRange 0 0)) ∧
      (e.pkt.bytes.toNat = 4 → o % 4 = 0 → mine →
        (¬ owner → exec (.tallySlotWrite p) s = .next (s.finishEntry (0x2000 + c.val) e .accessLevel 0 0)) ∧
        (owner → exec (.tallySlotWrite p) s = .next ((s.addTally c.val n (BitVec.ofNat 32 e.pkt.payload)).finishEntry (0x2000 + c.val) e .ok 0 0))))) ∧
  (∀ (p : Packet) (s : State) (d : Nat),
    let q := Packet.arriving p 0x25
    let t := s.consume q
    (q.crcOk = false → exec (.wakeReq p) s = .next (t.discard q)) ∧
    (q.crcOk = true → Packet.illegal q = true → cmdVc q.cmd.toNat q.bulk ≠ none ∨ q.vc ≠ 1 → exec (.wakeReq p) s = .next (t.discard q)) ∧
    (q.crcOk = true → Packet.illegal q = false → domainOf p.src.toNat = some d →
      (s.domain d = .off ∨ s.domain d = .retain ∨ s.domain d = .deepSleep → exec (.wakeReq p) s = .next (t.setDomain d .waking)) ∧
      (s.domain d = .waking ∨ s.domain d = .on → exec (.wakeReq p) s = .next t))) ∧
  (∀ (n : NodeId) (s : State), (nodeKind n.toNat).isSome = true →
    ((s.target n.toNat).notes = [] → exec (.isolateNoteSend n) s = .next s) ∧
    (∀ i tag l, (s.target n.toNat).notes = (i, tag) :: l → exec (.isolateNoteSend n) s =
      .next ((s.setTarget n.toNat { s.target n.toNat with notes := l }).emitPacket none (controlPacket 0x26 n.toNat (slotNode i) tag 0 (s.noteWho n.toNat) 0x03 0))))

/-- R167, R255, R262 to R265, R276, R277, R280, R282, R283, R290, R297: how requests end. -/
def Obligations.RequestsEndAsTheirAnswersSay : Prop :=
  (∀ k ∈ [((.readResp : Packet → Instr), 0x10), (.writeAck, 0x11)], ∀ (p : Packet) (s : State), s.getsThrough (Packet.arriving p k.2) = true →
    let q := Packet.arriving p k.2
    let n := q.dest.toNat
    let src := q.src.toNat
    let t := (s.consume q).countReceived q
    (∀ r st, s.outstanding n src q.tag.toNat = some r → r.sent = true → (k.2 = 0x10 ↔ r.pkt.cmd = 0x01) → Status.ofCode q.status.toNat = some st →
      exec (k.1 p) s = .next (t.endRequest n r st ⟨q.payload, Packet.damage q⟩)) ∧
    (s.outstanding n src q.tag.toNat = none ∨ (∃ r, s.outstanding n src q.tag.toNat = some r ∧ (r.sent = false ∨ ¬ (k.2 = 0x10 ↔ r.pkt.cmd = 0x01))) →
      ((src, q.tag.toNat) ∈ (s.initiator n).held → exec (k.1 p) s = .next ((t.netCount n 25 1).release n src q.tag.toNat)) ∧
      ((src, q.tag.toNat) ∉ (s.initiator n).held → exec (k.1 p) s = .next (t.netCount n 26 1)))) ∧
  (∀ (p : Packet) (s : State), s.getsThrough (Packet.arriving p 0x12) = true →
    let q := Packet.arriving p 0x12
    let n := q.dest.toNat
    let src := q.src.toNat
    let t := s.consume q
    let data := fun (st v w : Nat) => ({ mkPacket 0x04 n src q.tag.toNat q.address.toNat q.bytes.toNat q.conv.toNat q.vi.toNat q.part.toNat q.priority.toNat st v w with ext := q.ext } : Packet)
    (∀ r, s.outstanding n src q.tag.toNat = some r → r.sent = true → r.pkt.cmd = 0x03 →
      exec (.pull p) s = .next ((t.pulledData n r).2.sendPacket (data 0 (t.pulledData n r).1.val (t.pulledData n r).1.poison)) ∧
      (r.purpose = .other → t.pulledData n r = (⟨r.pkt.payload, r.pkt.poisoned⟩, t))) ∧
    (∀ r, s.outstanding n src q.tag.toNat = some r → r.sent = false ∨ r.pkt.cmd ≠ 0x03 → exec (.pull p) s = .next (t.netCount n 26 1)) ∧
    (s.outstanding n src q.tag.toNat = none →
      ((src, q.tag.toNat) ∈ (s.initiator n).held → exec (.pull p) s = .next (t.sendPacket (data 0x02 0 0))) ∧
      ((src, q.tag.toNat) ∉ (s.initiator n).held → exec (.pull p) s = .next (t.netCount n 26 1)))) ∧
  (∀ (p : Packet) (s : State), s.getsThrough (Packet.arriving p 0x21) = true →
    let q := Packet.arriving p 0x21
    let n := q.dest.toNat
    let src := q.src.toNat
    let t := s.consume q
    (∀ r, s.outstanding n src q.tag.toNat = some r →
      (r.sent = true → exec (.slotGrant p) s = .next (t.sendControl 0x27 n src q.tag.toNat q.address.toNat (q.vi.toNat, q.part.toNat, q.priority.toNat) 0 0)) ∧
      (r.sent = false → q.status = 0 → exec (.slotGrant p) s = .next ((t.setInitiator n { s.initiator n with
          out := (s.initiator n).out.map (fun x => if x.tag = r.tag then { x with sent := true } else x) }).sendPacket
            (if r.pkt.cmd = 0x03 then { r.pkt with payload := 0, poisoned := 0, poison := false } else r.pkt))) ∧
      (∀ st, r.sent = false → q.status ≠ 0 → Status.ofCode q.status.toNat = some st → exec (.slotGrant p) s = .next (t.endRequest n r st ⟨0, 0⟩))) ∧
    (s.outstanding n src q.tag.toNat = none → exec (.slotGrant p) s = .next
      (if q.status = 0 then ((t.netCount n 25 1).release n src q.tag.toNat).sendControl 0x27 n src q.tag.toNat q.address.toNat (q.vi.toNat, q.part.toNat, q.priority.toNat) 0 0
        else (t.netCount n 25 1).release n src q.tag.toNat))) ∧
  (∀ (p : Packet) (s : State), s.getsThrough (Packet.arriving p 0x26) = true →
    let q := Packet.arriving p 0x26
    let n := q.dest.toNat
    let src := q.src.toNat
    let t := s.consume q
    (∀ r, s.outstanding n src q.tag.toNat = some r → exec (.isolateNote p) s = .next (t.endRequest n r .targetIsolated ⟨0, 0⟩)) ∧
    (s.outstanding n src q.tag.toNat = none →
      ((src, q.tag.toNat) ∈ (s.initiator n).held → exec (.isolateNote p) s = .next (t.release n src q.tag.toNat)) ∧
      ((src, q.tag.toNat) ∉ (s.initiator n).held → exec (.isolateNote p) s = .next (t.netCount n 26 1)))) ∧
  (∀ (n : Nat) (r : Req) (st : Status) (d : Loaded) (s : State) (w : Nat), r.purpose = .other → st ≠ .timeout → st ≠ .targetIsolated →
    let u := s.endRequest n r st d
    (u.initiator n).out = (s.initiator n).out.filter (fun x => x.tag ≠ r.tag) ∧ (u.initiator n).held = (s.initiator n).held ∧
    (∀ m, m ≠ n → u.initiator m = s.initiator m) ∧ u.mem = s.mem ∧ u.tiles = s.tiles ∧ u.net.targets = s.net.targets ∧
    (Sparse.get 0 (u.initiator n).stats w = (Sparse.get 0 (s.initiator n).stats w
      + (if w = (if r.pkt.cmd = 0x01 then 0 else 8) + latencyBin (s.calends - r.start) then 1 else 0)
      + (if st = .ok ∧ w = (if r.pkt.cmd = 0x01 then 28 else 29) then r.pkt.bytes.toNat else 0)) % 2 ^ 48 ∨
    2 ^ 48 ≤ Sparse.get 0 (s.initiator n).stats w)) ∧
  (∀ (t : TileId) (r : Req) (d : Loaded) (s : State) (tr : Transfer) (q : Piece), r.purpose = .piece tr.seq q → tr.isPut = false → tr.convId = 0 →
    (s.tile t).xfers.find? (fun x => x.seq = tr.seq) = some tr →
    (s.endRequest t.val r .ok d).mem = (s.store (tileAddr t.val (tr.loc + q.row * tr.locStride) + q.off) q.len d.val (d.poison % 2 ^ q.len)).mem) ∧
  (∀ (n : NodeId) (tag : BitVec 12) (target : NodeId) (s : State),
    (nodeKind n.toNat = none → exec (.tagTimeout n tag target) s = .fault .noSuchUnit) ∧
    ((nodeKind n.toNat).isSome = true → s.outstanding n.toNat target.toNat tag.toNat = none → exec (.tagTimeout n tag target) s = .next s) ∧
    (∀ r, (nodeKind n.toNat).isSome = true → s.outstanding n.toNat target.toNat tag.toNat = some r → ∃ u : State, exec (.tagTimeout n tag target) s = .next u ∧
      (u.initiator n.toNat).out = (s.initiator n.toNat).out.filter (fun x => x.tag ≠ r.tag) ∧
      (u.initiator n.toNat).held = (s.initiator n.toNat).held ++ [(r.pkt.dest.toNat, r.tag)] ∧
      (r.purpose = .other → u.mem = s.mem ∧ Sparse.get 0 (u.initiator n.toNat).stats 24 = (Sparse.get 0 (s.initiator n.toNat).stats 24 + 1) % 2 ^ 48) ∧
      (∀ (t : TileId) (tr : Transfer) (q : Piece), n.toNat = t.val → r.purpose = .piece tr.seq q → tr.isPut = false → tr.convId = 0 → 0 < q.len →
        (s.tile t).xfers.find? (fun x => x.seq = tr.seq) = some tr →
        ∀ i < q.len, u.condAt (tileAddr t.val (tr.loc + q.row * tr.locStride) + q.off + i) = .marked)))

/-- R47, R50, R130, R262 to R264, R309, R313, R600: issue and service of requests. -/
def Obligations.RequestsLeaveAndAreServed : Prop :=
  (∀ (n : NodeId) (s : State),
    (nodeKind n.toNat = none → exec (.requestIssue n) s = .fault .noSuchUnit ∧ exec (.intakeService n) s = .fault .noSuchUnit) ∧
    (∀ t : TileId, n.toNat = t.val → exec (.requestIssue n) s = exec (.transferPieceIssue t) s) ∧
    (∀ e : CeId, n.toNat = 0x2010 + e.val → exec (.requestIssue n) s = exec (.copyRequestIssue e false) s)) ∧
  (∀ (n : NodeId) (s : State) (p : Packet) (why : Purpose) (l : List (Packet × Purpose)),
    (nodeKind n.toNat).isSome = true → 0x2000 ≤ n.toNat → ¬ (0x2010 ≤ n.toNat ∧ n.toNat < 0x2020) → (s.initiator n.toNat).waiting = (p, why) :: l →
    let node := s.nodeOfAddr p.part.toNat p.address.toNat
    let target := match why with
      | .far _ => node.map (fun _ => p.dest.toNat)
      | _ => if p.ext.isSome then some p.dest.toNat else node
    let dropped := fun (u : State) => u.setInitiator n.toNat { u.initiator n.toNat with waiting := l }
    (∀ dst, target = some dst → dst < 2 ^ 14 → s.routesLoaded = true →
      (∀ tag, (s.routeTo n.toNat dst).isSome = true → (s.routeBack n.toNat dst).isSome = true → s.tagNow n.toNat { p with dest := BitVec.ofNat 14 dst } = some tag →
        exec (.requestIssue n) s = .next (dropped (s.launch n.toNat tag { p with dest := BitVec.ofNat 14 dst } why))) ∧
      (s.routeTo n.toNat dst = none ∨ s.routeBack n.toNat dst = none →
        exec (.requestIssue n) s = .next ((dropped (s.netError 8 4)).purposeEnd n.toNat p why .targetIsolated ⟨0, 0⟩ 0))) ∧
    (target = none → exec (.requestIssue n) s = .next ((dropped s).purposeEnd n.toNat p why .outOfRange ⟨0, 0⟩ 0)) ∧
    (∀ dst, target = some dst → dst < 2 ^ 14 → l = [] → s.routesLoaded = false ∨
        ((s.routeTo n.toNat dst).isSome = true ∧ (s.routeBack n.toNat dst).isSome = true ∧ s.tagNow n.toNat { p with dest := BitVec.ofNat 14 dst } = none) →
      exec (.requestIssue n) s = .next s)) ∧
  (∀ (s : State) (n tag : Nat) (p : Packet) (why : Purpose),
    let q := { p with tag := BitVec.ofNat 12 tag }
    let rec_ := fun (sent : Bool) => s.setInitiator n { s.initiator n with out := (s.initiator n).out ++ [⟨tag, q, why, sent, s.calends, s.tagLimit n⟩] }
    (p.dest.toNat < 4096 → s.launch n tag p why = (rec_ false).sendControl 0x20 n p.dest.toNat tag p.address.toNat (p.vi.toNat, p.part.toNat, p.priority.toNat) 0 0) ∧
    (4096 ≤ p.dest.toNat → p.cmd ≠ 0x03 → s.launch n tag p why = (rec_ true).sendPacket q) ∧
    (4096 ≤ p.dest.toNat → p.cmd = 0x03 → s.launch n tag p why = (rec_ true).sendPacket { q with payload := 0, poisoned := 0, poison := false })) ∧
  (∀ (sl : Fin 512) (n : NodeId) (s : State) (e : IntakeEntry), n.toNat = 0x1000 + sl.val → s.takesNext n.toNat e →
    let a := e.pkt.address.toNat
    let b := a - (0x008000000000 + sl.val * 0xC0000)
    0x008000000000 + sl.val * 0xC0000 ≤ a → b < 0xC0000 →
    (s.partOfCluster (sl.val / 64) ≠ some e.pkt.part.toNat → exec (.intakeService n) s = .next (s.finishEntry n.toNat e .outOfRange 0 0)) ∧
    (s.partOfCluster (sl.val / 64) = some e.pkt.part.toNat →
      (e.pkt.cmd = 0x01 → s.condsIn a e.pkt.bytes.toNat = [] →
        exec (.intakeService n) s = .next (s.finishEntry n.toNat e .ok (memNat s.mem.cells a e.pkt.bytes.toNat) 0)) ∧
      (e.pkt.cmd ≠ 0x01 → exec (.intakeService n) s = .next ((s.store a e.pkt.bytes.toNat e.pkt.payload e.pkt.poisoned).finishEntry n.toNat e .ok 0 (Packet.damage e.pkt))))) ∧
  (∀ (t : TileId) (n : NodeId) (s : State) (e : IntakeEntry), n.toNat = t.val → s.takesNext n.toNat e →
    let a := e.pkt.address.toNat
    let o := (a - 0x009000000000) % 0x20000
    (s.partOfCluster (t.val / 512) ≠ some e.pkt.part.toNat → exec (.intakeService n) s = .next (s.finishEntry n.toNat e .outOfRange 0 0)) ∧
    (s.partOfCluster (t.val / 512) = some e.pkt.part.toNat → o + e.pkt.bytes.toNat ≤ 0x18000 →
      (e.pkt.cmd = 0x01 → s.condsIn (tileAddr t.val o) e.pkt.bytes.toNat = [] →
        exec (.intakeService n) s = .next (s.finishEntry n.toNat e .ok (memNat s.mem.cells (tileAddr t.val o) e.pkt.bytes.toNat) 0)) ∧
      (e.pkt.cmd ≠ 0x01 → o < (s.tile t).progLen → exec (.intakeService n) s = .next (s.finishEntry n.toNat e .outOfRange 0 0)) ∧
      (e.pkt.cmd ≠ 0x01 → (s.tile t).progLen ≤ o →
        exec (.intakeService n) s = .next ((s.store (tileAddr t.val o) e.pkt.bytes.toNat e.pkt.payload e.pkt.poisoned).finishEntry n.toNat e .ok 0 (Packet.damage e.pkt))))) ∧
  (∀ (p : HbmPort) (n : NodeId) (s : State) (e : IntakeEntry), n.toNat = 0x2020 + p.val → s.takesNext n.toNat e →
    let a := e.pkt.address.toNat
    let passes := s.fencePasses e.pkt.part.toNat a e.pkt.bytes.toNat (e.pkt.cmd ≠ 0x01) (privileged e.pkt.src.toNat e.pkt.tag.toNat)
    a < 0x008000000000 → ∃ u : State, exec (.intakeService n) s = .next u ∧ u.mem = s.mem ∧ u.tiles = s.tiles ∧
      (passes = true → (hbmTarget a).1 = p.val →
        (u.target n.toNat).intake = (s.target n.toNat).intake.erase e ++ [{ e with phase := .inService }] ∧ u.hbmCounts = s.hbmCounts ∧
        u.net.flights = s.net.flights) ∧
      (passes = false ∨ (hbmTarget a).1 ≠ p.val → (u.target n.toNat).shimMap = Sparse.set none (s.target n.toNat).shimMap ((slotIndex e.pkt.src.toNat e.pkt.tag.toNat).getD 0) none ∧
        Sparse.get 0 u.hbmCounts (8 * (p.val / 4) + 4) = Sparse.get 0 s.hbmCounts (8 * (p.val / 4) + 4) + 1))

/-- R245, R246, R248, R253, R254, R257, R259, R284, R285, R293, R295: hops. What a router or switch leaves open (which allowed way a
VC3 packet takes) is the operand `alt`. -/
def Obligations.PacketsTakeTheirHops : Prop :=
  (∀ (i alt : Nat) (e : LinkErrors) (f : Flight) (s : State), s.net.flights[i]? = some f →
    let p := f.pkt
    let vc3 := f.pkt.vc = 3
    let via := fun (k : State → Packet → State) =>
      match State.receive { s with net := { s.net with flights := s.net.flights.eraseIdx i } } p f.place e with
      | (w, some q) => k w q
      | (w, none) => w
    let go := fun (pl : Place) (route : BitVec 48) =>
      if s.hasRoom pl p.vc && s.served f (outputOf f.place pl) then
        via (fun w q => ((w.serveOut f (outputOf f.place pl)).useLane pl q).fly pl { q with route := route })
      else s
    let lost := via (fun w _ => w.netError (linkBehind f.place).2.1 3)
    let next1 := (p.route >>> 3) ||| (7#48 <<< 45)
    let next2 := (next1 >>> 3) ||| (7#48 <<< 45)
    let hop := exec (.routerHop i e alt) s
    (s.headOfQueue i f = false → hop = .next s) ∧
    (∀ n mesh, f.place = .node n mesh → hop = .next s) ∧
    (∀ c y x leg inp, f.place = .router c y x leg inp → s.headOfQueue i f = true →
      (s.domain c ≠ .on → hop = .next s) ∧
      (s.domain c = .on → ¬ (vc3 ∧ leg = .inward) →
        let code := p.route.toNat % 8
        (code = 0 → hop = .next (go (.node (c * 512 + y * 32 + x) false) next1)) ∧
        (code = 7 → hop = .next lost) ∧
        (code = 6 → ¬ (x = 0 ∨ x = 31) ∨ ⟨c, y, x, 6⟩ ∈ s.net.failedLinks → hop = .next lost) ∧
        (code = 6 → x = 0 ∨ x = 31 → ⟨c, y, x, 6⟩ ∉ s.net.failedLinks → hop = .next (go (.switch c (.gate (if x = 0 then 0 else 1) y)) next1)) ∧
        (∀ y' x', 1 ≤ code → code ≤ 5 → meshHop y x code = some (y', x') →
          (⟨c, y', x', code⟩ ∈ s.net.failedLinks → hop = .next lost) ∧
          (⟨c, y', x', code⟩ ∉ s.net.failedLinks → hop = .next (go (.router c y' x' leg (.mesh code)) next1))) ∧
        ((y = 0 ∧ code = 1) ∨ (y = 15 ∧ code = 3) → hop = .next (go (.node (0x1000 + (c * 64 + (if y = 0 then x else 32 + x))) true) next2)) ∧
        (1 ≤ code → code ≤ 5 → meshHop y x code = none → ¬ (y = 0 ∧ code = 1) → ¬ (y = 15 ∧ code = 3) → hop = .next lost)) ∧
      (s.domain c = .on → vc3 → leg = .inward →
        let d := tilePos p.dest.toNat
        let choices := s.adaptiveCodes c y x d.1 d.2
        let code := choices.getD (alt % choices.length) 7
        ((y, x) = d → hop = .next (go (.node (c * 512 + y * 32 + x) false) p.route)) ∧
        ((y, x) ≠ d → choices = [] → hop = .next lost) ∧
        (∀ y' x', (y, x) ≠ d → meshHop y x code = some (y', x') → choices ≠ [] → hop = .next (go (.router c y' x' .inward (.mesh code)) p.route)) ∧
        (∀ k ∈ choices, ∃ y' x', meshHop y x k = some (y', x') ∧ ⟨c, y', x', k⟩ ∉ s.net.failedLinks ∧ (d.2 < x → x' < x) ∧
          (rowCodes x' d.2).length + (columnCodes y' d.1).length + 1 = (rowCodes x d.2).length + (columnCodes y d.1).length))) ∧
    (∀ b inp, f.place = .switch b inp → s.headOfQueue i f = true →
      let n := p.dest.toNat
      (b ≠ switchOf n →
        let b' := nextSwitch b (switchOf n)
        (weltCrossing b b' = none → hop = .next (go (.switch b' (.link b)) p.route)) ∧
        (∀ dir row, weltCrossing b b' = some (dir, row) →
          (∀ lane, s.freeLane dir row = some lane → hop = .next (go (.switch b' (.welt dir lane)) p.route)) ∧
          (s.freeLane dir row = none → hop = .next s))) ∧
      (b = switchOf n →
        let released := match inp with
          | .porch _ => true
          | _ => false
        let passes := fun (pl : Place) =>
          (∀ d, s.porchBlocks n = some d → hop = .next (if 64 ≤ (s.porch d).packets.length then s else via (fun w q => w.porchEnter d q false))) ∧
          (s.porchBlocks n = none → hop = .next (if released = false ∧ (domainOf n).any s.porchOut = true then s else go pl next1))
        (p.route.toNat % 8 = 0 → 4096 ≤ n → passes (.node n false)) ∧
        (p.route.toNat % 8 = 6 → n < 4096 →
          let table := (p.entry.toNat / 16, p.entry.toNat % 16)
          let gates := s.gateChoices b (tilePos n).1 (tilePos n).2
          let gate := if vc3 then gates.getD (alt % gates.length) table else table
          (⟨8 + b, gate.2, gate.1, 6⟩ ∈ s.net.failedLinks → hop = .next lost) ∧
          (⟨8 + b, gate.2, gate.1, 6⟩ ∉ s.net.failedLinks → passes (.router b gate.2 (if gate.1 = 0 then 0 else 31) .inward (.gate gate.1 gate.2)))) ∧
        (¬ (p.route.toNat % 8 = 0 ∧ 4096 ≤ n) → ¬ (p.route.toNat % 8 = 6 ∧ n < 4096) → hop = .next lost)))) ∧
  (∀ (i alt : Nat) (e : LinkErrors) (s : State), ∃ u : State, exec (.routerHop i e alt) s = .next u ∧ u.mem = s.mem ∧ u.tiles = s.tiles ∧ u.seqs = s.seqs ∧ u.host = s.host ∧
    u.net.targets = s.net.targets ∧ u.calends = s.calends) ∧
  (∀ (p : Packet) (pl : Place) (e : LinkErrors) (s : State),
    let r := s.receive p pl e
    let scope := (linkBehind pl).2.1
    (e.header = true → r.2 = none) ∧
    (e.header = false → ∃ q, r.2 = some q ∧ q.payload = p.payload ∧
      ∀ k, k < p.bytes.toNat → (q.poisoned.testBit k = true ↔ p.poisoned.testBit k = true ∨ k / 8 ∈ e.words)) ∧
    Sparse.get 0 r.1.net.errors (6 * scope) = Sparse.get 0 s.net.errors (6 * scope) + e.corrected ∧
    Sparse.get 0 r.1.net.errors (6 * scope + 1) = Sparse.get 0 s.net.errors (6 * scope + 1) + e.words.length + (if e.header then 1 else 0) ∧
    r.1.net.flights = s.net.flights ∧ r.1.mem = s.mem ∧ r.1.tiles = s.tiles)

/-- R292 to R295, R298, R495, R526: porches and wakes. -/
def Obligations.PorchesHoldAndReleasePackets : Prop :=
  (∀ (d : Fin 20) (p : Packet) (s : State),
    let n := p.dest.toNat
    let t := s.consume p
    let full := 64 ≤ (s.porch d.val).packets.length
    let passes := s.domain d.val = .on ∧ (s.porch d.val).packets = [] ∧ s.shimActive n = false
    let before : State := { t with net := { t.net with flights := t.net.flights ++ [⟨.switch (switchOf n) (.node p.src.toNat), p⟩] } }
    (domainOf n ≠ some d.val → exec (.porchArrival d p) s = .next s) ∧
    (domainOf n = some d.val → d.val = 19 →
      exec (.porchArrival d p) s = .next { t with net := { t.net with flights := t.net.flights ++ [⟨.node n false, p⟩] } }) ∧
    (domainOf n = some d.val → d.val ≠ 19 →
      (passes ∨ full → exec (.porchArrival d p) s = .next before) ∧
      (¬ full → s.shimActive n = true → exec (.porchArrival d p) s = .next (t.answerFor p false .targetIsolated)) ∧
      (¬ full → ¬ passes → s.shimActive n = false → d.val < 16 → s.partOfCluster (d.val % 8) = none →
        exec (.porchArrival d p) s = .next (t.answerFor p false .outOfRange)) ∧
      (¬ full → ¬ passes → s.shimActive n = false → (d.val < 16 → (s.partOfCluster (d.val % 8)).isSome = true) →
        ∃ u : State, exec (.porchArrival d p) s = .next u ∧
        (u.porch d.val).packets = (s.porch d.val).packets ++ [(p, false)] ∧ (∀ k, k ≠ d.val → u.porch k = s.porch k) ∧ u.mem = s.mem ∧ u.power = s.power ∧
        ((s.domain d.val = .off ∨ s.domain d.val = .retain ∨ s.domain d.val = .deepSleep) → (s.porch d.val).wakeSent = false →
          (u.porch d.val).wakeSent = true ∧ (u.porch d.val).since = s.calends ∧
          Sparse.get 0 u.net.porchCounts d.val = Sparse.get 0 s.net.porchCounts d.val + 1 ∧
          u.net.flights = (t.emitPacket none (controlPacket 0x25 n 0x2040 0 d.val (0, p.part.toNat, 2) 0 0)).net.flights) ∧
        ((s.porch d.val).wakeSent = true ∨ s.domain d.val = .on ∨ s.domain d.val = .waking →
          u.net.flights = t.net.flights ∧ Sparse.get 0 u.net.porchCounts d.val = Sparse.get 0 s.net.porchCounts d.val)))) ∧
  (∀ (d : Fin 20) (s : State),
    (s.domain d.val ≠ .waking → exec (.domainOn d) s = .next s) ∧
    (s.domain d.val = .waking → ∃ u : State, exec (.domainOn d) s = .next u ∧ u.domain d.val = .on ∧
      (∀ k, k ≠ d.val → u.domain k = s.domain k) ∧ (u.porch d.val).packets = [] ∧
      u.net.flights = s.net.flights ++ (s.porch d.val).packets.map (fun p => ⟨if p.2 then .node p.1.dest.toNat true else .switch (switchOf p.1.dest.toNat) (.porch d.val), p.1⟩) ∧
      u.mem = s.mem ∧ u.tiles = s.tiles ∧
      (d.val = 18 → ∀ n < 8, s.portEnabled n = true → (s.port n).link = .down → (u.port n).link = .training))) ∧
  (∀ (d : Fin 20) (s : State), s.domain d.val = .waking ∨ (s.domain d.val ≠ .on ∧ (s.porch d.val).wakeSent = true) →
    ∃ u : State, exec (.wakeFail d) s = .next u ∧ u.domain d.val = .off ∧
    (u.porch d.val).packets = [] ∧ (u.porch d.val).failed = true ∧ (∀ n, domainOf n = some d.val → u.shimActive n = true) ∧
    Sparse.get 0 u.net.porchCounts (40 + d.val) = Sparse.get 0 s.net.porchCounts (40 + d.val) + 1 ∧ u.mem = s.mem ∧ u.tiles = s.tiles ∧
    (∀ p m, (s.porch d.val).packets = [(p, m)] → u.net.flights = (s.answerFor p m .targetIsolated).net.flights) ∧
    ((s.porch d.val).packets = [] → u.net.flights = s.net.flights)) ∧
  (∀ s : State, ∃ u : State, exec .routesRecomputed s = .next u ∧ u.net.pendingRoutes = [] ∧ u.net.failedLinks = s.net.failedLinks ∧ u.avoided = s.net.failedLinks ∧
    u.rings = Sparse.set {} s.rings 0x40 ((Sparse.get {} s.rings 0x40).event s.calends 0x26 0) ∧ u.mem = s.mem ∧ u.tiles = s.tiles)

/-- R45, R288 to R291: isolation. -/
def Obligations.NodesAreIsolatedByTheirTriggers : Prop :=
  (∀ (n : NodeId) (s : State) (i : Instr) (cause : Nat), (nodeKind n.toNat).isSome = true → n.toNat ≠ 0x2040 → n.toNat ≠ 0x2051 → (s.target n.toNat).shim = false →
    let window := s.obj 0x3103 3 1000 * 2000
    let mine := (s.net.reports.filter (fun r => decide (r.1 = n.toNat) && decide (s.calends < r.2 + window))).length + (if 0 < window then 1 else 0)
    (i = .controlStateError n ∧ cause = 3) ∨ (i = .deadStall n ∧ cause = 1 ∧ (s.target n.toNat).intake ≠ [] ∧ (∀ k, nodeKind n.toNat = some (.newen k) → (s.port k).link = .up)) ∨
      (i = .timeoutReport n ∧ cause = 2 ∧ s.obj 0x3103 1 1 = 1 ∧ s.obj 0x3103 2 16 ≤ mine) →
    ∃ u : State, exec i s = .next u ∧ (u.target n.toNat).shim = true ∧ u.shimActive n.toNat = true ∧ (u.target n.toNat).intake = [] ∧ (u.target n.toNat).shimMap = [] ∧
      (u.target n.toNat).notes = (s.target n.toNat).shimMap.filterMap (fun e => e.2.map (fun tag => (e.1, tag))) ∧
      u.net.isolated = s.net.isolated ++ [(n.toNat, cause)] ∧ (∀ k, k ≠ n.toNat → u.target k = s.target k) ∧ u.mem = s.mem ∧ u.tiles = s.tiles ∧
      (∀ c p, nodeKind n.toNat = some (.sequencer c) → s.partOfCluster c = some p → u.vigil.triggers = s.vigil.triggers ++ [(3, p, n.toNat)])) ∧
  (∀ (n : NodeId) (s : State), (nodeKind n.toNat).isSome = true →
    ((s.target n.toNat).intake = [] → exec (.deadStall n) s = .next s) ∧
    (∀ k, nodeKind n.toNat = some (.newen k) → (s.port k).link ≠ .up → exec (.deadStall n) s = .next s) ∧
    ((s.target n.toNat).shim = true ∨ n.toNat = 0x2040 ∨ n.toNat = 0x2051 → exec (.controlStateError n) s = .next s ∧ exec (.deadStall n) s = .next s) ∧
    (let window := s.obj 0x3103 3 1000 * 2000
      let kept := (s.net.reports ++ [(n.toNat, s.calends)]).filter (fun r => decide (s.calends < r.2 + window))
      (s.obj 0x3103 1 1 ≠ 1 ∨ (kept.filter (fun r => decide (r.1 = n.toNat))).length < s.obj 0x3103 2 16) →
        exec (.timeoutReport n) s = .next { s with net := { s.net with reports := kept } })) ∧
  (∀ (n : NodeId) (s : State), nodeKind n.toNat = none → exec (.deadStall n) s = .fault .noSuchUnit ∧ exec (.controlStateError n) s = .fault .noSuchUnit ∧
    exec (.timeoutReport n) s = .fault .noSuchUnit ∧ exec (.isolateNoteSend n) s = .fault .noSuchUnit)

/-- R303 to R305, R309, R311, R313, R314, R325, R361, R539: HBM ports and the upkeep of memory. -/
def Obligations.MemoryUpkeepFollowsItsRules : Prop :=
  (∀ (p : HbmPort) (src : NodeId) (tag : BitVec 12) (ondie : Nat) (s : State) (e : IntakeEntry) (before after : List IntakeEntry),
    s.inService p.val = before ++ e :: after → e.pkt.src = src → e.pkt.tag = tag → e ∉ before → (∀ x ∈ before, ¬ (x.pkt.src = src ∧ x.pkt.tag = tag)) →
    let a := e.pkt.address.toNat
    let n := e.pkt.bytes.toNat
    let shares := ∃ x ∈ before, ∃ k, x.pkt.address.toNat / 64 ≤ k ∧ k ≤ (x.pkt.address.toNat + x.pkt.bytes.toNat - 1) / 64 ∧ a / 64 ≤ k ∧ k ≤ (a + n - 1) / 64
    let t := s.hbmCount (p.val / 4) 2 ondie
    (∀ x ∈ before, 0 < x.pkt.bytes.toNat) → 0 < n →
    (shares → exec (.hbmEntryComplete p src tag ondie) s = .next s) ∧
    (¬ shares → e.pkt.cmd = 0x01 → s.condsIn a n = [] →
      exec (.hbmEntryComplete p src tag ondie) s = .next (t.finishEntry (0x2020 + p.val) e .ok (memNat s.mem.cells a n) 0)) ∧
    (¬ shares → e.pkt.cmd ≠ 0x01 → s.host.cxl ≠ 3 ∨ src = 0x2041 ∨ (∀ k ∈ s.host.hostLines, k < a / 64 ∨ (a + n - 1) / 64 < k) →
      exec (.hbmEntryComplete p src tag ondie) s = .next ((t.store a n e.pkt.payload e.pkt.poisoned).finishEntry (0x2020 + p.val) e .ok 0 (Packet.damage e.pkt))) ∧
    (¬ shares → e.pkt.cmd ≠ 0x01 → src ≠ 0x2041 → s.heldLines a n ≠ [] →
      let fresh := (s.heldLines a n).filter (fun k => !(s.host.snoops.contains k))
      exec (.hbmEntryComplete p src tag ondie) s = .next { s with host := { s.host with snoops := s.host.snoops ++ fresh, answers := s.host.answers ++ fresh.map (fun k => .snoop (64 * k)) } })) ∧
  (∀ (part a n : Nat) (write priv : Bool) (s : State), 0 < n → (s.fencePasses part a n write priv = true ↔ a + n ≤ hbmBytes s ∧
    (priv = true ∨ ((∃ i < 4, s.obj (0x5001 + 0x100 * part) i 0 ≤ a ∧ a + n ≤ s.obj (0x5001 + 0x100 * part) i 0 + s.obj (0x5001 + 0x100 * part) (4 + i) 0) ∧
      (write = true → a + n ≤ (s.ptRegion part).1 ∨ (s.ptRegion part).1 + (s.ptRegion part).2 ≤ a ∨ (s.ptRegion part).2 = 0))))) ∧
  (∀ (n : NodeId) (s : State) (words : Nat) (addr : Nat → Nat), s.scrubSpace n.toNat = some (words, addr) →
    let x := Sparse.get ({} : Scrub) s.scrubs n.toNat
    let w := addr x.next / 8
    (s.obj 0x3300 2 1 = 0 → exec (.scrubWord n) s = .next { s with scrubs := Sparse.set {} s.scrubs n.toNat {} }) ∧
    (s.obj 0x3300 2 1 ≠ 0 → (∀ d, domainOf n.toNat = some d → s.domain d = .on) → ∃ u : State, exec (.scrubWord n) s = .next u ∧
      u.mem.cells = s.mem.cells ∧ u.tiles = s.tiles ∧
      (∀ k, Sparse.get .clean u.mem.cond k = if k ≠ w then Sparse.get .clean s.mem.cond k else
        match Sparse.get WordCond.clean s.mem.cond w with | .single => .clean | .uncorrectable => .marked | c => c) ∧
      (x.next + 1 < words → Sparse.get {} u.scrubs n.toNat = ⟨x.next + 1, if x.next = 0 then s.calends else x.since, x.next ≠ 0 && x.slept⟩) ∧
      (words ≤ x.next + 1 → Sparse.get ({} : Scrub) u.scrubs n.toNat = {})) ∧
    (∀ d, s.obj 0x3300 2 1 ≠ 0 → domainOf n.toNat = some d → s.domain d ≠ .on → exec (.scrubWord n) s = .next s)) ∧
  (∀ (a : BitVec 48) (s : State) (k : Nat),
    (a.toNat / 8 ∈ s.mem.writebacks → ∃ u : State, exec (.eccWriteback a) s = .next u ∧ u.mem.cells = s.mem.cells ∧ u.mem.writebacks = s.mem.writebacks.erase (a.toNat / 8) ∧
      Sparse.get .clean u.mem.cond k = if k = a.toNat / 8 then .clean else Sparse.get .clean s.mem.cond k) ∧
    (a.toNat / 8 ∈ s.mem.marks → ∃ u : State, exec (.poisonMark a) s = .next u ∧ u.mem.cells = s.mem.cells ∧ u.mem.marks = s.mem.marks.erase (a.toNat / 8) ∧
      Sparse.get .clean u.mem.cond k = if k = a.toNat / 8 then .marked else Sparse.get .clean s.mem.cond k) ∧
    (a.toNat / 8 ∉ s.mem.writebacks → exec (.eccWriteback a) s = .next s) ∧ (a.toNat / 8 ∉ s.mem.marks → exec (.poisonMark a) s = .next s)) ∧
  (∀ (d : Fin 16) (s : State), s.domain d.val = .on ∨ s.partOfCluster (d.val % 8) = none ∨ s.obj 0x3300 2 1 = 0 → exec (.scrubBurst d) s = .next s) ∧
  (∀ (d : Fin 16) (s : State), s.domain d.val ≠ .on → (s.partOfCluster (d.val % 8)).isSome = true → s.obj 0x3300 2 1 ≠ 0 →
    ∃ u : State, exec (.scrubBurst d) s = .next u ∧ u.mem.cells = s.mem.cells ∧ u.tiles = s.tiles ∧
      (∀ sl b, d.val = 8 + sl / 64 → sl < 512 → b < 0xC0000 →
        u.condAt (sliceAddr sl b) = .clean ∨ u.condAt (sliceAddr sl b) = .marked) ∧
      (∀ (t : TileId) (o : Nat), d.val = t.val / 512 → o < 0x18000 →
        u.condAt (tileAddr t.val o) = .clean ∨ u.condAt (tileAddr t.val o) = .marked)) ∧
  (∀ (p : HbmPort) (bank : Nat) (st : StackId) (celsius : Int) (s : State),
    (∃ u : State, exec (.hbmRfm p bank) s = .next u ∧ Sparse.get 0 u.hbmCounts (8 * (p.val / 4) + 3) = Sparse.get 0 s.hbmCounts (8 * (p.val / 4) + 3) + 1 ∧ u.mem = s.mem) ∧
    exec (.hbmTempRead st celsius) s = .next { s with hbmTemp := Sparse.set 0 s.hbmTemp st.val celsius } ∧
    (∃ u : State, exec (.hbmRefresh p) s = .next u ∧ u.mem = s.mem ∧ u.net = s.net ∧ ((s.target (0x2020 + p.val)).intake = [] → u.hbm = s.hbm) ∧
      u.test = (if s.test.looping = some (p.val / 4) then { s.test with pauses := s.test.pauses + 1 } else s.test) ∧
      ((s.target (0x2020 + p.val)).intake ≠ [] → (Sparse.get {} u.hbm p.val).refreshAt = some s.calends)) ∧
    ((s.target (0x2020 + p.val)).intake = [] → s.domain (16 + p.val / 16) = .on → ∃ u : State, exec (.hbmPowerDown p) s = .next u ∧
      (Sparse.get {} u.hbm p.val).powerDown = true ∧ u.mem = s.mem ∧ (∀ q, q ≠ p.val → Sparse.get {} u.hbm q = Sparse.get {} s.hbm q)) ∧
    ((s.target (0x2020 + p.val)).intake ≠ [] ∨ s.domain (16 + p.val / 16) ≠ .on → exec (.hbmPowerDown p) s = .next s)) ∧
  (∀ (g : Fin 2) (s : State),
    let idle := ∀ i < 16, (s.target (0x2020 + 16 * g.val + i)).intake = []
    (s.obj 0x9031 0 0 = 1 → s.domain (16 + g.val) = .on → idle → ∃ u : State, exec (.hbmDeepSleepEntry g) s = .next u ∧ u.domain (16 + g.val) = .deepSleep ∧
      u.mem = s.mem ∧ (∀ i < 16, (Sparse.get {} u.hbm (16 * g.val + i)).selfRefresh = true) ∧ (∀ k, k ≠ 16 + g.val → u.domain k = s.domain k)) ∧
    (s.obj 0x9031 0 0 ≠ 1 ∨ s.domain (16 + g.val) ≠ .on ∨ ¬ idle → exec (.hbmDeepSleepEntry g) s = .next s))

/-- R316 to R322 and R324: the copy engines. -/
def Obligations.CopyEnginesFollowTheirRules : Prop :=
  (∀ (d : CopyDesc) (s : State),
    let f := copyFields d.words
    let q := d.owner.queue d.vi
    let may := fun (e : Nat) => e < 16 ∧ ((s.engine e).queue q).length < 8 ∧ (if f.engine < 16 then e = f.engine else s.ceIsolated e = false ∧ (q = 1 ∨ e ∈ s.ceMask d.vi))
    (∀ e, s.placeFor d = some e → may e ∧ ∀ k, may k → (s.engine e).load < (s.engine k).load ∨ ((s.engine e).load = (s.engine k).load ∧ e ≤ k)) ∧
    (s.placeFor d = none → ∀ k, ¬ may k)) ∧
  (∀ (s : State) (before after : List CopyDesc) (d : CopyDesc) (e : Nat), s.copyWait = before ++ d :: after → (∀ c ∈ before, s.placeFor c = none) →
    s.placeFor d = some e → ∃ u : State, exec .copyEnqueue s = .next u ∧ u.copyWait = before ++ after ∧
      (u.engine e).queue (d.owner.queue d.vi) = (s.engine e).queue (d.owner.queue d.vi) ++ [d] ∧
      (∀ k, k ≠ e → u.engine k = s.engine k) ∧ u.mem = s.mem ∧ u.net = s.net ∧ u.host = s.host) ∧
  (∀ (s : State), (∀ c ∈ s.copyWait, s.placeFor c = none) → exec .copyEnqueue s = .next s) ∧
  (∀ (e : CeId) (q : Nat) (s : State) (before after : List CopyDesc) (d : CopyDesc), s.ceIsolated e.val = false → (s.engine e.val).queue q = before ++ d :: after →
    (∀ c ∈ before, c.done.isSome = true ∧ c.id ≠ d.id) → (∀ c ∈ after, c.active = false) → d.active = false → d.done = none →
    let f := copyFields d.words
    let v := d.carried.getD (if f.conv = 0 then 0 else s.obj (0x5010 + 0x100 * d.part) f.conv 0)
    let dx := (convMode (if d.carried.isSome then 1 else f.conv) v).bind (fun m => convBytes m f.x)
    (f.x = 0 ∨ f.y = 0 ∨ f.z = 0 → exec (.copyActivate e q) s = .next (s.completeCopy e.val q { d with active := true, conv := v } .ok)) ∧
    (f.x ≠ 0 → f.y ≠ 0 → f.z ≠ 0 → dx = none → exec (.copyActivate e q) s = .next (s.completeCopy e.val q { d with active := true, conv := v } .badDescriptor)) ∧
    (f.x ≠ 0 → f.y ≠ 0 → f.z ≠ 0 → dx.isSome = true → exec (.copyActivate e q) s = .next (s.setCopy e.val q { d with active := true, conv := v }))) ∧
  (∀ (e : Nat) (q : Nat) (d : CopyDesc) (st : Status) (s : State),
    let u := s.completeCopy e q d st
    (u.engine e).queue q = ((s.engine e).queue q).map (fun c => if c.id = d.id then { d with done := some st } else c) ∧
    Sparse.get 0 (u.engine e).stats (if st = .ok then 0 else 1) = Sparse.get 0 (s.engine e).stats (if st = .ok then 0 else 1) + 1 ∧
    (∀ k, k ≠ e → u.engine k = s.engine k) ∧ u.mem = s.mem ∧ u.net = s.net ∧ u.host = s.host) ∧
  (∀ (e : CeId) (v : ViId) (s : State) (d : CopyDesc) (l : List CopyDesc) (dst tag : Nat), s.ceIsolated e.val = false → s.vigil.hung = false →
    (s.engine e.val).queue 0 = [] → (s.engine e.val).queue 1 = [] → (∀ k, k ≠ v.val → (s.engine e.val).queue (2 + k) = []) → (s.engine e.val).queue (2 + v.val) = d :: l →
    d.active = true → d.done = none → d.first = none → d.voided = false → (s.partition d.part).state ≠ .hung → d.readPos < d.total → d.readPos ∉ d.readAhead →
    let f := copyFields d.words
    let a := f.srcAt d.readPos
    let n := min (2048 - a % 2048) (f.x - d.readPos % f.x)
    let p := { mkPacket 0x01 (0x2010 + e.val) 0 0 a n f.conv d.vi d.part 2 0 0 0 with dest := BitVec.ofNat 14 dst }
    f.side = 0 → d.part < 8 → a < 2 ^ 48 → s.nodeOfAddr d.part a = some dst → dst < 2 ^ 14 → s.routesLoaded = true → (s.routeTo (0x2010 + e.val) dst).isSome = true → (s.routeBack (0x2010 + e.val) dst).isSome = true →
    s.stagingRoom e.val n false = true → s.tagNow (0x2010 + e.val) p = some tag →
    ∃ u : State, ∃ d' : CopyDesc, exec (.copyRequestIssue e false) s = .next u ∧ u.net = (s.launch (0x2010 + e.val) tag p (.copyRead (2 + v.val) d.id d.readPos n d.issued)).net ∧
      d' ∈ (u.engine e.val).queue (2 + v.val) ∧ d'.id = d.id ∧ d'.out = d.out + 1 ∧ d'.issued = d.issued + 1 ∧ d.readPos < d'.readPos ∧ u.mem = s.mem) ∧
  (∀ (e : CeId) (q : Nat) (s : State) (d : CopyDesc) (l : List CopyDesc), (s.engine e.val).queue q = d :: l →
    (d.done = none → exec (.copyReport e q) s = .next s) ∧
    (∀ st, d.done = some st → ∃ u : State, exec (.copyReport e q) s = .next u ∧ (u.engine e.val).queue q = l ∧
      (∀ k, d.owner = .memCopy k → u.host = (s.endCmd k st (copyFields d.words).id).host) ∧
      (∀ m, d.owner = .shelf m → u.shelf.moves = s.shelf.moves.map (fun x => if x.id = m then { x with result := some st, longest := d.longest } else x)))) ∧
  (∀ (e : CeId) (s : State),
    (s.ceIsolated e.val = false → exec (.engineIsolationDrain e) s = .next s) ∧
    (s.ceIsolated e.val = true → Sparse.wf [] (s.engine e.val).queues → (∀ q, (((s.engine e.val).queue q).map (·.id)).Nodup) → ∃ u : State, exec (.engineIsolationDrain e) s = .next u ∧
      (∀ q, (u.engine e.val).queue q = ((s.engine e.val).queue q).map (fun d => if d.done.isNone then { d with done := some .targetIsolated } else d)) ∧
      u.mem = s.mem ∧ u.net = s.net))

/-- R33, R331, R335, R338, R342, R345, R346: the Session Shelf. -/
def Obligations.SessionShelfFollowsItsRules : Prop :=
  (∀ (sid n : Nat) (s : State) (o : ShelfOp) (rest : List ShelfOp), s.shelf.promotions = o :: rest → o.sid = sid → o.started = false → s.movesIn sid = [] →
    (o.looked = true ∨ sid ∈ s.shelf.cache ∨ s.mem.cond = []) → o.kind = .wake n →
    let x := s.session sid
    let hot := s.hotMissing x
    let app := x.appendMissing n
    let free := s.freeFrames x.part (hot.length + app.length)
    let ends := fun (st : Status) => ∃ u : State, exec (.wake sid) s = .next u ∧ u.shelf.promotions = s.shelf.promotions.filter (fun p => p.id ≠ o.id) ∧
      (u.session sid).wakeStatus = st ∧ (u.session sid).wakeCal = o.tW ∧ (u.session sid).pages = x.pages ∧ (u.session sid).state = x.state ∧ (u.session sid).pin = x.pin
    (x.state = .closed → ∃ u : State, exec (.wake sid) s = .next u ∧ u.shelf.promotions = s.shelf.promotions.filter (fun p => p.id ≠ o.id) ∧ u.shelf.sessions = s.shelf.sessions ∧
      (∀ k c, o.cmd = some k → s.cmd k = some c → c.phase = .running → ∃ c' : Cmd, u.cmd k = some c' ∧ c'.phase = .ended ∧ c'.status = .notFound)) ∧
    (x.state ≠ .closed → x.broken = true → ends .eccUncorrected) ∧
    (x.state ≠ .closed → x.broken = false →
      ((s.partition x.part).state = .hung → ends .hung) ∧
      ((s.partition x.part).state ≠ .hung → o.status ≠ .ok → ends o.status) ∧
      ((s.partition x.part).state ≠ .hung → o.status = .ok → x.maxTokens < x.tokens + n → ends .outOfRange) ∧
      ((s.partition x.part).state ≠ .hung → o.status = .ok → x.tokens + n ≤ x.maxTokens → s.mem.cond = [] → (o.begun = true → x.promoting = true) →
        hot ≠ [] → hot.length + app.length ≤ s.freeFrameCount x.part → ∃ u : State, ∃ o' : ShelfOp, exec (.wake sid) s = .next u ∧
        (u.session sid).state = .live ∧ (u.session sid).promoting = true ∧ o' ∈ u.shelf.promotions ∧ o'.id = o.id ∧ o'.started = true ∧ o'.todo = hot ∧
        o'.frames = free.drop app.length ∧ (∀ f ∈ free, Sparse.get false (u.partition x.part).frames f = true) ∧ u.shelf.moves = s.shelf.moves ∧ u.tiles = s.tiles))) ∧
  (∀ (sid : Nat) (s : State), s.shelf.promotions = [] ∨ (∃ o rest, s.shelf.promotions = o :: rest ∧ (o.sid ≠ sid ∨ o.started = true)) ∨ s.movesIn sid ≠ [] →
    exec (.wake sid) s = .next s) ∧
  (∀ (s : State) (e i f : Nat) (rest fs : List Nat) (o : ShelfOp) (p : Page), s.vigil.hung = false → s.shelfEngine = some e →
    (∀ y ∈ s.shelf.promotions ++ s.shelf.demotions, (s.partition (s.session y.sid).part).state ≠ .hung) →
    s.shelf.promotions.find? (fun o => o.started && !o.todo.isEmpty && s.mayMove o) = some o → o.todo = i :: rest → o.frames = f :: fs →
    (s.session o.sid).page i = some p → p.tier ≠ .t0 → ∃ u : State, ∃ c : CopyDesc, exec .pageMoveIssue s = .next u ∧
      u.shelf.moves = s.shelf.moves ++ [⟨s.serial, o.id, o.sid, i, ⟨.t0, false, false, s.frameAddr (s.session o.sid).part f⟩, false, none, 0⟩] ∧
      (u.session o.sid).page i = some { p with moving := true } ∧ (u.engine e).queue 0 = (s.engine e).queue 0 ++ [c] ∧ c.owner = .shelf s.serial ∧
      (copyFields c.words).src = p.addr % 2 ^ 48 ∧ (copyFields c.words).dst = s.frameAddr (s.session o.sid).part f % 2 ^ 48 ∧
      (copyFields c.words).x = (if p.c then 32768 else 65536) ∧ (c.carried.isSome = true ↔ p.c = true) ∧ u.tiles = s.tiles) ∧
  (∀ (mv : Nat) (s : State) (m : PageMove) (st : Status) (old : Page), s.shelf.moves.find? (fun m => m.id = mv) = some m → m.result = some st →
    (s.session m.sid).page m.entry = some old → (s.session m.sid).closing = false →
    let again := m.again = false ∧ ((st = .timeout ∧ old.tier = .t2) ∨ st = .targetIsolated)
    (st = .ok → ∃ u : State, exec (.pageMoveComplete mv) s = .next u ∧ (u.session m.sid).page m.entry = some m.target ∧ (∀ k ∈ u.shelf.moves, k.id ≠ mv)) ∧
    (st ≠ .ok → ¬ again → ∃ u : State, exec (.pageMoveComplete mv) s = .next u ∧ (u.session m.sid).page m.entry = some { old with moving := false } ∧ (∀ k ∈ u.shelf.moves, k.id ≠ mv) ∧
      (m.target.tier = .t0 → (u.session m.sid).failed = (s.session m.sid).failed.filter (fun f => f.1 ≠ m.entry) ++ [(m.entry, st, false)])) ∧
    (∀ e, again → s.shelfEngine = some e → ∃ u : State, ∃ c : CopyDesc, exec (.pageMoveComplete mv) s = .next u ∧ (u.session m.sid).page m.entry = some old ∧
      u.shelf.moves = s.shelf.moves.map (fun y => if y.id = mv then { m with again := true, result := none } else y) ∧
      (u.engine e).queue 0 = (s.engine e).queue 0 ++ [c] ∧ c.owner = .shelf m.id) ∧
    (again → s.shelfEngine = none → exec (.pageMoveComplete mv) s = .next s)) ∧
  (∀ (p : PartId) (fr : Nat) (s : State), fr ∈ (s.partition p.val).framesZeroing → ∃ u : State, exec (.frameZeroed p fr) s = .next u ∧
    (u.partition p.val).framesZeroing = (s.partition p.val).framesZeroing.erase fr ∧ Sparse.get false (u.partition p.val).frames fr = false ∧
    (∀ k, k ≠ fr → Sparse.get false (u.partition p.val).frames k = Sparse.get false (s.partition p.val).frames k) ∧
    (∀ i < 65536, ∀ sl b, s.striped p.val (s.arenaOffset p.val + 65536 * fr + i) = some (sl, b) → memByte u.mem.cells (sliceAddr sl b) = 0) ∧ u.tiles = s.tiles) ∧
  (∀ (sid : Nat) (s : State),
    let x := s.session sid
    let runs := x.state = .live ∧ x.pin = false ∧ s.active sid = false ∧ x.promoting = false ∧ x.demoting = false ∧ x.closing = false ∧
      (∀ o ∈ s.shelf.promotions, o.sid ≠ sid) ∧ (∀ o ∈ s.shelf.demotions, o.sid ≠ sid)
    (runs → x.broken = false → sid ∈ s.shelf.cache ∨ s.mem.cond = [] → ∃ u : State, exec (.idlePark sid) s = .next u ∧
      u.shelf.demotions = s.shelf.demotions ++ [{ id := s.serial, kind := .park (s.profile x.vi x.profile 6), sid := sid, cmd := none, tW := s.calends }] ∧
      u.shelf.sessions = s.shelf.sessions ∧ u.mem = s.mem) ∧
    (¬ runs → exec (.idlePark sid) s = .next s))

/-- R211, R291, R439 to R442, R448, R470, R473, R478, R479, R483: writes of objects. -/
def Obligations.ObjectWritesAreCheckedAndApplied : Prop :=
  (∀ (i : Instr) (s : State) (r : Requester) (idx sub n v : Nat), objectRow i = some (r, idx, sub, n, v) →
    (s.answers r = false → exec i s = .next s) ∧
    (∀ st, s.answers r = true → s.checkWrite r idx sub n (v % 2 ^ (8 * n)) = .error st → exec i s = .next (s.written st))) ∧
  (∀ (s : State) (r : Requester) (idx sub n v : Nat),
    (s.mayWriteFrom r = false → s.checkWrite r idx sub n v = .error .accessLevel) ∧
    (s.mayWriteFrom r = true → s.objDesc idx sub = none → s.checkWrite r idx sub n v = .error .notFound) ∧
    (∀ d, s.mayWriteFrom r = true → s.objDesc idx sub = some d → d.acc = .ro ∨ mailboxMay r idx = false ∨ (d.expert = true ∧ r ∉ s.dict.expert) →
      s.checkWrite r idx sub n v = .error .accessLevel) ∧
    (∀ d, s.checkWrite r idx sub n v = .ok d → s.objDesc idx sub = some d ∧ d.lengthStatus n = .ok ∧ (d.max = 1 → d.valueStatus v = .ok) ∧
      s.heldInReset idx = false ∧ (d.change = .stop → s.running idx sub (d.kept n v) = false))) ∧
  (∀ (r : Requester) (v : Nat) (c : ClusterId) (s : State),
    (s.writePasses (.accessLevel r v) → exec (.accessLevel r v) s = .next (State.written
      { s with dict := { s.dict with expert := s.dict.expert.filter (fun x => x ≠ r) ++ (if v = 1 then [r] else []) } } .ok)) ∧
    (s.writePasses (.discardStaged r v) → exec (.discardStaged r v) s = .next (State.written { s with dict := { s.dict with staged := [] } } .ok)) ∧
    (s.writePasses (.persistRestore r v) → exec (.persistRestore r v) s = .next (State.written { s with dict := { s.dict with store := [], storeOk := false, storeOld := [], storeOldOk := false } } .ok)) ∧
    (s.writePasses (.tileDisableMap r v) → exec (.tileDisableMap r v) s = .next ((s.setObj 0x1006 0 0 v).written .ok)) ∧
    (s.writePasses (.queueFlush r c v) → ∃ u : State, exec (.queueFlush r c v) s = .next u ∧ u.dict.lastStatus = .ok ∧ (∀ q < 16, v.testBit q = true → u.queue c.val q = []) ∧ u.net.targets = s.net.targets) ∧
    (s.writePasses (.progFlush r c v) → exec (.progFlush r c v) s = .next ((s.setSeq c.val { s.seq c.val with programs := [] }).written .ok)) ∧
    (s.writePasses (.isolate r v) → exec (.isolate r v) s = .next ((s.declareDead v 4).written .ok) ∧ (s.declareDead v 4).shimActive v = true) ∧
    (s.writePasses (.deviceReset r v) → exec (.deviceReset r v) s = .next (State.written { s with power := { s.power with asked := true } } .ok)) ∧
    (s.writePasses (.vigilRequest r v) → exec (.vigilRequest r v) s = .next (State.written
      { s with vigil := { s.vigil with triggers := s.vigil.triggers ++ [(4, v, requesterKind r)] } } .ok)) ∧
    (s.writePasses (.resetPinMask r v) → exec (.resetPinMask r v) s = .next ((if v = 1 ∧ s.power.pinMask = false then s.maskResetPin else s).written .ok) ∧
      s.maskResetPin.power.pinMask = true)) ∧
  (∀ (r : Requester) (i : BitVec 16) (sub : BitVec 8) (n v : Nat) (d : ObjDesc) (s : State), s.answers r = true → v < 2 ^ (8 * n) → s.checkWrite r i.toNat sub.toNat n v = .ok d →
    let key := i.toNat * 256 + sub.toNat
    let k := d.kept n v
    (d.change = .boundary →
      ((Sparse.get none s.dict.staged key).isSome = true ∨ (s.dict.staged.length < 4096 ∧ s.stagedBytes + n ≤ 262144) →
        exec (.objectWrite r i sub n v) s = .next (State.written { s with dict := { s.dict with staged := Sparse.set none s.dict.staged key (some k) } } .ok)) ∧
      (Sparse.get none s.dict.staged key = none → 4096 ≤ s.dict.staged.length ∨ 262144 < s.stagedBytes + n → exec (.objectWrite r i sub n v) s = .next (s.written .noSpace))) ∧
    (d.change ≠ .boundary → i.toNat < 0x4000 → i.toNat ∉ [0x1010, 0x1020, 0x1100, 0x1150, 0x3104, 0x3200, 0x3400, 0x3500] → ∃ u : State, exec (.objectWrite r i sub n v) s = .next u ∧
      u.obj i.toNat sub.toNat d.dflt = k ∧ u.dict.dirty = (if persistent i.toNat sub.toNat then (s.dict.dirty ++ [key]).eraseDups else s.dict.dirty) ∧
      (∀ j, j ≠ 8 * 2 ^ 24 + key → Sparse.get none u.dict.objs j = Sparse.get none s.dict.objs j) ∧ u.dict.staged = s.dict.staged ∧ u.power = s.power ∧ u.parts = s.parts)) ∧
  (∀ s : State,
    (s.dict.dirty = [] → ∀ ok, exec (.persistWrite ok) s = .next s) ∧
    (s.dict.dirty ≠ [] → exec (.persistWrite false) s = .next { s with dict := { s.dict with persistFails := (s.dict.persistFails + 1) % 2 ^ 32, dirty := [] } }) ∧
    (s.dict.dirty ≠ [] → ∃ u : State, exec (.persistWrite true) s = .next u ∧ u.dict.dirty = [] ∧ u.dict.storeOk = true ∧ u.dict.storeOld = s.dict.store ∧ u.dict.storeOldOk = s.dict.storeOk ∧ u.dict.objs = s.dict.objs ∧
      ∀ k, Sparse.get none u.dict.store k = if k ∈ s.dict.dirty then
        (match s.objDesc (k / 256) (k % 256) with | some o => some (s.obj (k / 256) (k % 256) o.dflt) | none => Sparse.get none s.dict.store k)
        else Sparse.get none s.dict.store k))

/-- R356, R357, R360, R362, R371, R378, R449: partitions and fences. -/
def Obligations.PartitionsFollowTheirRules : Prop :=
  (∀ (r : Requester) (p : PartId) (v : Nat) (s : State), s.writePasses (.clusterMapWrite r p v) → s.test.state ≠ 1 → (s.partition p.val).state ≠ .hung → s.power.bootSel ≠ 3 →
    let shared := ∃ q < 8, q ≠ p.val ∧ (s.partition q).clusters &&& BitVec.ofNat 8 v ≠ 0
    (shared → exec (.clusterMapWrite r p v) s = .next (s.written .badValue)) ∧
    (¬ shared → v = 0 → (s.partition p.val).clusters ≠ 0 → ∃ u : State, exec (.clusterMapWrite r p v) s = .next u ∧ u.dict.lastStatus = .ok ∧
      (u.partition p.val).clusters = 0 ∧ (u.partition p.val).state = .dissolved ∧ (u.partition p.val).models = [] ∧
      (∀ c < 8, (s.partition p.val).clusters.getLsbD c = true → u.domain c = .off ∧ u.domain (8 + c) = .off) ∧ (∀ q, q ≠ p.val → u.partition q = s.partition q)) ∧
    (¬ shared → v ≠ 0 → ∃ u : State, exec (.clusterMapWrite r p v) s = .next u ∧ u.dict.lastStatus = .ok ∧
      (u.partition p.val).clusters = BitVec.ofNat 8 v ∧ (u.partition p.val).state = .forming ∧ (u.partition p.val).models = [] ∧
      (∀ c < 8, v.testBit c = true → u.domain c = .waking ∧ u.domain (8 + c) = .waking) ∧ (s.shelf.retired = [] → ∀ q, q ≠ p.val → u.partition q = s.partition q) ∧
      (∀ q, q ≠ p.val → (u.partition q).clusters = (s.partition q).clusters ∧ (u.partition q).state = (s.partition q).state ∧ (u.partition q).models = (s.partition q).models))) ∧
  (∀ (p : PartId) (failing : List NodeId) (s : State),
    let on := ∀ c < 8, (s.partition p.val).clusters.getLsbD c = true → s.domain c = .on ∧ s.domain (8 + c) = .on
    ((s.partition p.val).state = .forming → on → ∃ u : State, exec (.partitionReady ⟨p, failing⟩) s = .next u ∧
      u.partition p.val = { s.partition p.val with state := .ready, since := s.calends } ∧ u.mem = s.mem ∧ u.tiles = s.tiles ∧ u.power = s.power ∧
      (∀ c < 8, (s.partition p.val).clusters.getLsbD c = true → ∀ n, inCluster c n = true →
        (Sparse.wf {} s.net.targets → (u.target n).shim = ((s.target n).shim && failing.any (fun f => f.toNat = n))) ∧ (∀ k, (n, k) ∈ u.net.isolated ↔ (n, k) ∈ s.net.isolated ∧ ∃ f ∈ failing, f.toNat = n)) ∧
      (∀ c d, c < 8 → d < 8 → (s.partition p.val).clusters.getLsbD c = true → (s.partition p.val).clusters.getLsbD d = true → (u.seq c).epoch = (u.seq d).epoch) ∧
      (∀ c < 8, (s.partition p.val).clusters.getLsbD c = false → u.seq c = s.seq c)) ∧
    (¬ ((s.partition p.val).state = .forming ∧ on) → exec (.partitionReady ⟨p, failing⟩) s = .next s)) ∧
  (∀ (p : PartId) (c : Nat) (s : State), (s.partition p.val).state = .forming → c < 8 → (s.partition p.val).clusters.getLsbD c = true →
    ∃ u : State, exec (.formingTimeout p c) s = .next u ∧ u.partition p.val = s.partition p.val ∧ u.shimActive (0x2000 + c) = true ∧
      (∀ t, t / 512 = c → u.enabled t = false) ∧ (∀ n, domainOf n = some c ∨ domainOf n = some (8 + c) → u.shimActive n = true) ∧ u.mem = s.mem) ∧
  (∀ (p : PartId) (failing : List NodeId) (s : State), s.vigil.hung = false → s.freezing p.val = false →
    ((s.partition p.val).clusters = 0 ∨ s.power.porHeld = true ∨ s.power.holds ≠ [] → exec (.partReset p) s = .next s) ∧
    ((s.partition p.val).clusters ≠ 0 → s.power.porHeld = false → s.power.holds = [] → ∃ u : State, exec (.partReset p) s = .next u ∧
      (u.partition p.val).state = (if (s.partition p.val).state = .forming then .forming else .resetting) ∧ (u.partition p.val).since = s.calends ∧
      (u.partition p.val).clusters = (s.partition p.val).clusters ∧ (u.partition p.val).models = [] ∧ u.fences p.val = s.fences p.val ∧
      (∀ t : TileId, (s.partition p.val).clusters.getLsbD (t.val / 512) = true → (u.tile t).task = none ∧ (u.tile t).progLen = 0 ∧ (u.tile t).xfers = [] ∧ (u.tile t).g = []) ∧
      (∀ c < 8, (s.partition p.val).clusters.getLsbD c = true → (u.seq c).queues = [] ∧ (u.seq c).tallies = [])) ∧
    ((s.partition p.val).state = .resetting → (∀ v < 64, s.viPart v = some p.val → (s.vi v).resetting = none) →
      exec (.partResetComplete ⟨p, failing⟩) s = .next ((s.liftPartition p.val failing).setPartition p.val { s.partition p.val with state := .ready, since := s.calends })) ∧
    ((s.partition p.val).state ≠ .resetting ∨ (∃ v < 64, s.viPart v = some p.val ∧ (s.vi v).resetting.isSome = true) → exec (.partResetComplete ⟨p, failing⟩) s = .next s)) ∧
  (∀ (p : PartId) (s : State),
    (s.vigil.hung = true → exec (.partReset p) s = .next s) ∧
    (s.vigil.hung = false → s.freezing p.val = true → exec (.partReset p) s = .next { s with vigil := { s.vigil with waitingParts := (s.vigil.waitingParts ++ [p.val]).eraseDups } })) ∧
  (∀ (r : Requester) (p : PartId) (k : Fin 8) (v : Nat) (s : State), s.writePasses (.fenceWrite r p k v) →
    let old := (s.fences p.val).getD (k.val % 4) (0, 0)
    let new := if k.val < 4 then (v, old.2) else (old.1, v)
    let others := ∀ q < 8, q ≠ p.val → ∀ f ∈ s.fences q, new.1 + new.2 ≤ f.1 ∨ f.1 + f.2 ≤ new.1 ∨ new.2 = 0 ∨ f.2 = 0
    (v % 0x20000 ≠ 0 ∨ hbmBytes s < new.1 + new.2 ∨ ¬ others → exec (.fenceWrite r p k v) s = .next (s.written .badValue)) ∧
    (v % 0x20000 = 0 → new.1 + new.2 ≤ s.descBase → others → (s.partition p.val).models = [] → (∀ j, 3 ≤ j → j ≤ 6 → s.obj (0x5030 + 0x100 * p.val) j 0 = 0) →
      (∀ q < 8, (s.partition q).zeroing = []) → ∃ u : State, exec (.fenceWrite r p k v) s = .next u ∧ u.dict.lastStatus = .ok ∧
        u.obj (0x5001 + 0x100 * p.val) k.val 0 = v ∧ u.mem = s.mem ∧
        (∀ a, (∃ f ∈ s.fences p.val, f.1 ≤ a ∧ a < f.1 + f.2) → (∀ f ∈ u.fences p.val, ¬ (f.1 ≤ a ∧ a < f.1 + f.2)) →
          ∃ z ∈ (u.partition p.val).zeroing, z.1 ≤ a ∧ a < z.1 + z.2))) ∧
  (∀ (p : PartId) (s : State), ∃ u : State, exec (.fenceZeroingDone p) s = .next u ∧ (u.partition p.val).zeroing = [] ∧
    (∀ z ∈ (s.partition p.val).zeroing, ∀ a, z.1 ≤ a → a < z.1 + z.2 → memByte u.mem.cells a = 0) ∧
    (∀ a, (∀ z ∈ (s.partition p.val).zeroing, a < z.1 ∨ z.1 + z.2 ≤ a) → memByte u.mem.cells a = memByte s.mem.cells a) ∧ u.tiles = s.tiles ∧ u.net = s.net)

/-- R364, R367, R379, R403, R530: VI resets. -/
def Obligations.ViResetsFollowTheirSteps : Prop :=
  (∀ (v : ViId) (s : State),
    ((s.vi v.val).resetting.isSome = true → s.freezing ((s.viPart v.val).getD 8) = false → exec (.viReset v) s = .next s) ∧
    (s.freezing ((s.viPart v.val).getD 8) = true → exec (.viReset v) s = .next { s with vigil := { s.vigil with waitingVis := (s.vigil.waitingVis ++ [v.val]).eraseDups } }) ∧
    ((s.vi v.val).resetting = none → s.freezing ((s.viPart v.val).getD 8) = false →
      s.power.porHeld = true ∨ s.power.holds ≠ [] ∨ (∃ p, s.viPart v.val = some p ∧ (s.partition p).state = .resetting) →
      exec (.viReset v) s = .next (s.setVi v.val { s.vi v.val with vf := (s.vi v.val).vf && s.vfOn v.val })) ∧
    ((s.vi v.val).resetting = none → s.freezing ((s.viPart v.val).getD 8) = false →
      s.power.porHeld = false → s.power.holds = [] → (∀ p, s.viPart v.val = some p → (s.partition p).state ≠ .resetting) → ∃ u : State, exec (.viReset v) s = .next u ∧
      (u.vi v.val).resetting = some s.calends ∧ (∀ w, w ≠ v.val → u.vi w = s.vi w) ∧
      (∀ c ∈ u.host.cmds, c.key.vi = v.val → c.phase ≠ .running ∨ entryOp c.entry = 1) ∧
      (∀ c < 8, ∀ q, ∀ t ∈ u.queue c q, t.cmd.vi = v.val → t.phase = .dispatched ∧ ∀ i : TileId, i.val ∈ taskTiles c t.desc → (u.tile i).stopped = true))) ∧
  (∀ (v : ViId) (s : State), (s.vi v.val).resetting.isSome = true → ∃ u : State, exec (.viTileScrub v) s = .next u ∧
    (∀ c < 8, ∀ q, ∀ t ∈ u.queue c q, ¬ (t.cmd.vi = v.val ∧ t.phase = .dispatched)) ∧
    (∀ c < 8, ∀ q, ∀ t ∈ s.queue c q, t.cmd.vi = v.val → t.phase = .dispatched → ∀ i : TileId, i.val ∈ taskTiles c t.desc →
      (u.tile i).task = none ∧ (u.tile i).progLen = 0 ∧ (u.tile i).xfers = [] ∧ Sparse.get none (u.seq c).programs i.val = none)) ∧
  (∀ (v : ViId) (s : State) (i : Instr), (s.vi v.val).resetting.isSome = true →
    (i = .viResetForce v) ∨ (i = .viResetComplete v ∧ s.viRequests v.val = [] ∧ s.viDispatched v.val = false) →
    ∃ u : State, exec i s = .next u ∧ (u.vi v.val).resetting = none ∧ (u.vi v.val).cqEnable = false ∧ (u.vi v.val).cqHead = 0 ∧ (u.vi v.val).cqTail = 0 ∧
      (∀ r, (Sparse.get {} (u.vi v.val).rings r).enable = false ∧ (Sparse.get {} (u.vi v.val).rings r).head = 0 ∧ (Sparse.get {} (u.vi v.val).rings r).tail = 0) ∧
      (∀ c ∈ u.host.cmds, c.key.vi ≠ v.val) ∧ (u.vi v.val).fnEvents.getLsbD 0 = true ∧
      (∀ w, w ≠ v.val → (u.vi w).rings = (s.vi w).rings ∧ (u.vi w).resetting = (s.vi w).resetting)) ∧
  (∀ (v : ViId) (s : State),
    ((s.vi v.val).resetting = none → exec (.viResetForce v) s = .next s ∧ exec (.viResetComplete v) s = .next s ∧ exec (.viTileScrub v) s = .next s) ∧
    (s.viRequests v.val ≠ [] ∨ s.viDispatched v.val = true → exec (.viResetComplete v) s = .next s))

/-- R12, R328, R364, R382, R386 to R388, R396: registers and doorbells of a function block. The BAD_VALUE of an enable at a VI that is not READY,
and the OUT_OF_RANGE of a misaligned base, are the model's (log entry 21). -/
def Obligations.RegistersAndDoorbellsFollowTheirRules : Prop :=
  let sizeOk := fun (n : Nat) => ∃ k, 1 ≤ k ∧ k ≤ 16 ∧ n = 2 ^ k
  (∀ (s : State) (v : Nat) (st : Status),
    let x := s.vi v
    let u := s.refuseRegister v st
    (u.vi v).regError = Status.code st ∧ (u.vi v).fnEvents = x.fnEvents ||| 8#4 ∧ (u.vi v).rings = x.rings ∧ (u.vi v).cqEnable = x.cqEnable ∧
      (u.vi v).cqBase = x.cqBase ∧ (u.vi v).cqSize = x.cqSize ∧ (u.vi v).cqHead = x.cqHead ∧ (u.vi v).cqTail = x.cqTail ∧ (u.vi v).mask = x.mask ∧
      (∀ w, w ≠ v → u.vi w = s.vi w) ∧ u.host.cmds = s.host.cmds ∧ u.mem = s.mem ∧ u.tiles = s.tiles ∧ u.net = s.net ∧
      (x.mask.getLsbD 3 = true ∨ x.msixEnable = false → u.host.out = s.host.out ∧ (u.vi v).pba = x.pba) ∧
      (x.mask.getLsbD 3 = false → x.msixEnable = true → x.functionMask = false ∧ (x.msixWord 31 3).testBit 0 = false →
        u.host.out = s.host.out ++ [.msix v 31 (x.msixWord 31 0 + 2 ^ 32 * x.msixWord 31 1) (x.msixWord 31 2)]) ∧
      (x.mask.getLsbD 3 = false → x.msixEnable = true → x.functionMask = true ∨ (x.msixWord 31 3).testBit 0 = true →
        u.host.out = s.host.out ∧ (u.vi v).pba.getLsbD 31 = true)) ∧
  (∀ (v : ViId) (r : RingId) (val : Nat) (i : Instr) (s : State), i = .ringEnable v r val ∨ i = .ringFault v r val →
    let g := (s.vi v.val).ring r.val
    let ok := sizeOk g.size ∧ g.base + 128 * g.size ≤ 2 ^ 48 ∧ g.base % 4096 = 0
    let f := g.fault && !(val.testBit 1)
    (val.testBit 0 = false → exec i s = .next (s.setRing v.val r.val { g with enable := false, fetch := none, fault := f })) ∧
    (val.testBit 0 = true → s.viState v.val = 2 → ok → exec i s = .next (s.setRing v.val r.val { g with enable := true, head := 0, tail := 0, fetch := none, fault := f })) ∧
    (val.testBit 0 = true → s.viState v.val = 2 → ¬ ok → exec i s = .next (s.refuseRegister v.val .outOfRange)) ∧
    (val.testBit 0 = true → s.viState v.val ≠ 2 → exec i s = .next (s.refuseRegister v.val .badValue))) ∧
  (∀ (v : ViId) (val : Nat) (s : State),
    let x := s.vi v.val
    let busy := ∃ c ∈ s.host.cmds, c.key.vi = v.val ∧ c.refused = false
    let ok := sizeOk x.cqSize ∧ x.cqBase + 32 * x.cqSize ≤ 2 ^ 48 ∧ x.cqBase % 4096 = 0
    (busy → exec (.cqEnable v val) s = .next (s.refuseRegister v.val .busyStopClass)) ∧
    (¬ busy → val.testBit 0 = false → exec (.cqEnable v val) s = .next (s.setVi v.val { x with cqEnable := false })) ∧
    (¬ busy → val.testBit 0 = true → s.viState v.val = 2 → ok → exec (.cqEnable v val) s = .next (s.setVi v.val { x with cqEnable := true, cqHead := 0, cqTail := 0 })) ∧
    (¬ busy → val.testBit 0 = true → s.viState v.val = 2 → ¬ ok → exec (.cqEnable v val) s = .next (s.refuseRegister v.val .outOfRange)) ∧
    (¬ busy → val.testBit 0 = true → s.viState v.val ≠ 2 → exec (.cqEnable v val) s = .next (s.refuseRegister v.val .badValue))) ∧
  (∀ (v : ViId) (s : State), ∃ u : State, exec (.regError v) s = .next u ∧
    u.host.answers = s.host.answers ++ [.register v.val 0 ((s.vi v.val).regError * 256 + s.viState v.val)] ∧ u.vi v.val = { s.vi v.val with regError := 0 } ∧
    (∀ w, w ≠ v.val → u.vi w = s.vi w) ∧ u.host.cmds = s.host.cmds ∧ u.mem = s.mem ∧ u.tiles = s.tiles) ∧
  (∀ (v : ViId) (val : Nat) (s : State), ∃ u : State, exec (.fnEvents v val) s = .next u ∧ u.host.cmds = s.host.cmds ∧ u.host.out = s.host.out ∧ u.mem = s.mem ∧
    (∀ b < 4, (u.vi v.val).fnEvents.getLsbD b = ((s.vi v.val).fnEvents.getLsbD b && !(val.testBit b))) ∧ (u.vi v.val).rings = (s.vi v.val).rings ∧
    (u.vi v.val).regError = (s.vi v.val).regError ∧ (∀ w, w ≠ v.val → u.vi w = s.vi w)) ∧
  (∀ (v : ViId) (r : RingId) (off n val : Nat) (s : State), ¬ (v.val = 0 ∧ s.bootLoad = true) →
    let x := s.vi v.val
    let g := x.ring r.val
    let go := exec (.registerWrite (some v) off n val) s
    (off < 0x2000 → (n ≠ 4 ∧ n ≠ 8) ∨ off % n ≠ 0 → go = .next (s.refuseRegister v.val .badValue)) ∧
    (n = 4 ∨ n = 8 → off % n = 0 → (0x020 ≤ off ∧ off < 0x100) ∨ (0x220 ≤ off ∧ off < 0x1000) ∨ (0x1200 ≤ off ∧ off < 0x1800) ∨ (0x1808 ≤ off ∧ off < 0x2000) ∨ 0x4000 ≤ off →
      go = .next (s.refuseRegister v.val .outOfRange)) ∧
    (n = 8 → off = 0x100 + 0x40 * r.val → go = .next (if g.enable then s.refuseRegister v.val .busyStopClass else s.setRing v.val r.val { g with base := val % 2 ^ 48 })) ∧
    (n = 8 → off = 0x108 + 0x40 * r.val → go = .next (if g.enable then s.refuseRegister v.val .busyStopClass else s.setRing v.val r.val { g with size := val % 2 ^ 32 })) ∧
    (n = 8 → off = 0x200 → go = .next (if x.cqEnable then s.refuseRegister v.val .busyStopClass else s.setVi v.val { x with cqBase := val % 2 ^ 48 })) ∧
    (n = 8 → off = 0x208 → go = .next (if x.cqEnable then s.refuseRegister v.val .busyStopClass else s.setVi v.val { x with cqSize := val % 2 ^ 32 })) ∧
    (n = 8 → off = 0x010 → go = .next (s.setVi v.val { x with mask := BitVec.ofNat 4 val }))) ∧
  (∀ (v : ViId) (r : RingId) (size val : Nat) (i : Instr) (s : State),
    (i = .ringTail v r size val ∧ size ≠ 4) ∨ (i = .cqHead v size val ∧ size ≠ 4) ∨ (i = .wakeDoorbell v size val ∧ size ≠ 8) → exec i s = .next (s.hostStat 2)) ∧
  (∀ (v : ViId) (r : RingId) (val : Nat) (i : Instr) (s : State),
    (i = .ringTail v r 4 val) ∨ (i = .cqHead v 4 val) ∨ (i = .wakeDoorbell v 8 val) → s.viState v.val ≠ 2 →
    exec i s = .next (s.setVi v.val { s.vi v.val with doorbellsRefused := ((s.vi v.val).doorbellsRefused + 1) % 2 ^ 32 })) ∧
  (∀ (v : ViId) (r : RingId) (t : Nat) (s : State), s.viState v.val = 2 → t < 2 ^ 32 →
    let g := (s.vi v.val).ring r.val
    let bad := g.size < (t + 2 ^ 32 - g.head) % 2 ^ 32 ∨ 2 ^ 31 ≤ (t + 2 ^ 32 - g.tail) % 2 ^ 32 ∨ g.enable = false
    (bad → exec (.ringTail v r 4 t) s = .next (s.refuseRegister v.val .outOfRange)) ∧
    (¬ bad → exec (.ringTail v r 4 t) s = .next (s.setRing v.val r.val { g with tail := t }))) ∧
  (∀ (v : ViId) (h : Nat) (s : State), s.viState v.val = 2 → h < 2 ^ 32 →
    let x := s.vi v.val
    let bad := (x.cqTail + 2 ^ 32 - x.cqHead) % 2 ^ 32 < (h + 2 ^ 32 - x.cqHead) % 2 ^ 32
    (bad → exec (.cqHead v 4 h) s = .next (s.refuseRegister v.val .outOfRange)) ∧
    (¬ bad → exec (.cqHead v 4 h) s = .next (s.setVi v.val { x with cqHead := h }))) ∧
  (∀ (v : ViId) (sid hint rsv : Nat) (s : State), s.viState v.val = 2 → sid < 2 ^ 16 → hint < 2 ^ 32 → rsv < 2 ^ 16 →
    let x := s.vi v.val
    let go := exec (.wakeDoorbell v 8 (rsv * 2 ^ 48 + hint * 2 ^ 16 + sid)) s
    let mine := ∃ p, s.viPart v.val = some p ∧ s.obj (0x5030 + 0x100 * p) 0 0 ≤ sid ∧ sid < s.obj (0x5030 + 0x100 * p) 0 0 + s.obj (0x5030 + 0x100 * p) 1 0 ∧
      ((s.session sid).state = .closed ∨ (s.session sid).vi = v.val)
    (rsv ≠ 0 → go = .next (s.refuseRegister v.val .illegalEncoding)) ∧
    (rsv = 0 → ¬ mine → go = .next (s.setVi v.val { x with wakeRefused := (x.wakeRefused + 1) % 2 ^ 32 })) ∧
    (rsv = 0 → mine → ∃ u : State, ∃ o : ShelfOp, go = .next u ∧ u.shelf.promotions = s.shelf.promotions ++ [o] ∧ o.kind = .wake hint ∧ o.sid = sid ∧ o.cmd = none ∧ o.tW = s.calends ∧ o.started = false ∧
      ((∀ d ∈ s.shelf.demotions, d.sid ≠ sid) → u.mem = s.mem ∧ u.host = s.host ∧ u.shelf.sessions = s.shelf.sessions ∧ u.shelf.demotions = s.shelf.demotions)))

/-- R389 to R392, R404: fetching and validation of command entries. -/
def Obligations.EntriesAreFetchedAndValidated : Prop :=
  (∀ (v : ViId) (r : RingId) (s : State),
    let may := fun (w q : Nat) => s.vigil.hung = false ∧ s.viState w = 2 ∧ (s.vi w).cqEnable = true ∧ ((s.vi w).ring q).enable = true ∧ ((s.vi w).ring q).fault = false ∧
      ((s.vi w).ring q).fetch = none ∧ ((s.vi w).ring q).tail ≠ ((s.vi w).ring q).head ∧ (s.host.cmds.filter (fun c => !c.refused)).length < 256 ∧
      ∀ c ∈ s.host.cmds, c.key.vi = w → c.key.ring = q → entryOp c.entry = 7 → c.phase ≠ .running
    let g := (s.vi v.val).ring r.val
    let n := min (min 8 ((g.tail + 2 ^ 32 - g.head) % 2 ^ 32)) (g.size - g.head % g.size)
    (¬ may v.val r.val → exec (.entryFetch v r) s = .next s) ∧
    (may v.val r.val → (∀ w < 64, ∀ q < 4, may w q → w = v.val ∧ q = r.val) → ∃ u : State, exec (.entryFetch v r) s = .next u ∧ (u.vi v.val).ring r.val = { g with fetch := some (g.head, n) } ∧
      u.host.cmds = s.host.cmds ∧ u.mem = s.mem ∧ u.tiles = s.tiles ∧
      (∀ a, g.base + 128 * (g.head % g.size) = hostBase + a → hostBase + a < 0x800000000000 →
        let b := (s.translated v.val a).getD a
        u.host.out = (s.hostRead v.val b (128 * n)).host.out ∧
        (0 < n → b / max (s.vi v.val).maxRead 128 = (b + 128 * n - 1) / max (s.vi v.val).maxRead 128 →
          u.host.out = s.host.out ++ [.read v.val b (128 * n) s.host.nextTag (decide (s.host.cxl ≠ 0))])))) ∧
  (∀ (v : ViId) (r : RingId) (d : HostData) (s : State) (k e : Nat),
    let g := (s.vi v.val).ring r.val
    g.fetch = some (k, 1) → g.enable = true → s.viState v.val = 2 → s.host.linkState = 2 → (s.vi v.val).busMaster = true →
    hostBase ≤ g.base + 128 * (k % g.size) → g.base + 128 * (k % g.size) + 128 ≤ 0x800000000000 → (∀ c ∈ s.host.cmds, c.key ≠ ⟨v.val, r.val, g.head⟩) →
    let s1 := s.setRing v.val r.val { g with fetch := none }
    let head := { g with fetch := none, head := (g.head + 1) % 2 ^ 32 }
    let st := s1.validate v.val r.val e
    let key : CmdKey := ⟨v.val, r.val, g.head⟩
    (d.outcome ≠ .ok → ∃ u : State, exec (.entryArrival v r d) s = .next u ∧ (u.vi v.val).ring r.val = { g with fetch := none, fault := true } ∧
      (u.vi v.val).fnEvents.getLsbD 1 = true ∧ u.host.cmds = s.host.cmds ∧ u.tiles = s.tiles ∧ u.mem = s.mem) ∧
    (d.outcome = .ok → d.data = e → e < 2 ^ 1024 →
      (st ≠ .ok → ∃ (u : State) (c : Cmd), exec (.entryArrival v r d) s = .next u ∧ (u.vi v.val).ring r.val = head ∧ u.host.cmds = s.host.cmds ++ [c] ∧
        c.key = key ∧ c.entry = e ∧ c.refused = true ∧ c.status = st ∧ c.phase = .recorded ∧ u.mem = s.mem ∧ u.tiles = s.tiles) ∧
      (st = .ok → s1.pauses v.val r.val e = true → exec (.entryArrival v r d) s = .next s1) ∧
      (st = .ok → s1.pauses v.val r.val e = false → entryOp e ≠ 1 ∨ runSession e = none → ∃ (u : State) (c : Cmd), exec (.entryArrival v r d) s = .next u ∧
        (u.vi v.val).ring r.val = head ∧ u.host.cmds = s.host.cmds ++ [c] ∧ c.key = key ∧ c.entry = e ∧ c.refused = false ∧ c.phase = .running ∧
        c.begun = false ∧ c.tA = s.calends ∧ c.part = (s.viPart v.val).getD 0 ∧ u.tiles = s.tiles ∧ u.mem = s.mem ∧
        (∀ m, entryOp e = 1 → s.modelOf c.part (entryW e 3) = some m → c.items = runItems e m)) ∧
      (∀ sid, st = .ok → s1.pauses v.val r.val e = false → entryOp e = 1 → runSession e = some sid → (s.session sid).broken = false →
        sid ∈ s.shelf.cache ∨ s.mem.cond = [] → (∀ o ∈ s.shelf.demotions, o.sid ≠ sid) →
        let a := bitsAt (entryW e 5) 0 32
        ∃ (u : State) (c : Cmd), exec (.entryArrival v r d) s = .next u ∧ (u.vi v.val).ring r.val = head ∧ u.host.cmds = s.host.cmds ++ [c] ∧ c.key = key ∧ c.entry = e ∧
          c.refused = false ∧ c.phase = .running ∧ c.begun = false ∧ c.tA = s.calends ∧ c.reserved = !(s.needsReservation sid a) ∧ u.tiles = s.tiles ∧ (∀ m, entryOp e = 1 → s.modelOf c.part (entryW e 3) = some m → c.items = runItems e m) ∧
          (s.needsReservation sid a = false → u.shelf.promotions = s.shelf.promotions) ∧
          (s.needsReservation sid a = true → ∃ o : ShelfOp, u.shelf.promotions = s.shelf.promotions ++ [o] ∧ o.kind = .run a ∧ o.sid = sid ∧ o.cmd = some key ∧
            o.tW = s.calends ∧ o.started = false)))) ∧
  (∀ (v : ViId) (r : RingId) (d : HostData) (s : State), ((s.vi v.val).ring r.val).fetch = none → exec (.entryArrival v r d) s = .next s) ∧
  (∀ (v r : Nat) (s : State) (op rec tag : Nat), op < 256 → rec < 2 ^ 48 → tag < 2 ^ 32 →
    let p := (s.viPart v).getD 0
    let e := fun (vec rsv : Nat) => op + 2 ^ 8 + vec * 2 ^ 16 + rsv * 2 ^ 21 + tag * 2 ^ 32 + rec * 2 ^ 64
    (∀ vec rsv, vec < 32 → 0 < rsv → rsv < 2 ^ 11 → s.validate v r (e vec rsv) = .illegalEncoding) ∧
    (∀ vec, vec < 32 → (9 < op ∨ rec % 256 ≠ 0) → s.validate v r (e vec 0) = .badValue) ∧
    (op = 0 → rec % 256 = 0 → s.validate v r (e 31 0) = .outOfRange) ∧
    (∀ vec, vec < 31 → op = 0 → rec % 256 = 0 → rec ≠ 0 → s.addressOk p rec 256 = false → s.validate v r (e vec 0) = .outOfRange) ∧
    (∀ vec, vec < 31 → op = 0 → rec % 256 = 0 → (rec = 0 ∨ s.addressOk p rec 256 = true) →
      s.validate v r (e vec 0) = (if (s.partition p).state = .hung then .hung else .ok)))

/-- R328, R341, R342, R344, R347, R354, R391, R393 to R395, R502: the commands of the rings, LOAD_MODEL apart. -/
def Obligations.HostCommandsFollowTheirRules : Prop :=
  let fresh := fun (s : State) (v : ViId) (r : RingId) (q op : Nat) (c : Cmd) => s.cmd ⟨v.val, r.val, q⟩ = some c ∧ c.phase = .running ∧ c.begun = false ∧
    entryOp c.entry = op ∧ (s.vi v.val).resetting = none
  let ends := fun (s : State) (c : Cmd) (st : Status) => (s.begin c.key).endCmd c.key st 0
  (∀ (s : State) (c : Cmd) (st : Status), s.cmd c.key = some c → c.phase = .running →
    (ends s c st).cmd c.key = some { c with begun := true, phase := .ended, tEnd := s.calends, status := if st = .ok ∧ c.poisoned = true then .eccUncorrected else st, result := 0 } ∧
    (∀ k, k ≠ c.key → (ends s c st).cmd k = s.cmd k) ∧ (ends s c st).mem = s.mem ∧ (ends s c st).tiles = s.tiles ∧ (ends s c st).shelf = s.shelf ∧ (ends s c st).net = s.net) ∧
  (∀ (v : ViId) (r : RingId) (q : Nat) (h : HostData) (s : State) (i : Instr) (op : Nat), (∀ c, ¬ fresh s v r q op c) →
    (i, op) ∈ [(.hostNop v r q, 0), (.run v r q, 1), (.memCopy v r q, 3), (.sessionWake v r q, 4), (.sessionPark v r q, 5), (.sessionClose v r q, 6), (.fence v r q, 7),
      (.fenceEpochTimeout v r q, 7), (.dict v r q h, 8), (.digestRead v r q, 9)] → exec i s = .next s) ∧
  (∀ (v : ViId) (r : RingId) (q : Nat) (s : State) (c : Cmd), fresh s v r q 0 c → exec (.hostNop v r q) s = .next (ends s c .ok)) ∧
  (∀ (e : Nat) (m : Model) (x : Nat × Nat × Nat),
    let list := m.lists.getD (bitsAt (entryW e 4) 0 16) []
    x ∈ runItems e m ↔ ∃ j < list.length, x = ((list.getD j (0, 0)).1, (list.getD j (0, 0)).2, j) ∧ (bitsAt (entryW e 4) 48 8).testBit (list.getD j (0, 0)).1 = true) ∧
  (∀ (v : ViId) (r : RingId) (q : Nat) (s : State) (c : Cmd), fresh s v r q 1 c →
    let e := c.entry
    let rb := bitsAt (entryW e 6) 0 48
    let a := bitsAt (entryW e 5) 0 32
    let sess := (runSession e).map s.session
    let words := [bitsAt (entryW e 5) 32 32 + a * 2 ^ 32, bitsAt (entryW e 4) 16 1 * 2 ^ 16 + bitsAt (entryW e 4) 32 16, (sess.map (·.ptAddr)).getD 0,
      (sess.map (·.tokens)).getD 0, c.tA, entryW e 7, entryW e 8, entryW e 9]
    let w := (s.begin c.key).deviceWrite pcieNode 0 v.val c.part rb 64 (ofLanes 64 words)
    let go := exec (.run v r q) s
    (rb ≠ 0 → w.1 ≠ .ok → go = .next (w.2.failRun c.key 0 0 w.1)) ∧
    (rb ≠ 0 → w.1 = .ok → go = .next ((w.2.updCmd c.key (fun c => { c with blockReady := true })).finishRun c.key)) ∧
    (rb = 0 → (c.items ≠ [] ∨ c.live ≠ 0 ∨ (c.failure = none ∧ c.cancelled = none ∧ c.reserved = false)) →
      go = .next (s.updCmd c.key (fun c => { c with begun := true, blockReady := true }))) ∧
    (rb = 0 → c.items = [] → c.live = 0 → c.failure = none → c.cancelled = none → c.reserved = true →
      let st := if c.poisoned then .eccUncorrected else c.page.getD .ok
      ∃ u : State, ∃ c' : Cmd, go = .next u ∧ u.cmd c.key = some c' ∧ c'.phase = .ended ∧ c'.status = st ∧ c'.result = c.tasksDone * 2 ^ 32 + c.tasksNot ∧
        (runSession e = none → u.shelf = s.shelf ∧ u.mem = s.mem) ∧
        (∀ sid, runSession e = some sid → (s.session sid).state ≠ .closed → (u.session sid).tokens = (s.session sid).tokens + (if st = .ok then a else 0) ∧
          (u.session sid).lastRun = s.calends ∧ (u.session sid).idleSince = s.calends ∧ (u.session sid).pages = (s.session sid).pages))) ∧
  (∀ (v : ViId) (r : RingId) (q : Nat) (s : State) (c : Cmd), fresh s v r q 3 c → ∃ u : State, ∃ d : CopyDesc, exec (.memCopy v r q) s = .next u ∧
    u.cmd c.key = some { c with begun := true } ∧ u.copyWait = s.copyWait ++ [d] ∧ d.owner = .memCopy c.key ∧ d.vi = v.val ∧ d.part = c.part ∧ d.words = bitsAt c.entry 192 512 ∧
    d.done = none ∧ d.active = false ∧ u.mem = s.mem ∧ u.engines = s.engines) ∧
  (∀ (v : ViId) (r : RingId) (q : Nat) (s : State) (c : Cmd) (open_ : Bool), fresh s v r q 4 c → (entryW c.entry 4).testBit 16 = open_ →
    let w := entryW c.entry 4
    let sid := bitsAt w 0 16
    let x := s.session sid
    let hung := (s.partition c.part).state = .hung
    (s.namesSession v.val sid = false → exec (.sessionWake v r q) s = .next (ends s c .notFound)) ∧
    (s.namesSession v.val sid = true → hung → exec (.sessionWake v r q) s = .next (ends s c .hung)) ∧
    let k := bitsAt w 20 3
    let hint := bitsAt (entryW c.entry 5) 0 32
    let f := s.profile v.val k
    let pMax := ceilDiv (f 2 * f 1) 65536
    let badShape := f 0 = 0 ∨ f 1 = 0 ∨ 16384 < f 0 * pMax ∨ f 2 < hint
    let block := freeBlocks (s.partition c.part).pt ((s.ptRegion c.part).2 / 4096) (ceilDiv (f 0 * pMax * 8) 4096)
    (s.namesSession v.val sid = true → ¬ hung → open_ = false → x.state = .closed ∨ x.closing = true → exec (.sessionWake v r q) s = .next (ends s c .notFound)) ∧
    (s.namesSession v.val sid = true → ¬ hung → open_ = true → x.state ≠ .closed ∨ x.closing = true → exec (.sessionWake v r q) s = .next (ends s c .badValue)) ∧
    (s.namesSession v.val sid = true → ¬ hung → open_ = true → x.state = .closed → x.closing = false → badShape → exec (.sessionWake v r q) s = .next (ends s c .outOfRange)) ∧
    (s.namesSession v.val sid = true → ¬ hung → open_ = true → x.state = .closed → x.closing = false → ¬ badShape → block = none → exec (.sessionWake v r q) s = .next (ends s c .noSpace)) ∧
    (∀ b, s.namesSession v.val sid = true → ¬ hung → open_ = true → x.state = .closed → x.closing = false → ¬ badShape → block = some b → (∀ d ∈ s.shelf.demotions, d.sid ≠ sid) →
      ∃ u : State, ∃ o : ShelfOp, exec (.sessionWake v r q) s = .next u ∧ u.shelf.promotions = s.shelf.promotions ++ [o] ∧ o.kind = .wake hint ∧ o.sid = sid ∧ o.cmd = some c.key ∧ o.tW = s.calends ∧
        (u.session sid).state = .live ∧ (u.session sid).promoting = true ∧ (u.session sid).pin = decide (bitsAt w 17 2 = 1) ∧ (u.session sid).vi = v.val ∧ (u.session sid).part = c.part ∧
        (u.session sid).profile = k ∧ (u.session sid).layers = f 0 ∧ (u.session sid).maxTokens = f 2 ∧ (u.session sid).tokens = 0 ∧ (u.session sid).pages = [] ∧
        (u.session sid).ptAddr = (s.ptRegion c.part).1 + 4096 * b ∧ (∀ j, j ≠ sid → u.session j = s.session j)) ∧
    (s.namesSession v.val sid = true → ¬ hung → open_ = false → x.state ≠ .closed → x.closing = false → ∃ u : State, ∃ o : ShelfOp, exec (.sessionWake v r q) s = .next u ∧
      u.shelf.promotions = s.shelf.promotions ++ [o] ∧ o.kind = .wake hint ∧ o.sid = sid ∧ o.cmd = some c.key ∧ o.tW = s.calends ∧ o.pin = bitsAt w 17 2 ∧ o.started = false ∧
      (u.session sid).pages = x.pages ∧ (∀ d ∈ u.shelf.demotions, d.sid = sid → d.started = true ∧ d.todo = []) ∧
      ((∀ d ∈ s.shelf.demotions, d.sid ≠ sid) → u.shelf.sessions = s.shelf.sessions ∧ u.mem = s.mem ∧ u.cmd c.key = some { c with begun := true }))) ∧
  (∀ (v : ViId) (r : RingId) (q : Nat) (s : State) (c : Cmd), fresh s v r q 5 c →
    let sid := bitsAt (entryW c.entry 4) 0 16
    let tier := bitsAt (entryW c.entry 4) 16 2
    let x := s.session sid
    let go := exec (.sessionPark v r q) s
    let hung := (s.partition c.part).state = .hung
    let looked := fun (st : Status) => ((s.begin c.key).lookup sid).endCmd c.key st 0
    (s.namesSession v.val sid = false ∨ x.state = .closed ∨ x.closing = true → go = .next (ends s c .notFound)) ∧
    (s.namesSession v.val sid = true → x.state ≠ .closed → x.closing = false → hung → go = .next (ends s c .hung)) ∧
    (s.namesSession v.val sid = true → x.state ≠ .closed → x.closing = false → ¬ hung → x.broken = true → go = .next (looked .eccUncorrected)) ∧
    (s.namesSession v.val sid = true → x.state ≠ .closed → x.closing = false → ¬ hung → x.broken = false → sid ∈ s.shelf.cache ∨ s.mem.cond = [] →
      (x.pin = true ∨ s.active sid = true → go = .next (looked .busyStopClass)) ∧
      (x.pin = false → s.active sid = false → x.state ≠ .live → tier = 1 → go = .next (looked .ok)) ∧
      (x.pin = false → s.active sid = false → x.state = .live ∨ tier ≠ 1 → ∃ u : State, go = .next u ∧
        u.shelf.demotions = s.shelf.demotions ++ [{ id := s.serial, kind := .park tier, sid := sid, cmd := some c.key, tW := s.calends }] ∧
        u.shelf.sessions = s.shelf.sessions ∧ u.cmd c.key = some { c with begun := true } ∧ u.mem = s.mem))) ∧
  (∀ (v : ViId) (r : RingId) (q : Nat) (s : State) (c : Cmd), fresh s v r q 6 c →
    let sid := bitsAt (entryW c.entry 4) 0 16
    let x := s.session sid
    let go := exec (.sessionClose v r q) s
    (s.namesSession v.val sid = false ∨ x.state = .closed ∨ x.closing = true → go = .next (ends s c .notFound)) ∧
    (s.namesSession v.val sid = true → x.state ≠ .closed → x.closing = false → s.active sid = true → go = .next (ends s c .busyStopClass)) ∧
    (s.namesSession v.val sid = true → x.state ≠ .closed → x.closing = false → s.active sid = false → (∀ m ∈ s.shelf.moves, m.sid ≠ sid) → (∀ o ∈ s.shelf.promotions, o.sid ≠ sid) →
      (∀ o ∈ s.shelf.demotions, o.sid ≠ sid) → ∃ u : State, ∃ c' : Cmd, go = .next u ∧ (u.session sid).state = .closed ∧ (∀ k, k ≠ sid → u.session k = s.session k) ∧
        u.cmd c.key = some c' ∧ c'.phase = .ended ∧ c'.status = (if c.poisoned then .eccUncorrected else .ok))) ∧
  (∀ (v : ViId) (r : RingId) (q : Nat) (s : State) (c : Cmd), fresh s v r q 7 c →
    let clear := ∀ x ∈ s.host.cmds.takeWhile (fun x => x.key ≠ c.key), x.refused = false → x.key.vi = c.key.vi → (entryW c.entry 4).testBit 0 = false ∧ x.key.ring ≠ c.key.ring
    let reached := (entryW c.entry 0).testBit 9 = true → ∀ k ∈ s.clustersOf c.part, ((s.seq k).epoch - BitVec.ofNat 32 (entryW c.entry 2)).toNat < 2 ^ 31
    (clear ∧ reached → exec (.fence v r q) s = .next (s.endCmd c.key .ok 0)) ∧ (¬ (clear ∧ reached) → exec (.fence v r q) s = .next s) ∧
    (clear ∧ ¬ reached → exec (.fenceEpochTimeout v r q) s = .next (s.endCmd c.key .epochWaitTimeout 0)) ∧ (¬ clear ∨ reached → exec (.fenceEpochTimeout v r q) s = .next s)) ∧
  (∀ (v : ViId) (r : RingId) (q : Nat) (h : HostData) (s : State) (c : Cmd), fresh s v r q 8 c →
    let n := bitsAt (entryW c.entry 4) 0 16
    let a := bitsAt (entryW c.entry 3) 0 48
    let d := (s.begin c.key).deviceRead pcieNode 0 v.val c.part a n h
    let go := exec (.dict v r q h) s
    (hostBase ≤ a → a + n ≤ 0x800000000000 → s.host.linkState = 2 → (s.vi v.val).busMaster = true → d.s = (if h.outcome = .ok ∨ h.outcome = .poisoned then s.begin c.key else (s.begin c.key).hostStat 3) ∧
      d.st = (if h.outcome = .ok ∨ h.outcome = .poisoned then .ok else hostStatus h.outcome) ∧ (h.outcome = .ok → d.val = h.data % 2 ^ (8 * n) ∧ d.poison = 0) ∧
      (h.outcome = .poisoned → 0 < n → d.poison ≠ 0)) ∧
    (d.st ≠ .ok → go = .next (d.s.endCmd c.key d.st 0)) ∧
    (d.st = .ok → d.poison ≠ 0 → go = .next (d.s.endCmd c.key .eccUncorrected 0)) ∧
    (d.st = .ok → d.poison = 0 → n < 8 → go = .next ((d.s.oapStat 6 1).endCmd c.key .badValue 0)) ∧
    (d.st = .ok → d.poison = 0 → 8 ≤ n → let w := d.s.oap (.mailbox v) (.dict c.key) false (oapParse n d.val)
      go = .next (if w.2 then w.1 else w.1.endCmd c.key .badValue 0))) ∧
  (∀ (v : ViId) (r : RingId) (q : Nat) (s : State) (c : Cmd) (t : TileId), fresh s v r q 9 c → bitsAt (entryW c.entry 4) 0 12 = t.val →
    let a := (s.begin c.key).deviceAccess (devicePacket pcieNode 0 v.val c.part (tileAddr t.val 0x1C200) 128 0 0) false
    let clear := (entryW c.entry 4).testBit 16
    let s1 := if clear then a.s.setTile t { a.s.tile t with block := {} } else a.s
    let w := s1.deviceWrite pcieNode 0 v.val c.part (bitsAt (entryW c.entry 3) 0 48) 128 a.val
    (a.st ≠ .ok → exec (.digestRead v r q) s = .next (a.s.endCmd c.key a.st 0)) ∧
    (a.st = .ok → exec (.digestRead v r q) s = .next (w.2.endCmd c.key w.1 0)))

/-- R372 to R377: loading a model. -/
def Obligations.LoadModelFollowsItsRules : Prop :=
  (∀ (lo hi al n : Nat) (held : List (Nat × Nat)), 0 < al → 0 < n →
    let free := fun (a : Nat) => lo ≤ a ∧ a + n ≤ hi ∧ a % al = 0 ∧ ∀ h ∈ held, a + n ≤ h.1 ∨ h.1 + h.2 ≤ a ∨ h.2 = 0
    (∀ a, lowestFree lo hi al n held = some a → free a ∧ ∀ b, free b → a ≤ b) ∧ (lowestFree lo hi al n held = none → ∀ b, ¬ free b)) ∧
  (∀ (v : ViId) (r : RingId) (q : Nat) (h : HostData) (s : State) (c : Cmd), s.cmd ⟨v.val, r.val, q⟩ = some c → c.phase = .running → c.begun = false → c.poisoned = false →
    entryOp c.entry = 2 → (s.vi v.val).resetting = none → hostBase ≤ bitsAt (entryW c.entry 3) 0 48 → bitsAt (entryW c.entry 3) 0 48 + 64 ≤ 0x800000000000 → s.host.linkState = 2 → (s.vi v.val).busMaster = true →
    let p := c.part
    let d := h.data % 2 ^ 512
    let m := s.readManifest v.val p d
    let t := m.s
    let old := entryW c.entry 4
    let nseg := bitsAt d 0 16
    let go := exec (.loadModel v r q h) s
    let used := fun (i : Nat) => (Sparse.get none (t.partition p).models i).isSome = true ∨ ∃ l ∈ t.loads, l.part = p ∧ l.slot = i
    let pools := t.pools p (t.arenaFrames p)
    let placed := placeAll pools false m.segs
    let copies := placed.placed.flatMap (t.segmentCopies p)
    let good := copies.filter (fun x => t.checkCopy v.val p x = .ok)
    let bad := (copies.map (t.checkCopy v.val p)).find? (fun x => x ≠ .ok)
    let gen := fun (i : Nat) => if Sparse.get 0 (t.partition p).gens i = 65535 then 1 else Sparse.get 0 (t.partition p).gens i + 1
    let refused := fun (st : Status) => ∃ u : State, ∃ c' : Cmd, go = .next u ∧ u.cmd c.key = some c' ∧ c'.phase = .ended ∧ c'.status = st ∧ c'.result = 0 ∧ u.loads = t.loads ∧
      (u.partition p).models = (t.partition p).models ∧ (u.partition p).fitReport.headD 0 % 256 = Status.code st ∧ u.copyWait = t.copyWait
    (h.outcome ≠ .ok → ∃ u : State, ∃ c' : Cmd, go = .next u ∧ u.cmd c.key = some c' ∧ c'.phase = .ended ∧ c'.status = (if h.outcome = .poisoned then .eccUncorrected else hostStatus h.outcome) ∧ u.loads = s.loads ∧
      (u.partition p).models = (s.partition p).models) ∧
    ((bitsAt (laneNat d 64 0) 32 32 ≠ 0 ∨ (∃ i, 1 ≤ i ∧ i < 4 ∧ bitsAt (laneNat d 64 i) 48 16 ≠ 0) ∨ ∃ i < 4, laneNat d 64 (4 + i) ≠ 0) → m.st = .illegalEncoding ∧ t = s) ∧
    (m.st ≠ .illegalEncoding → 1024 < nseg ∨ 256 < bitsAt d 16 16 → m.st = .outOfRange ∧ t = s) ∧
    (h.outcome = .ok → bitsAt (laneNat d 64 3) 0 48 = 0 →
      (m.st ≠ .ok → refused m.st) ∧
      (m.st = .ok → old ≠ 0 → t.modelOf p old = none → refused .notFound) ∧
      (m.st = .ok → old ≠ 0 → (t.modelOf p old).isSome = true → (∃ x ∈ t.host.cmds, entryOp x.entry = 1 ∧ x.phase = .running ∧ x.refused = false ∧ entryW x.entry 3 = old) → refused .busyStopClass) ∧
      (m.st = .ok → old = 0 → (∀ i < 16, used i) → refused .noSpace) ∧
      (m.st = .ok → old = 0 → ∀ i < 16, ¬ used i → (∀ j < i, used j) →
        (placed.beyond ≠ [] → t.obj (0x5040 + 0x100 * p) 0 0 = 0 → refused .fitExceeded) ∧
        (placed.beyond = [] → good ≠ [] → ∃ u : State, ∃ c' : Cmd, ∃ l : Load, ∃ ds : List CopyDesc, go = .next u ∧ u.cmd c.key = some c' ∧ c'.phase = .running ∧ c'.begun = true ∧ c'.copies = good.length ∧
          u.loads = t.loads ++ [l] ∧ l.key = c.key ∧ l.part = p ∧ l.slot = i ∧ l.failed = bad ∧ l.model.gen = gen i ∧ l.model.lists = m.lists ∧
          l.model.slices = (placed.placed.filter (fun x => x.kind = 0)).map (fun x => (x.at_ - stripedBase, x.seg.bytes)) ∧
          l.model.bands = (placed.placed.filter (fun x => x.kind = 1)).map (fun x => (x.at_, x.seg.bytes)) ∧ (u.partition p).models = (t.partition p).models ∧
          u.copyWait = t.copyWait ++ ds ∧ ds.map (·.words) = good ∧ ∀ x ∈ ds, x.owner = .load c.key ∧ x.vi = v.val ∧ x.part = p) ∧
        (∀ st, placed.beyond = [] → good = [] → bad = some st → (∀ l ∈ t.loads, l.key ≠ c.key) → ∃ u : State, ∃ c' : Cmd, go = .next u ∧ u.cmd c.key = some c' ∧ c'.phase = .ended ∧ c'.status = st ∧
          u.loads = t.loads ∧ (u.partition p).models = (t.partition p).models ∧ u.copyWait = t.copyWait) ∧
        (placed.beyond = [] → copies = [] → (∀ g ∈ m.segs, coveredBy (t.fences p) g.src (t.segmentSpan p g) = true) → (∀ l ∈ t.loads, l.key ≠ c.key) → ∃ u : State, ∃ c' : Cmd, ∃ x : Model, go = .next u ∧ u.cmd c.key = some c' ∧ c'.phase = .ended ∧ c'.status = .ok ∧
          Sparse.get none (u.partition p).models i = some x ∧ x.gen = gen i ∧ x.lists = m.lists ∧ c'.result = p * 2 ^ 48 + gen i * 2 ^ 32 + i ∧ u.copyWait = t.copyWait))))

/-- R364, R383, R384, R401, R402, R543, R551, R552, R554: what the host does to the port. Configuration space defaults are the model's (log entry 9). -/
def Obligations.PortResetsAndConfigurationFollowTheirRules : Prop :=
  let defaults := fun (x : Vi) => x.busMaster = false ∧ x.msixEnable = false ∧ x.functionMask = false ∧ x.maxPayload = 128 ∧ x.maxRead = 512 ∧ x.ats = false ∧ x.d3hot = false
  let viReset := fun (s u : State) (v : Nat) => ((u.vi v).resetting.isSome = true ↔ s.absorbs (s.viPart v) = false ∨ (s.vi v).resetting.isSome = true) ∧ defaults (u.vi v)
  let allReset := fun (s u : State) => (∀ v < 64, s.viState v ≠ 0 → viReset s u v) ∧ (∀ v < 64, s.viState v = 0 → u.vi v = s.vi v) ∧
    u.host.sriov = (0, false) ∧ u.host.sriov1 = (0, false) ∧ u.host.hdmCommitted = false ∧ u.host.bar4 = 64
  (∀ (v : ViId) (s : State), s.vigil.freezes = [] →
    (v.val ≠ 0 → s.viState v.val ≠ 0 → ∃ u : State, exec (.vfFlr v) s = .next u ∧ viReset s u v.val ∧ (∀ w, w ≠ v.val → u.vi w = s.vi w)) ∧
    (v.val = 0 ∨ s.viState v.val = 0 → exec (.vfFlr v) s = .next s) ∧
    ((s.vi 0).d3hot = true → ∃ u : State, exec .d3hotExit s = .next u ∧ viReset s u 0 ∧ (∀ w, w ≠ 0 → u.vi w = s.vi w)) ∧
    ((s.vi 0).d3hot = false → exec .d3hotExit s = .next s) ∧
    (∃ u : State, exec .pfFlr s = .next u ∧ allReset s u ∧ u.host.linkState = s.host.linkState) ∧
    (∀ cause, (s.host.linkState = 2 → ∃ u : State, exec (.hotReset cause) s = .next u ∧ allReset s u ∧ u.host.linkState = (if cause = .disable then 0 else 1) ∧
      u.host.linkSpeed = 0 ∧ u.host.linkWidth = 0 ∧ u.host.cxl = 0 ∧ u.host.reqs = []) ∧ (s.host.linkState ≠ 2 → exec (.hotReset cause) s = .next s))) ∧
  (∀ (s : State), s.vigil.freezes = [] →
    (s.power.porHeld = true → exec .perstN s = .next { s with host := { s.host with perstLow := true } }) ∧
    (s.power.porHeld = false → s.obj 0x6000 6 0 ≠ 0 → ∃ u : State, exec .perstN s = .next u ∧ allReset s u ∧ u.host.perstLow = true ∧ u.host.linkState = 0 ∧ u.host.ready = false ∧
      (∀ p, (u.partition p).models = (s.partition p).models ∧ (u.partition p).clusters = (s.partition p).clusters)) ∧
    (s.power.porHeld = false → s.obj 0x6000 6 0 = 0 → s.power.early = false → s.power.strapped = false → ∃ u : State, exec .perstN s = .next u ∧ u.host.perstLow = true ∧ u.host.linkState = 0 ∧
      u.host.ready = false ∧ HoldCause.perst ∈ u.power.holds ∧ u.power.stage = 0 ∧ u.tiles = [] ∧ u.power.resetCause = ((firstCause u.power.holds).getD .perst).code) ∧
    (s.power.porHeld = false → s.obj 0x6000 6 0 = 0 → s.power.early = true → ∃ u : State, exec .perstN s = .next u ∧ allReset s u ∧ u.host.linkState = 0 ∧ u.power.stage = s.power.stage ∧
      (HoldCause.perst ∈ u.power.holds ↔ s.power.stage ≠ 2 ∨ HoldCause.perst ∈ s.power.holds) ∧ u.power.resetCause = s.power.resetCause) ∧
    (∃ u : State, exec .perstNRise s = .next u ∧ u.host.perstLow = false ∧ u.power.holds = s.power.holds.erase .perst ∧ u.mem = s.mem ∧ u.tiles = s.tiles ∧
      (s.power.porHeld = false → s.power.holds = [.perst] → s.power.stage = 0 ∨ (s.power.stage = 4 ∧ s.power.imageDone = true) → u.power.stage = 5) ∧
      (s.host.linkState = 0 → (u.host.linkState = 1 ↔ s.power.porHeld = false ∧ s.power.bootSel < 2 ∧ u.power.stage ∉ [0, 1, 2])) ∧
      (s.host.linkState ≠ 0 → u.host.linkState = s.host.linkState))) ∧
  (∀ (s : State) (r : ConfigRequest),
    (s.host.linkState ≠ 2 → exec (.configurationRequest r) s = .next s) ∧
    (s.host.linkState = 2 → s.host.ready = false → exec (.configurationRequest r) s = .next (s.answerHost .retry)) ∧
    (s.host.linkState = 2 → s.host.ready = true → s.test.state ≠ 1 →
      (∀ (v : ViId) (on : Bool), s.viState v.val = 0 → exec (.configurationRequest (.busMaster v on)) s = .next s ∧ exec (.configurationRequest (.ats v on)) s = .next s) ∧
      (∀ (v : ViId) (on : Bool), s.viState v.val ≠ 0 → exec (.configurationRequest (.busMaster v on)) s = .next (s.setVi v.val { s.vi v.val with busMaster := on }) ∧
        exec (.configurationRequest (.ats v on)) s = .next (s.setVi v.val { s.vi v.val with ats := on })) ∧
      (∀ (v : ViId) (on mask : Bool), s.viState v.val ≠ 0 → (s.vi v.val).pba = 0 →
        exec (.configurationRequest (.msix v on mask)) s = .next (s.setVi v.val { s.vi v.val with msixEnable := on, functionMask := mask })) ∧
      (∀ (v : ViId) (i j : Nat), s.viState v.val ≠ 0 → 7 ≤ i → i ≤ 9 → 7 ≤ j → j ≤ 12 →
        exec (.configurationRequest (.deviceControl v (2 ^ i) (2 ^ j))) s = .next (s.setVi v.val { s.vi v.val with maxPayload := 2 ^ i, maxRead := 2 ^ j })) ∧
      (∀ n, n ≤ 63 → s.host.bifurcation = 0 → (∀ v, (s.vi v).vf = false) → ∃ u : State, exec (.configurationRequest (.sriov 0 n true)) s = .next u ∧
        (s.host.sriov.2 = false → ∀ v < 64, (u.vi v).vf = decide (1 ≤ v ∧ v ≤ n)) ∧ u.mem = s.mem ∧ u.tiles = s.tiles) ∧
      (∀ n, s.host.bifurcation = 0 → s.vigil.freezes = [] → ∃ u : State, exec (.configurationRequest (.sriov 0 n false)) s = .next u ∧ u.host.sriov.2 = false ∧
        (∀ v < 64, v ≠ 0 → (s.vi v).vf = true → viReset s u v) ∧ u.vi 0 = s.vi 0) ∧
      (∀ k ≤ 6, exec (.configurationRequest (.bar4Size (2 ^ k))) s = .next { s with host := { s.host with bar4 := 2 ^ k } }) ∧
      (∀ on, s.host.cxl ≠ 0 → exec (.configurationRequest (.hdmCommit on)) s = .next { s with host := { s.host with hdmCommitted := on } }) ∧
      exec (.configurationRequest .d3hot) s = .next (s.setVi 0 { s.vi 0 with d3hot := true }) ∧ exec (.configurationRequest .other) s = .next s)) ∧
  (∀ (s : State) (sp : Fin 7) (w : Nat) (fl : Bool) (c : Fin 4),
    let x := s.power
    let trains := s.host.linkState = 0 ∧ s.host.perstLow = false ∧ x.porHeld = false ∧ x.bootSel < 2 ∧ x.stage ∉ [0, 1, 2]
    (s.host.linkState = 1 ∨ trains → sp.val ≠ 0 → ∃ u : State, exec (.pcieLinkUp sp w fl c) s = .next u ∧ u.host.linkState = 2 ∧ u.host.linkSpeed = sp.val ∧ u.host.flit = fl ∧
      (s.host.bifurcation = 1 → u.host.linkWidth = min w 8 ∧ u.host.cxl = 0) ∧ (s.host.bifurcation ≠ 1 → u.host.linkWidth = min w 16 ∧ u.host.cxl = c.val) ∧
      (0xB < x.stage → u.host.ready = true) ∧ (x.bootSel = 1 → x.stage = 4 → u.host.ready = true) ∧
      (x.bootSel ≠ 1 → x.stage ≤ 0xB → u.host.ready = s.host.ready) ∧ u.mem = s.mem ∧ u.tiles = s.tiles ∧ u.host.vis = s.host.vis) ∧
    (trains → sp.val = 0 → exec (.pcieLinkUp sp w fl c) s = .next { s with host := { s.host with linkState := 1 } }) ∧
    (¬ trains → s.host.linkState ≠ 1 ∨ sp.val = 0 → exec (.pcieLinkUp sp w fl c) s = .next s)) ∧
  (∀ (s : State) (h : HostData),
    let x := s.power
    let img := h.data % 2 ^ (8 * x.imageLen)
    let w := fun (i : Nat) => laneNat img 64 i
    let n := w 0 / 2 ^ 32
    let good := h.outcome = .ok ∧ x.imageAddr % 4096 = 0 ∧ 64 ≤ x.imageLen ∧ x.imageLen ≤ 8388608 ∧ n ≤ x.imageLen ∧ w 0 % 2 ^ 32 = 0x46384C47 ∧ 64 ≤ n ∧ n ≤ 8388608 ∧ w 1 < 2 ^ 32 ∧
      (∀ i, 2 ≤ i → i ≤ 6 → w i = 0) ∧ w 7 < 2 ^ 32 ∧ w 7 = crc32 img 64 n
    (x.bootSel ≠ 1 ∨ x.stage ≠ 4 ∨ x.imageDone = true → exec (.imageGo h) s = .next s) ∧
    (x.bootSel = 1 → x.stage = 4 → x.imageDone = false →
      (good → exec (.imageGo h) s = .next { s with power := { x with imageDone := true, fwVersion := w 1, fwCrc := w 7, bootFail := 0, stage := if x.holds = [] then 5 else 4 } }) ∧
      (¬ good → exec (.imageGo h) s = .next { s with power := { x with bootFail := Status.code .badDescriptor } })))

/-- R384, R385, R397 to R400: transactions between the port and the host. -/
def Obligations.HostTransactionsFollowTheirRules : Prop :=
  (∀ (tag : Nat) (h : HostData) (s : State),
    let go := exec (.hostCompletion tag h) s
    ((∀ r ∈ s.host.reqs, r.tag ≠ tag) → go = .next s) ∧
    (∀ r, s.host.reqs.find? (fun r => r.tag = tag) = some r → s.host.invalidations = [] →
      let s1 := { s with host := { s.host with reqs := s.host.reqs.erase r } }
      (r.xlate = true → h.outcome = .ok → s.host.atc.length < 4096 → go = .next { s1 with host := { s1.host with atc := s.host.atc ++ [(r.vi, r.a / 4096, h.data / 4096)] } }) ∧
      (∀ e, r.xlate = true → h.outcome ≠ .ok → (s.target pcieNode).intake.filter (fun e => e.toHost && e.ready && e.pkt.vi.toNat = r.vi && (e.pkt.address.toNat - hostBase) / 4096 = r.a / 4096) = [e] →
        go = .next ((s1.hostStat 3).finishEntry pcieNode e .outOfRange 0 0)) ∧
      (∀ e, r.xlate = false → r.off = 0 → (s.target pcieNode).intake.find? (fun e => e.pkt.src.toNat = r.src && e.pkt.tag.toNat = r.rtag && e.phase = .inService) = some e →
        e.pkt.payload = 0 → e.pkt.poisoned = 0 → e.pkt.status = 0 → (∀ q ∈ s1.host.reqs, ¬ (q.src = r.src ∧ q.rtag = r.rtag ∧ q.xlate = false)) →
        let end_ := fun (t : State) (v p : Nat) (st : Status) =>
          let e' := { e with pkt := { e.pkt with payload := v, poisoned := p, status := BitVec.ofNat 8 (Status.code st) } }
          (t.setTarget pcieNode ((s.target pcieNode).updEntry e e'), e')
        let d := h.data % 2 ^ (8 * r.len)
        (h.outcome = .ok → let w := end_ s1 d 0 .ok
          go = .next (w.1.finishEntry pcieNode w.2 .ok d 0)) ∧
        (h.outcome = .poisoned → let w := end_ s1 d (2 ^ r.len - 1) .ok
          go = .next (w.1.finishEntry pcieNode w.2 .ok d (2 ^ r.len - 1))) ∧
        (∀ o st, (o, st) ∈ [(HostEnd.unsupported, Status.outOfRange), (.abort, .targetIsolated), (.timeout, .timeout)] → h.outcome = o → let w := end_ s1 0 0 st
          go = .next ((w.1.hostStat 3).finishEntry pcieNode w.2 st 0 0))))) ∧
  (∀ (v : ViId) (a n : Nat) (s : State),
    let used := s.host.reqs.filter (fun r => r.vi = v.val && decide (r.a < a + n) && decide (a < r.a + max r.len 1))
    ((s.vi v.val).ats = false → exec (.atsInvalidation v a n) s = .next s) ∧
    ((s.vi v.val).ats = true → s.host.invalidations = [] → ∃ u : State, exec (.atsInvalidation v a n) s = .next u ∧
      (∀ t, t ∈ u.host.atc ↔ t ∈ s.host.atc ∧ ¬ (t.1 = v.val ∧ t.2.1 * 4096 < a + n ∧ a < (t.2.1 + 1) * 4096)) ∧
      (used = [] → u.host.answers = s.host.answers ++ [.invalidated v.val a n] ∧ u.host.invalidations = []) ∧
      (used ≠ [] → u.host.answers = s.host.answers ∧ u.host.invalidations = [{ vi := v.val, a := a, n := n, waits := used.map (fun r => r.tag) }]) ∧
      u.host.reqs = s.host.reqs ∧ u.mem = s.mem ∧ u.net = s.net)) ∧
  (∀ (a : BitVec 48) (s : State),
    (s.host.cxl = 0 ∨ s.host.linkState ≠ 2 → exec (.cxlSnoop a) s = .next s) ∧
    (s.host.cxl ≠ 0 → s.host.linkState = 2 → exec (.cxlSnoop a) s = .next (s.answerHost (.snoopMiss a.toNat)))) ∧
  (∀ (write : Bool) (a n d part : Nat) (cxl : Bool) (i : Instr) (s : State), s.host.linkState = 2 → n ≤ 2048 → 0 < n → a % 2048 + n ≤ 2048 → d < 2 ^ (8 * n) →
    (cxl = true ∧ n = 64 ∧ a % 64 = 0 ∧ a < 2 ^ 48 ∧ i = .cxlMemRequest write (BitVec.ofNat 48 a) d ∧ s.host.cxl ≠ 0 ∧ part = s.obj 0x6000 10 255) ∨
      (cxl = false ∧ s.obj 0x6000 8 0 ≤ a ∧ a - s.obj 0x6000 8 0 + n ≤ s.host.bar4 * 2 ^ 30 ∧ i = .bar4Access write (a - s.obj 0x6000 8 0) n d ∧ part = (s.viPart 0).getD 255) →
    (part < 8 → a + n ≤ hbmBytes s → ∃ u : State, exec i s = .next u ∧
      u.host.accesses = s.host.accesses ++ [{ id := s.serial + 1, cxl := cxl, write := write, a := a, n := n, data := d, left := 1 }] ∧
      (u.initiator pcieNode).waiting = (s.initiator pcieNode).waiting ++
        [(mkPacket (if write then (if n ≤ 32 then 0x02 else 0x03) else 0x01) pcieNode 0 0 a n 0 0 part 2 0 (if write then d else 0) 0, .host (s.serial + 1))] ∧
      u.host.answers = s.host.answers ∧ u.mem = s.mem ∧ u.tiles = s.tiles) ∧
    (8 ≤ part ∨ hbmBytes s < a + n → ∃ u : State, exec i s = .next u ∧
      u.host.answers = s.host.answers ++ (if write then [] else if cxl then [.data (s.serial + 1) (2 ^ (8 * n) - 1) false] else [.unsupported (s.serial + 1)]) ∧
      Sparse.get 0 u.host.stats 4 = Sparse.get 0 s.host.stats 4 + 1 ∧ u.mem = s.mem ∧ u.net = s.net ∧ u.tiles = s.tiles)) ∧
  (∀ (write : Bool) (a : BitVec 48) (off n d : Nat) (s : State),
    (s.host.cxl = 0 ∨ s.host.linkState ≠ 2 → exec (.cxlMemRequest write a d) s = .next s) ∧
    (s.host.linkState ≠ 2 ∨ n = 0 ∨ 4096 < n ∨ s.host.bar4 * 2 ^ 30 < off + n → exec (.bar4Access write off n d) s = .next s)) ∧
  (∀ (k : NodeId) (s : State) (e : IntakeEntry), k.toNat = pcieNode → firstEntry (s.servable pcieNode) (s.target pcieNode).intake = some e → e.toHost = true →
    let go := exec (.intakeService k) s
    let vi := e.pkt.vi.toNat
    let a := e.pkt.address.toNat - hostBase
    let n := e.pkt.bytes.toNat
    let m := max (s.vi vi).maxRead 128
    (s.host.linkState ≠ 2 → go = .next ((s.hostStat 3).finishEntry pcieNode e .linkDown 0 0)) ∧
    (s.host.linkState = 2 → (s.vi vi).busMaster = false → go = .next ((s.hostStat 3).finishEntry pcieNode e .targetIsolated 0 0)) ∧
    (s.host.linkState = 2 → (s.vi vi).busMaster = true →
      (s.translated vi a = none → (∃ r ∈ s.host.reqs, r.xlate = true ∧ r.vi = vi ∧ r.a / 4096 = a / 4096) → go = .next s) ∧
      (s.translated vi a = none → (∀ r ∈ s.host.reqs, ¬ (r.xlate = true ∧ r.vi = vi ∧ r.a / 4096 = a / 4096)) → s.host.reqs.length < 1024 → ∃ u : State, ∃ r : HostReq, go = .next u ∧
        u.host.out = s.host.out ++ [.translate vi (a / 4096 * 4096) (s.host.nextTag % 1024)] ∧ u.host.reqs = s.host.reqs ++ [r] ∧ r.xlate = true ∧ r.vi = vi ∧ r.a = a ∧
        r.tag = s.host.nextTag % 1024 ∧ u.net = s.net) ∧
      (∀ b, s.translated vi a = some b →
        (e.pkt.cmd.toNat ≠ 0x01 → go = .next ((s.hostWrite vi b n e.pkt.payload e.pkt.poisoned).finishEntry pcieNode e .ok 0 e.pkt.poisoned)) ∧
        (e.pkt.cmd.toNat = 0x01 → 0 < n → b / m = (b + n - 1) / m → s.host.reqs.length < 1024 → ∃ u : State, ∃ r : HostReq, go = .next u ∧
          u.host.out = s.host.out ++ [.read vi b n s.host.nextTag (decide (s.host.cxl ≠ 0))] ∧ u.host.reqs = s.host.reqs ++ [r] ∧ r.tag = s.host.nextTag % 1024 ∧
          r.src = e.pkt.src.toNat ∧ r.rtag = e.pkt.tag.toNat ∧ r.off = 0 ∧ r.len = n ∧ r.vi = vi ∧ r.xlate = false ∧ u.mem = s.mem ∧ u.tiles = s.tiles)))) ∧
  (∀ (a : BitVec 48) (s : State),
    let line := a.toNat / 64
    let p := (hbmTarget (64 * line)).1
    (line ∉ s.host.snoops → exec (.backInvalidateResponse a) s = .next s) ∧
    (line ∈ s.host.snoops →
      let s1 := { s with host := { s.host with snoops := s.host.snoops.filter (fun k => k ≠ line), hostLines := s.host.hostLines.filter (fun k => k ≠ line) } }
      let held := (s.inService p).filter (fun e => decide (e.pkt.cmd.toNat ≠ 0x01 ∧ e.pkt.src.toNat ≠ pcieNode) && (linesOf e.pkt.address.toNat e.pkt.bytes.toNat).contains line)
      exec (.backInvalidateResponse a) s = .next (held.foldl (fun s e => s.hbmComplete p e 0) s1)))

/-- R411, R412, R414 to R422, R428, R429, R432, R236: codewords and frames. The parity of RS(544,514) is not formed (log entry 93). -/
def Obligations.NewenFramesFollowTheirRules : Prop :=
  let stat := fun (s : State) (n : NewenId) (w : Nat) => Sparse.get 0 (s.port n.val).stats w
  let kept := fun (s u : State) (n : NewenId) => (∀ k, k ≠ n.val → u.port k = s.port k) ∧ u.mem = s.mem ∧ u.tiles = s.tiles ∧ u.host = s.host ∧ u.dict = s.dict
  let same := fun (x y : NewenPort) => y.replay = x.replay ∧ y.near = x.near ∧ y.far = x.far ∧ y.nextSeq = x.nextSeq ∧ y.expect = x.expect ∧ y.reqOut = x.reqOut ∧ y.rspOut = x.rspOut ∧ y.used = x.used
  let clean := fun (x : NewenPort) (f : Frame) => f.crcOk = true ∧ x.protocolError f = false ∧ x.frames ∉ x.badFrames ∧ ∀ g ∈ x.replay, g.seq ≠ f.ack
  let rows := fun (n : NewenId) (f : Frame) => [(Instr.idleFrame n f, 0), (.dataFrame n f, 1), (.markFrame n f, 2), (.nakFrame n f, 3), (.helloFrame n f, 4)]
  (∀ (ty seq ack : Nat) (cr : Nat × Nat × Nat) (slots : List (Nat × Flit)) (lace : Option LaceBeat) (origin body : Nat), slots.length ≤ 3 →
    let f := mkFrame ty seq ack cr slots lace origin body
    f.crcOk = true ∧ ((∀ p ∈ slots, p.1 = 1 ∨ p.1 = 2) → f.ftype = ty % 16 ∧ f.seq = seq % 65536 ∧ f.ack = ack % 65536 ∧ f.reqCredits = cr.1 % 4096 ∧
      f.rspCredits = cr.2.1 % 4096 ∧ f.laceCredits = cr.2.2 % 4096 ∧ (body = 0 → f.slots = slots ∧ f.lace = lace))) ∧
  (∀ (x : NewenPort) (f : Frame), 4 < f.ftype ∨ f.field 0 21 ≠ 0 ∨ (∃ i < 3, f.slotVc i = 3) ∨ (f.ftype ≠ 1 ∧ (f.seq ≠ 0 ∨ f.laceValid = true ∨ ∃ i < 3, f.slotVc i ≠ 0)) ∨
    (f.ftype = 1 ∧ f.slots = [] ∧ f.lace = none) → x.protocolError f = true) ∧
  (∀ w k, k ∈ framesOfCodeword w ↔ 2048 * k < 5120 * (w + 1) ∧ 5120 * w < 2048 * (k + 1)) ∧
  (∀ (n : NewenId) (errs : Nat) (s : State), (s.port n.val).link = .up →
    let x := s.port n.val
    (errs ≤ 15 → ∃ u : State, exec (.codewordReceived n errs) s = .next u ∧ (u.port n.val).codewords = x.codewords + 1 ∧ (u.port n.val).badRun = 0 ∧ stat u n 2 = stat s n 2 + errs ∧
      (u.port n.val).badFrames = x.badFrames ∧ (u.port n.val).link = .up ∧ same x (u.port n.val) ∧ kept s u n) ∧
    (15 < errs → ∃ u : State, exec (.codewordReceived n errs) s = .next u ∧ (u.port n.val).codewords = x.codewords + 1 ∧ stat u n 3 = stat s n 3 + 1 ∧
      (u.port n.val).badFrames = x.badFrames ++ framesOfCodeword x.codewords ∧ (u.port n.val).link = (if x.badRun = 7 then .retraining else .up) ∧ same x (u.port n.val) ∧ kept s u n) ∧
    (∃ u : State, exec (.alignmentCodewordMissing n) s = .next u ∧ (u.port n.val).link = .retraining ∧ (u.port n.val).phase = 1 ∧ (u.port n.val).resend = [] ∧ same x (u.port n.val) ∧ kept s u n)) ∧
  (∀ (n : NewenId) (s : State), (s.port n.val).link ≠ .up → exec (.alignmentCodewordMissing n) s = .next s ∧ exec (.replayTimeout n) s = .next s ∧ exec (.nakRepeat n) s = .next s ∧ exec (.markPeriod n) s = .next s) ∧
  (∀ (n : NewenId) (s : State), let x := s.port n.val
    (40960 * (x.aligned + 1) ≤ x.sent → exec (.alignmentCodeword n) s = .next (s.setPort n.val { x with aligned := x.aligned + 1, codeword := x.alignment })) ∧
    (x.sent < 40960 * (x.aligned + 1) → exec (.alignmentCodeword n) s = .next s) ∧
    (∀ i < 514, laneNat x.alignment 10 i = (0x300 + x.firstLane + i % max 1 x.width) % 1024) ∧
    (x.link = .up → 40960 * (x.aligned + 1) ≤ x.sent → exec (.frameSend n) s = .next s)) ∧
  (∀ (n : NewenId) (s : State) (x : NewenPort), s.port n.val = x → x.link = .up → x.sent < 40960 * (x.aligned + 1) → x.laceBeat = 0 → (∀ m ∈ s.lacing.toPorts, m.1 ≠ n.val) →
    ∃ u : State, ∃ f : Frame, exec (.frameSend n) s = .next u ∧ (u.port n.val).last = some f ∧ (u.port n.val).sent = x.sent + 1 ∧ kept s u n ∧ (u.port n.val).expect = x.expect ∧
      (u.port n.val).stream = (x.encode f).stream ∧ (u.port n.val).codeword = (x.encode f).codeword ∧
      (x.nakDue = true → f = x.plain 3 0 ∧ stat u n 6 = stat s n 6 + 1 ∧ (u.port n.val).nakDue = false ∧ same x (u.port n.val)) ∧
      (x.nakDue = false → x.markDue = true → x.sent % 5 = 0 → f.ftype = 2 ∧ f.seq = 0 ∧ f.ack = (x.expect + 65535) % 65536 ∧ stat u n 10 = stat s n 10 + 1 ∧ (u.port n.val).markDue = false ∧
        same x (u.port n.val) ∧ Sparse.get 0 (u.port n.val).lastMark 0 = (Sparse.get 0 x.lastMark 0 + 1) % 2 ^ 32 ∧ Sparse.get 0 (u.port n.val).lastMark 1 = s.calends ∧
        f.byte 16 8 = s.calends % 2 ^ 64 ∧ f.byte 24 4 = (Sparse.get 0 x.lastMark 0 + 1) % 2 ^ 32 ∧ f.byte 28 1 = s.domainDevice % 256 ∧ f.byte 29 1 = n.val ∧
        f.byte 32 8 = Sparse.get 0 x.lastMark 3 % 2 ^ 64 ∧ f.byte 40 4 = Sparse.get 0 x.lastMark 2 % 2 ^ 32) ∧
      (x.nakDue = false → x.markDue = false ∨ x.sent % 5 ≠ 0 → x.helloDue = true → f.ftype = 4 ∧ f.seq = 0 ∧ (u.port n.val).helloDue = false ∧ same x (u.port n.val) ∧
        f.byte 16 1 = s.domainDevice % 256 ∧ f.byte 17 1 = n.val ∧ f.byte 18 1 = x.gen % 256 ∧ f.byte 19 1 = x.width % 256 ∧ f.byte 20 2 = 2048 ∧ f.byte 22 2 = 2048 ∧ f.byte 24 2 = 64 ∧
        f.byte 26 2 = x.expect % 65536 ∧ ((f.byte 28 1).testBit 0 = true ↔ s.obj 0x3200 1 255 = n.val) ∧ (f.byte 28 1).testBit 1 = (s.obj 0x3200 2 0).testBit n.val) ∧
      (x.nakDue = false → x.markDue = false ∨ x.sent % 5 ≠ 0 → x.helloDue = false →
        (∀ g l, x.resend = g :: l → f = x.again g ∧ (u.port n.val).resend = l ∧ same x (u.port n.val) ∧ stat u n 0 = stat s n 0 + 1) ∧
        (x.resend = [] → 1024 ≤ x.replay.length → f = x.plain 0 0 ∧ same x (u.port n.val)) ∧
        (x.resend = [] → x.replay.length < 1024 → x.rspOut = [] → x.reqOut = [] → x.laceOut = [] → f = x.plain 0 0 ∧ same x (u.port n.val)) ∧
        (∀ p l, x.resend = [] → x.replay.length < 1024 → x.laceOut = [] → x.rspOut = p :: l → 0 < x.credits.2.1 → f.ftype = 1 ∧ f.crcOk = true ∧ f.seq = x.nextSeq % 65536 ∧
          f.slots.head? = some (2, (p.flits (linkData p)).getD x.rspFlit ⟨0, 0⟩) ∧ (u.port n.val).nextSeq = (x.nextSeq + 1) % 65536 ∧ (u.port n.val).replay = x.replay ++ [f] ∧
          stat u n 0 = stat s n 0 + 1) ∧
        (∀ q, x.resend = [] → x.replay.length < 1024 → x.laceOut = [] → x.rspOut = [] → x.reqOut = [q] → x.reqFlit = 0 → linkFlits q = 2 → 2 ≤ x.credits.1 → f.ftype = 1 ∧
          f.slots = [(1, (q.flits (linkData q)).getD 0 ⟨0, 0⟩), (1, (q.flits (linkData q)).getD 1 ⟨0, 0⟩)] ∧ (u.port n.val).reqOut = [] ∧
          (u.port n.val).used.1 = (x.used.1 + 2) % 4096 ∧ (u.port n.val).replay = x.replay ++ [f]) ∧
        (∀ c m, x.resend = [] → x.replay.length + (m.beats c m.op).length ≤ 1024 → x.replay.length < 1024 → x.laceNext = some (c, m) → (m.beats c m.op).length ≤ x.credits.2.2 →
          (c, m) ∈ x.laceOut ∧ f.ftype = 1 ∧ f.lace = (m.beats c m.op).head? ∧ (u.port n.val).laceLast = c ∧ (u.port n.val).used.2.2 = (x.used.2.2 + 1) % 4096 ∧
          (u.port n.val).laceBeat = (if (m.beats c m.op).length = 1 then 0 else 1) ∧ (u.port n.val).laceOut = (if (m.beats c m.op).length = 1 then x.laceOut.erase (c, m) else x.laceOut)))) ∧
  (∀ (n : NewenId) (f : Frame) (i : Instr) (k : Nat) (s : State) (x : NewenPort), s.port n.val = x → (i, k) ∈ rows n f →
    let w := if f.crcOk = false ∨ x.frames ∈ x.badFrames then 4 else 5
    (f.crcOk = true → f.ftype ≠ k → f.ftype ≤ 4 → exec i s = .next s) ∧
    (x.link = .up → f.crcOk = false ∨ f.ftype = k ∨ 4 < f.ftype → f.crcOk = false ∨ x.frames ∈ x.badFrames ∨ x.protocolError f = true → ∃ u : State, exec i s = .next u ∧
      stat u n w = stat s n w + 1 ∧ (u.port n.val).frames = x.frames + 1 ∧ (u.port n.val).missing = true ∧ (u.port n.val).nakDue = (if x.missing then x.nakDue else true) ∧
      (u.port n.val).counts = x.counts ∧ same x (u.port n.val) ∧ kept s u n)) ∧
  (∀ (n : NewenId) (f : Frame) (s : State) (x : NewenPort), s.port n.val = x → x.link = .up →
    (∀ a b g, x.replay = a ++ g :: b → (∀ h ∈ a, h.seq ≠ f.ack) → g.seq = f.ack → f.ftype = 0 → f.crcOk = true → x.protocolError f = false → x.frames ∉ x.badFrames →
      ∃ u : State, exec (.idleFrame n f) s = .next u ∧ (u.port n.val).replay = b ∧ (u.port n.val).replays = 0 ∧ (u.port n.val).ackAt = s.calends ∧
        (u.port n.val).counts = (f.reqCredits, f.rspCredits, f.laceCredits) ∧ (u.port n.val).expect = x.expect ∧ kept s u n) ∧
    (f.ftype = 1 → clean x f →
      (f.seq ≠ x.expect → ∃ u : State, exec (.dataFrame n f) s = .next u ∧ (u.port n.val).expect = x.expect ∧ (u.port n.val).missing = true ∧ (u.port n.val).nakDue = (if x.missing then x.nakDue else true) ∧
        stat u n 1 = stat s n 1 ∧ (u.port n.val).received = x.received ∧ kept s u n) ∧
      (∀ fl, f.seq = x.expect → f.lace = none → f.slots = [(1, fl)] → x.reqIn = [] → linkFlits (packetOf [fl]) ≠ 1 → ∃ u : State, exec (.dataFrame n f) s = .next u ∧
        (u.port n.val).expect = (x.expect + 1) % 65536 ∧ (u.port n.val).missing = false ∧ stat u n 1 = stat s n 1 + 1 ∧ (u.port n.val).received = addCounts x.received (1, 0, 0) ∧
        (u.port n.val).reqIn = [fl] ∧ (u.port n.val).reqWait = x.reqWait ∧ kept s u n)) ∧
    (f.ftype = 3 → clean x f → x.replay ≠ [] → x.replayAt ≠ some s.calends → ∃ u : State, exec (.nakFrame n f) s = .next u ∧ stat u n 7 = stat s n 7 + 1 ∧ (u.port n.val).replay = x.replay ∧
      (x.replays + 1 < s.obj (0x6100 + 0x10 * n.val) 4 8 → (u.port n.val).link = .up ∧ (u.port n.val).resend = x.replay ∧ (u.port n.val).replays = x.replays + 1) ∧
      (s.obj (0x6100 + 0x10 * n.val) 4 8 ≤ x.replays + 1 → (u.port n.val).link = .retraining) ∧ kept s u n) ∧
    (x.replay ≠ [] → x.replayAt ≠ some s.calends → ∃ u : State, exec (.replayTimeout n) s = .next u ∧ stat u n 7 = stat s n 7 + 1 ∧ (u.port n.val).replay = x.replay ∧
      (x.replays + 1 < s.obj (0x6100 + 0x10 * n.val) 4 8 → (u.port n.val).link = .up ∧ (u.port n.val).resend = x.replay ∧ (u.port n.val).replays = x.replays + 1 ∧ (u.port n.val).ackAt = s.calends) ∧
      (s.obj (0x6100 + 0x10 * n.val) 4 8 ≤ x.replays + 1 → (u.port n.val).link = .retraining) ∧ kept s u n) ∧
    (x.replay = [] → exec (.replayTimeout n) s = .next s) ∧
    exec (.nakRepeat n) s = .next (if x.missing then s.setPort n.val { x with nakDue := true } else s) ∧
    exec (.markPeriod n) s = .next (if s.obj (0x6100 + 0x10 * n.val) 3 1000 = 0 then s else s.setPort n.val { x with markDue := true }) ∧
    (f.ftype = 2 → clean x f → ∃ u : State, exec (.markFrame n f) s = .next u ∧ stat u n 11 = stat s n 11 + 1 ∧ same x (u.port n.val) ∧
      Sparse.get 0 (u.port n.val).lastMark 2 = f.byte 24 4 ∧ Sparse.get 0 (u.port n.val).lastMark 3 = s.calends ∧ Sparse.get 0 (u.port n.val).lastMark 4 = f.byte 16 8 ∧
      Sparse.get 0 (u.port n.val).lastMark 5 = f.byte 32 8 ∧ (u.port n.val).measured = x.measured ∧ u.mem = s.mem ∧ u.tiles = s.tiles) ∧
    (f.ftype = 4 → clean x f → ∃ u : State, exec (.helloFrame n f) s = .next u ∧ (u.port n.val).buffers = (f.byte 20 2, f.byte 22 2, f.byte 24 2) ∧
      (u.port n.val).peerDevice = f.byte 16 1 ∧ (u.port n.val).peerPort = f.byte 17 1 ∧ (u.port n.val).peerParent = (f.byte 28 1).testBit 0 ∧ (u.port n.val).link = .up ∧
      same x (u.port n.val) ∧ kept s u n))

/-- R424, R430 to R434: training, link down and the near proxy. -/
def Obligations.NewenPortsTrainAndForwardAsStated : Prop :=
  let kept := fun (s u : State) (n : NewenId) => (∀ k, k ≠ n.val → u.port k = s.port k) ∧ u.mem = s.mem ∧ u.tiles = s.tiles ∧ u.host = s.host ∧ u.dict = s.dict
  (∀ (n : NewenId) (pg pm : Nat) (g2 g1 : BitVec 8) (s : State) (x : NewenPort), s.port n.val = x →
    let go := exec (.trainPhaseEnd n pg pm g2 g1) s
    let o := 0x6100 + 0x10 * n.val
    let four := s.obj o 2 4 = 4 ∧ pm = 4
    let half := fun (g : BitVec 8) => g &&& 0x0F = 0x0F ∨ g &&& 0xF0 = 0xF0
    let g := min (s.obj o 1 2) pg
    (x.link = .down ∨ x.link = .up → go = .next s) ∧
    (x.link = .training ∨ x.link = .retraining →
      (x.phase = 0 → go = .next s) ∧
      (x.phase = 1 → go = .next (s.setPort n.val { x with phase := 2 })) ∧
      (x.phase = 2 → g = 2 → g2 = 255 → go = .next (s.setPort n.val { x with phase := 3, gen := 2, width := 8, firstLane := 0 })) ∧
      (x.phase = 2 → g = 2 → g2 ≠ 255 → four → half g2 → go = .next (s.setPort n.val { x with phase := 3, gen := 2, width := 4, firstLane := if g2 &&& 0x0F = 0x0F then 0 else 4 })) ∧
      (x.phase = 2 → g ≠ 2 ∨ (g2 ≠ 255 ∧ ¬ (four ∧ half g2)) → g1 = 255 → go = .next (s.setPort n.val { x with phase := 3, gen := 1, width := 8, firstLane := 0 })) ∧
      (x.phase = 2 → g ≠ 2 ∨ (g2 ≠ 255 ∧ ¬ (four ∧ half g2)) → g1 ≠ 255 → four → half g1 → go = .next (s.setPort n.val { x with phase := 3, gen := 1, width := 4, firstLane := if g1 &&& 0x0F = 0x0F then 0 else 4 })) ∧
      (x.phase = 2 → g ≠ 2 ∨ (g2 ≠ 255 ∧ ¬ (four ∧ half g2)) → g1 ≠ 255 → ¬ (four ∧ half g1) → go = .next (s.setPort n.val { x with phase := 0, trainFail := 2 })) ∧
      (x.phase = 3 → go = .next (s.setPort n.val { x with phase := 4, markDue := true, helloDue := true })) ∧
      (x.phase = 4 → x.measured = none → go = .next s) ∧
      (∀ f, x.phase = 4 → x.measured = some f → 2000 < f → go = .next (s.setPort n.val { x with phase := 0, trainFail := 4 })) ∧
      (∀ f, x.phase = 4 → x.measured = some f → f ≤ 2000 → x.helloSeen = false ∨ x.helloDue = true → go = .next s) ∧
      (∀ f, x.phase = 4 → x.measured = some f → f ≤ 2000 → x.helloSeen = true → x.helloDue = false → ∃ u : State, go = .next u ∧ (u.port n.val).link = .up ∧ (u.port n.val).phase = 0 ∧ (u.port n.val).flight = f ∧
        (u.port n.val).replay = x.replay ∧ (u.port n.val).resend = x.replay ∧ (u.port n.val).near = x.near ∧ (u.port n.val).far = x.far ∧ (u.port n.val).expect = x.expect ∧
        Sparse.get 0 (u.port n.val).stats 8 = Sparse.get 0 x.stats 8 + (if x.link = .retraining then 1 else 0) ∧ kept s u n))) ∧
  (∀ (n : NewenId) (s : State) (x : NewenPort), s.port n.val = x →
    (x.phase = 0 → exec (.trainPhaseTimeout n) s = .next s) ∧
    (1 ≤ x.phase → x.phase ≤ 4 → ∃ u : State, exec (.trainPhaseTimeout n) s = .next u ∧ u = s.setPort n.val { x with phase := 0, trainFail := (u.port n.val).trainFail } ∧
      (x.phase < 4 → (u.port n.val).trainFail = x.phase) ∧ (x.phase = 4 → (u.port n.val).trainFail = if x.measured = none then 4 else 5)) ∧
    (x.link = .training ∨ x.link = .retraining → x.phase = 0 →
      exec (.trainRetry n) s = .next (s.setPort n.val { x with phase := 1, helloSeen := false, measured := none, markDue := false, helloDue := false })) ∧
    (x.link = .down ∨ x.link = .up ∨ x.phase ≠ 0 → exec (.trainRetry n) s = .next s) ∧
    (x.link ≠ .retraining → exec (.retrainTime n) s = .next s)) ∧
  (∀ (n : NewenId) (i : Instr) (s : State) (x : NewenPort) (r : Requester), s.port n.val = x → (s.target (newenNode n.val)).intake = [] → s.obj 0x3200 1 255 ≠ n.val →
    ((i = .retrainTime n ∧ x.link = .retraining) ∨ (i = .portEnable r n 0 ∧ s.writePasses i ∧ s.test.state ≠ 1 ∧ x.link ≠ .down)) → ∃ u : State, exec i s = .next u ∧
      (u.port n.val).replay = [] ∧ (u.port n.val).near = [] ∧ (u.port n.val).far = [] ∧ (u.port n.val).reqOut = [] ∧ (u.port n.val).rspOut = [] ∧ (u.port n.val).nextSeq = 0 ∧ (u.port n.val).expect = 0 ∧
      (u.port n.val).trainFail = x.trainFail ∧ (u.port n.val).lastMark = x.lastMark ∧
      Sparse.get 0 (u.port n.val).stats 9 = Sparse.get 0 x.stats 9 + (if x.link = .training then 0 else 1) ∧
      (i = .portEnable r n 0 → (u.port n.val).link = .down ∧ u.obj (0x6100 + 0x10 * n.val) 0 0 = 0) ∧
      (i = .retrainTime n → s.obj (0x6100 + 0x10 * n.val) 0 0 = 1 → s.domain 18 = .on → (u.port n.val).link = .training ∧ (u.port n.val).phase = 1) ∧
      (i = .retrainTime n → s.obj (0x6100 + 0x10 * n.val) 0 0 ≠ 1 → (u.port n.val).link = .down) ∧ (∀ k, k ≠ n.val → u.port k = s.port k) ∧ u.tiles = s.tiles) ∧
  (∀ (r : Requester) (n : NewenId) (s : State), s.writePasses (.portEnable r n 1) → s.test.state ≠ 1 → (s.port n.val).link = .down → ∃ u : State, exec (.portEnable r n 1) s = .next u ∧
    u.obj (0x6100 + 0x10 * n.val) 0 0 = 1 ∧ u.dict.lastStatus = .ok ∧
    (s.domain 18 = .off → u.domain 18 = .waking ∧ (u.port n.val).link = .down) ∧ (s.domain 18 = .on → (u.port n.val).link = .training ∧ (u.port n.val).phase = 1)) ∧
  (∀ (n : NewenId) (lt : Fin 512) (s : State) (x : NewenPort) (e : IntakeEntry), s.port n.val = x →
    let node := newenNode n.val
    let l := (s.target node).intake
    let go := exec (.nearProxyForward n lt) s
    (x.link = .training ∨ x.link = .retraining → go = .next s) ∧
    (x.link = .up → s.vigil.hung = true ∨ (∃ t ∈ x.near, t.linkTag = lt.val) → go = .next s) ∧
    (l = [e] → e.pkt.ext.isSome = true → e.phase = .waiting →
      (x.link = .down → go = .next (s.finishEntry node e .linkDown 0 0)) ∧
      (x.link = .up → s.vigil.hung = false → (∀ t ∈ x.near, t.linkTag ≠ lt.val) → e.pkt.cmd ≠ 0x03 → ∃ u : State, go = .next u ∧
        (u.port n.val).near = x.near ++ [⟨lt.val, e.pkt.src, e.pkt.tag⟩] ∧
        (u.port n.val).reqOut = x.reqOut ++ [Packet.seal { e.pkt with src := BitVec.ofNat 14 node, tag := BitVec.ofNat 12 lt.val, poison := e.pkt.poison || e.pkt.poisoned ≠ 0 }] ∧
        (u.target node).intake = [{ e with phase := .inService }] ∧ kept s u n) ∧
      (x.link = .up → e.pkt.cmd = 0x03 → go = .next s)))

/-- R450 to R452, R454, R461, R467, R468, R470: object access messages. -/
def Obligations.ObjectAccessMessagesFollowTheirRules : Prop :=
  let isCan := fun (r : Requester) => ∃ k, r = .can k
  let kind := fun (r : Requester) => match r with | .udp _ _ => 1 | .can _ => 2 | _ => 0
  let base := fun (s : State) (r : Requester) => (s.heard r).oapStat (kind r) 1
  let rows := fun (r : Requester) (m : OapMsg) => [((Instr.oapRead r m), (1 : BitVec 4), false), (.oapWrite r m, 2, false), (.readBlock r m, 3, false), (.writeBlock r m, 4, false),
    (.blockContinuation r m, 4, true), (.commit r m, 5, false), (.notify r m, 6, m.cont), (.schedule r m, 7, false)]
  -- the message as it is taken: type, data length k
  let take := fun (m : OapMsg) (t : BitVec 4) (c : Bool) (k : Nat) => { m with type := t, cont := c, n := k, data := m.data % 2 ^ (8 * k) }
  let sized := fun (r : Requester) (m : OapMsg) (k : Nat) => (¬ isCan r ∧ m.n = k) ∨ (isCan r ∧ k ≤ m.n ∧ m.n ≤ 56)
  let fresh := fun (s : State) (r : Requester) (m : OapMsg) (t : BitVec 4) => ∀ x ∈ s.dict.repeats, ¬ (x.req = r ∧ x.tid = m.tid ∧ x.type = t ∧ x.index = m.index ∧ x.sub = m.sub ∧ s.calends < x.cal + 4000000000)
  let asked := fun (s : State) (r : Requester) (m : OapMsg) (t : BitVec 4) => s.answers r = true ∧ m.version = 1 ∧ m.rsp = false ∧ fresh s r m t
  (∀ (r : Requester) (m : OapMsg) (s : State), ∀ x ∈ rows r m, s.answers r = false → exec x.1 s = .next s) ∧
  (∀ (r : Requester) (m : OapMsg) (s : State), ∀ x ∈ rows r m, s.answers r = true → m.version ≠ 1 ∨ m.rsp = true ∨ x.2.1 = 6 → exec x.1 s = .next ((s.heard r).oapStat 6 1)) ∧
  (∀ (r : Requester) (m : OapMsg) (s : State) (x : LastResponse), ∀ w ∈ rows r m, w.2.1 ∈ [1, 2, 3, 5] → s.answers r = true → m.version = 1 → m.rsp = false → sized r m m.length.toNat →
    s.dict.repeats.find? (fun x => x.req = r && x.tid = m.tid && x.type = w.2.1 && x.index = m.index && x.sub = m.sub && decide (s.calends < x.cal + 4000000000)) = some x →
    exec w.1 s = .next (((base s r).oapStat 5 1).deliver (.requester r) s.canClassical x.msgs)) ∧
  (∀ (r : Requester) (m : OapMsg) (s : State), let k := m.length.toNat
    let h := base s r
    let say := fun (u : State) (t : BitVec 4) (st : Status) (l : List OapMsg) => u.answerOap (.requester r) s.canClassical (take m t false k) st l
    sized r m k →
    (asked s r m 1 → match h.readObject r m.index.toNat m.sub.toNat with
      | .error st => exec (.oapRead r m) s = .next (say h 1 st [responseTo (take m 1 false k) st 0 0])
      | .ok (v, n) => exec (.oapRead r m) s = .next (if segmentBytes r < n then say h 1 .noSpace [responseTo (take m 1 false k) .noSpace 4 n] else say h 1 .ok [responseTo (take m 1 false k) .ok n v])) ∧
    (asked s r m 2 → let w := h.writeObject r m.index.toNat m.sub.toNat k (m.data % 2 ^ (8 * k))
      exec (.oapWrite r m) s = .next (say w.2 2 w.1 [responseTo (take m 2 false k) w.1 0 0])) ∧
    (∀ v n, asked s r m 3 → (h.abandon r).transfers < 16 → (h.abandon r).readObject r m.index.toNat m.sub.toNat = .ok (v, n) →
      exec (.readBlock r m) s = .next (say (h.abandon r) 3 .ok (blockSegments (take m 3 false k) (segmentBytes r) n v)))) ∧
  (∀ (m : OapMsg) (seg n v : Nat), 0 < seg → 0 < n → let l := blockSegments m seg n v
    l.length = (n + seg - 1) / seg ∧ ∀ j x, l[j]? = some x → x.data = bitsAt v (8 * (seg * j)) (8 * seg) ∧ x.n = min (n - seg * j) seg ∧ x.cont = decide (j ≠ 0) ∧ x.rsp = true ∧ x.tid = m.tid ∧
      x.length = BitVec.ofNat 16 (if j = 0 then n else j)) ∧
  (∀ (r : Requester) (m : OapMsg) (s : State), let h := (base s r).abandon r
    let seg := segmentBytes r
    let t := take m 4 false seg
    asked s r m 4 → seg < m.length.toNat → m.n = seg →
    (h.mayWriteFrom r = false → exec (.writeBlock r m) s = .next (h.answerStatus (.requester r) s.canClassical t .accessLevel)) ∧
    (h.mayWriteFrom r = true → 16 ≤ h.transfers → exec (.writeBlock r m) s = .next (h.answerStatus (.requester r) s.canClassical t .noSpace)) ∧
    (h.mayWriteFrom r = true → h.transfers < 16 → exec (.writeBlock r m) s = .next { h with dict := { h.dict with blocks := h.dict.blocks ++
      [⟨r, m.tid, m.index, m.sub, m.length.toNat, seg, m.data % 2 ^ (8 * seg), 1, s.calends⟩] } })) ∧
  (∀ (r : Requester) (m : OapMsg) (s : State) (b : BlockXfer), asked s r m 4 → s.dict.blocks = [b] → b.req = r → b.tid = m.tid → b.index = m.index → b.sub = m.sub → b.got < b.total →
    let k := min (b.total - b.got) (segmentBytes r)
    let h := base s r
    let none_ := { h with dict := { h.dict with blocks := [] } }
    let data := b.data + m.data % 2 ^ (8 * k) * 2 ^ (8 * b.got)
    sized r m k →
    (m.length.toNat ≠ b.next → exec (.blockContinuation r m) s = .next (none_.answerStatus (.requester r) s.canClassical (take m 4 true k) .badValue)) ∧
    (m.length.toNat = b.next → b.got + k < b.total → exec (.blockContinuation r m) s = .next
      { h with dict := { h.dict with blocks := [{ b with got := b.got + k, data := data, next := b.next + 1, cal := s.calends }] } }) ∧
    (m.length.toNat = b.next → b.total ≤ b.got + k → let w := none_.writeObject r m.index.toNat m.sub.toNat b.total data
      exec (.blockContinuation r m) s = .next (w.2.answerStatus (.requester r) s.canClassical (take m 4 true k) w.1))) ∧
  (∀ (r : Requester) (s : State) (b : BlockXfer), s.dict.blocks = [b] →
    (b.req = r → exec (.blockSegmentTimeout r) s = .next ((State.oapStat { s with dict := { s.dict with blocks := [] } } 4 1).answerStatus (.requester r) s.canClassical
      { type := 4, tid := b.tid, index := b.index, sub := b.sub, length := 0, n := 0, data := 0 } .timeout)) ∧
    (b.req ≠ r → (∀ e ∈ s.dict.more, e.1 ≠ r) → exec (.blockSegmentTimeout r) s = .next s)) ∧
  (∀ (s : State) (a : BitVec 128) (p : BitVec 16) (c : Bool) (m : OapMsg) (st : Status) (l : List OapMsg),
    let r := Requester.udp a p
    let u := s.answerOap (.requester r) c m st l
    u.dict.out = s.dict.out ++ l.map (fun x => (r, x)) ∧ (∃ x ∈ u.dict.repeats, x.req = r ∧ x.tid = m.tid ∧ x.type = m.type ∧ x.index = m.index ∧ x.sub = m.sub ∧ x.msgs = l ∧ x.cal = s.calends) ∧
    (∀ x ∈ u.dict.repeats, x.req = r → x.msgs = l) ∧ Sparse.get 0 u.dict.stats 3 = Sparse.get 0 s.dict.stats 3 + (if st = .ok then 0 else 1) ∧ u.dict.objs = s.dict.objs ∧ u.mem = s.mem ∧ u.host = s.host) ∧
  (∀ (v : ViId) (s : State) (len : Nat), let b := s.mailbox (.mailbox v)
    (b.state = 1 → exec (.go (some v) len) s = .next (s.refuseRegister v.val .busyStopClass)) ∧
    (b.state ≠ 1 → b.state ≠ 3 → len % 2048 = 0 → exec (.go (some v) len) s = .next (s.refuseRegister v.val .outOfRange)) ∧
    (b.state ≠ 1 → (0 < len % 2048 ∧ len % 2048 < 8) ∨ 1400 < len % 2048 → exec (.go (some v) len) s = .next (s.refuseRegister v.val .outOfRange)) ∧
    (∀ e l, b.state = 3 → len % 2048 = 0 → s.dict.more = (Requester.mailbox v, e) :: l → (∀ x ∈ l, x.1 ≠ .mailbox v) → exec (.go (some v) len) s = .next
      (State.showSegment { s with dict := { s.dict with more := l } } (.mailbox v) e false)) ∧
    (b.state ≠ 1 → 8 ≤ len → len ≤ 1400 → s.answers (.mailbox v) = true → bitsAt (memNat b.request 0 len) 0 4 ≠ 5 →
      let w := ((s.setMailbox (.mailbox v) { b with state := 1, respLen := 0 }).oap (.mailbox v) (.requester (.mailbox v)) false (oapParse len (memNat b.request 0 len))).1
      exec (.go (some v) len) s = .next (if (w.mailbox (.mailbox v)).state = 1 then w.setMailbox (.mailbox v) { w.mailbox (.mailbox v) with state := 0 } else w))) ∧
  (∀ (s : State) (len : Nat), s.host.bifurcation = 0 → exec (.go none len) s = .next s) ∧
  (∀ (n : BitVec 8) (m : OapMsg) (s : State), let h := s.heard (.can n)
    s.answers (.can n) = true → m.version = 1 → m.rsp = false → m.length = 8 → 8 ≤ m.n → m.n ≤ 56 →
    (s.obj 0x1110 0 0 = 1 → exec (.schedule (.can n) m) s = .next (h.oapStat 9 1)) ∧
    (s.obj 0x1110 0 0 ≠ 1 → exec (.schedule (.can n) m) s = .next { h with dict := { h.dict with round := m.data % 2 ^ 32, roundAt := some s.calends, roundLost := false } }))

/-- R204, R443 to R446, R448: commits. -/
def Obligations.CommitsFollowTheirRules : Prop :=
  (∀ (s : State) (vs : Sparse Nat) (k : Nat), k < 8 → ((s.commitScope vs).getLsbD k = true ↔ (∃ e ∈ vs, (s.affects e.1).getLsbD k = true) ∨
    ∃ p < 8, (s.partition p).clusters.getLsbD k = true ∧ ∃ j < 8, (s.partition p).clusters.getLsbD j = true ∧ ∃ e ∈ vs, (s.affects e.1).getLsbD j = true)) ∧
  (∀ (s : State) (i : Nat) (sub k : Nat), k < 8 → sub < 256 →
    (∀ c, i = 0x4000 + 0x100 * c → c < 8 → ((s.affects (256 * i + sub)).getLsbD k = decide (k = c))) ∧
    (∀ p, i = 0x5000 + 0x100 * p → p < 8 → (s.affects (256 * i + sub)).getLsbD k = (s.partition p).clusters.getLsbD k) ∧
    (i < 0x4000 ∨ 0x5800 ≤ i → (s.affects (256 * i + sub)).getLsbD k = true)) ∧
  (∀ (r : Requester) (m : OapMsg) (s : State), (∀ k, r ≠ .can k) → s.answers r = true → m.version = 1 → m.rsp = false → m.n = m.length.toNat →
    (∀ x ∈ s.dict.repeats, ¬ (x.req = r ∧ x.tid = m.tid ∧ x.type = 5 ∧ x.index = m.index ∧ x.sub = m.sub ∧ s.calends < x.cal + 4000000000)) →
    let h := (s.heard r).oapStat (match r with | .udp _ _ => 1 | _ => 0) 1
    let d := m.data % 2 ^ (8 * m.n)
    let q := { m with type := 5, cont := false, data := d }
    let t := d % 2 ^ 32
    let no := fun (st : Status) => exec (.commit r m) s = .next (h.answerStatus (.requester r) s.canClassical q st)
    let vs := s.dict.staged.filterMap (fun e => e.2.map (fun v => (e.1, v)))
    (h.mayWriteFrom r = false → no .accessLevel) ∧
    (h.mayWriteFrom r = true → m.n ≠ 8 → no .badValue) ∧
    (h.mayWriteFrom r = true → m.n = 8 → d / 2 ^ 33 ≠ 0 → no .illegalEncoding) ∧
    (h.mayWriteFrom r = true → m.n = 8 → d / 2 ^ 33 = 0 → 60000 < t → no .outOfRange) ∧
    (h.mayWriteFrom r = true → m.n = 8 → d / 2 ^ 33 = 0 → t ≤ 60000 → 16 ≤ s.dict.commits.length → no .noSpace) ∧
    (∀ k st, h.mayWriteFrom r = true → m.n = 8 → d / 2 ^ 33 = 0 → t ≤ 60000 → s.dict.commits.length < 16 → h.firstBad = some (k, st) →
      exec (.commit r m) s = .next (h.answerOap (.requester r) s.canClassical q st [responseTo q st 3 (k / 256 + k % 256 * 2 ^ 16)])) ∧
    (h.mayWriteFrom r = true → m.n = 8 → d / 2 ^ 33 = 0 → t ≤ 60000 → s.dict.commits.length < 16 → h.firstBad = none → h.commitScope vs ≠ 0 → ∃ u : State, ∃ c : Commit, exec (.commit r m) s = .next u ∧
      u.dict.commitNo = (s.dict.commitNo + 1) % 2 ^ 32 ∧ u.dict.staged = [] ∧ u.dict.commits = s.dict.commits ++ [c] ∧ c.no = u.dict.commitNo ∧ c.values = vs ∧ c.scope = h.commitScope vs ∧
      c.applied = 0 ∧ c.ended = false ∧ c.force = decide (d / 2 ^ 32 % 2 = 1) ∧ c.deadline = s.calends + (if t = 0 then s.obj 0x1020 4 100 else t) * 2000000 ∧
      (∀ k < 8, (u.seq k).commits = (s.seq k).commits ++ (if c.scope.getLsbD k then [c.no] else []) ∧ (u.seq k).epoch = (s.seq k).epoch ∧
        (u.seq k).force = ((s.seq k).force || (c.force && c.scope.getLsbD k))) ∧
      (∀ j < 9 * 2 ^ 24, Sparse.get none u.dict.objs j = Sparse.get none s.dict.objs j) ∧ u.mem = s.mem ∧ u.tiles = s.tiles)) ∧
  (∀ (c : ClusterId) (s : State), s.atBoundary c.val = false → exec (.commitApply c) s = .next s) ∧
  (∀ (c : ClusterId) (s : State), s.atBoundary c.val = true ↔ s.hungCluster c.val = false ∧ (∀ q ∈ (s.seq c.val).queues, ∀ t ∈ q.2, t.phase ≠ .dispatched) ∧
    (∀ e ∈ s.tiles, e.1 / 512 = c.val → e.2.task = none) ∧ (∀ e ∈ s.net.initiators, e.1 < 4096 → e.1 / 512 = c.val → e.2.out = [])) ∧
  (∀ (c : ClusterId) (s : State) (k : Commit) (e : Nat × Nat) (d : ObjDesc), s.atBoundary c.val = true → s.dict.commits = [k] → k.scope.getLsbD c.val = true → k.applied.getLsbD c.val = false →
    k.values = [e] → (∀ q, k.reply ≠ .dict q) → s.objDesc (e.1 / 256) (e.1 % 256) = some d → (s.affects e.1).getLsbD c.val = true → ¬ (0x5000 ≤ e.1 / 256 ∧ e.1 / 256 < 0x5800 ∧ e.1 / 256 % 0x100 = 0x21) → e.1 < 2 ^ 24 →
    ∃ u : State, exec (.commitApply c) s = .next u ∧ u.objIn c.val (e.1 / 256) (e.1 % 256) d.dflt = e.2 ∧ (u.seq c.val).epoch = (s.seq c.val).epoch + 1 ∧ (u.seq c.val).force = false ∧
      (u.seq c.val).commits = (s.seq c.val).commits.filter (fun n => n ≠ k.no) ∧ (∀ j, j ≠ c.val → u.seq j = s.seq j) ∧
      (∀ j < 8, j ≠ c.val → u.objIn j (e.1 / 256) (e.1 % 256) d.dflt = s.objIn j (e.1 / 256) (e.1 % 256) d.dflt) ∧
      (k.applied ||| (1#8 <<< c.val) ≠ k.scope → u.dict.commits = [{ k with applied := k.applied ||| (1#8 <<< c.val), epochs := k.epochs ++ [(c.val, ((s.seq c.val).epoch + 1).toNat)] }] ∧
        u.dict.lastResult = s.dict.lastResult ∧ u.obj (e.1 / 256) (e.1 % 256) d.dflt = s.obj (e.1 / 256) (e.1 % 256) d.dflt) ∧
      (k.applied ||| (1#8 <<< c.val) = k.scope → u.dict.commits = [] ∧ (k.ended = false → u.obj (e.1 / 256) (e.1 % 256) d.dflt = e.2 ∧ u.dict.lastResult.2 = 40 ∧ u.dict.lastResult.1 % 2 ^ 32 = k.no % 2 ^ 32))) ∧
  (∀ (n : Nat) (s : State) (k : Commit), s.dict.commits = [k] →
    (k.no ≠ n ∨ k.ended = true → exec (.commitTimeout n) s = .next s) ∧
    (k.no = n → k.ended = false → k.applied ≠ k.scope → k.values = [] → (∃ a p, k.reply = .requester (.udp a p)) → ∃ u : State, exec (.commitTimeout n) s = .next u ∧ u.dict.commits = [{ k with ended := true }] ∧
      u.dict.lastResult = (s.commitData k, 40) ∧ u.seqs = s.seqs ∧ u.dict.objs = s.dict.objs ∧
      ∃ r, k.reply = .requester r ∧ u.dict.out = s.dict.out ++ [(r, responseTo { type := 5, tid := k.tid, index := 0, sub := 0, length := 0, n := 0, data := 0 } .partialApplied 40 (s.commitData k))]))

/-- R455 to R458, R461, R463, R464, R466: CAN and Ethernet. -/
def Obligations.FieldNetworksFollowTheirRules : Prop :=
  let up := fun (s : State) => s.power.porHeld = false ∧ s.power.stage ≠ 1 ∧ s.power.stage ≠ 2
  let on := fun (s : State) => s.obj 0x1100 1 1 = 1 ∧ s.dict.canNode ≠ 0 ∧ up s
  let eth := fun (s : State) => s.obj 0x1150 0 1 = 1 ∧ up s
  (∀ s : State, ¬ on s → (∀ f, exec (.canFrameReceive f) s = .next s) ∧ (∀ w, exec (.frameAttempt w) s = .next s) ∧ exec .roundMarkSend s = .next s ∧ exec .roundLost s = .next s ∧
    ∀ k, exec (.windowOpen k) s = .next s) ∧
  (∀ (f : CanFrame) (s : State), on s →
    let dest := f.id.toNat / 2 ^ 8 % 2 ^ 8
    let node := BitVec.ofNat 8 (f.id.toNat % 2 ^ 8)
    let mine := f.extended = true ∧ f.id.toNat / 2 ^ 16 % 2 ^ 8 = 1 ∧ (dest = s.dict.canNode ∨ dest = 255)
    (¬ mine → exec (.canFrameReceive f) s = .next s) ∧
    (mine → f.fd = true → s.obj 0x1100 2 0 = 1 → exec (.canFrameReceive f) s = .next s) ∧
    (mine → f.fd = true → s.obj 0x1100 2 0 ≠ 1 → f.n < 8 → exec (.canFrameReceive f) s = .next (s.oapStat 6 1)) ∧
    (mine → f.fd = true → s.obj 0x1100 2 0 ≠ 1 → f.n ∈ [8, 12, 16, 20, 24, 32, 48, 64] →
      exec (.canFrameReceive f) s = .next (s.oap (.can node) (.requester (.can node)) false (oapParse f.n (f.data % 2 ^ (8 * f.n)))).1) ∧
    (mine → f.fd = false → f.n = 8 → (∀ x ∈ s.dict.canParts, x.node ≠ node) →
      let d := f.data % 2 ^ 64
      let need := s.dataBytes (.can node) (oapParse 8 d)
      (0 < need → need ≤ 56 → exec (.canFrameReceive f) s = .next { s with dict := { s.dict with canParts := s.dict.canParts ++ [⟨node, 8, d, s.calends⟩] } }) ∧
      (need = 0 → exec (.canFrameReceive f) s = .next (s.oap (.can node) (.requester (.can node)) true (oapParse 8 d)).1) ∧
      (56 < need → exec (.canFrameReceive f) s = .next (s.oapStat 6 1)))) ∧
  (∀ (n : BitVec 8) (s : State), ∃ u : State, exec (.classicalGapTimeout n) s = .next u ∧ (∀ x, x ∈ u.dict.canParts ↔ x ∈ s.dict.canParts ∧ x.node ≠ n) ∧ u.dict.objs = s.dict.objs ∧ u.mem = s.mem) ∧
  (∀ s : State, on s →
    (s.obj 0x1110 0 0 = 1 → ∃ u : State, ∃ o : CanOut, exec .roundMarkSend s = .next u ∧ u.dict.canQueue = s.dict.canQueue ++ [o] ∧ o.mark = true ∧ o.prio = 0 ∧ o.dest = 255 ∧ o.msg.type = 7 ∧ o.msg.n = 8 ∧
      o.msg.data % 2 ^ 32 = s.dict.nextMark % 2 ^ 32 ∧ o.record = none ∧ u.dict.nextMark = s.dict.nextMark + 1 ∧ exec .roundLost s = .next s) ∧
    (s.obj 0x1110 0 0 ≠ 1 → exec .roundMarkSend s = .next s) ∧
    (s.obj 0x1110 0 0 = 0 → s.dict.roundLost = false → exec .roundLost s = .next (State.oapStat { s with dict := { s.dict with roundLost := true } } 8 1)) ∧
    (s.obj 0x1110 0 0 = 0 → s.dict.roundLost = true → exec .roundLost s = .next s)) ∧
  (∀ (k : Fin 16) (s : State), on s →
    (s.obj 0x1110 2 0 ≤ k.val ∨ s.dict.roundLost = true ∨ s.dict.roundAt = none → exec (.windowOpen k) s = .next s) ∧
    (k.val < s.obj 0x1110 2 0 → s.dict.roundLost = false → s.dict.roundAt.isSome = true → s.dict.canQueue = [] →
      let due := (List.range 32).filter (fun r => s.recField r 0 = 1 && s.recField r 2 = k.val && s.dict.round % s.recField r 3 = 0)
      exec (.windowOpen k) s = .next { s with dict := { s.dict with canQueue := due.filterMap s.recordOut } })) ∧
  (∀ (r : Nat) (s : State) (v n : Nat), r < 32 → s.recValue r = .ok (v, n) → n ≤ 56 → ∃ o, s.recordOut r = some o ∧ o.record = some r ∧ o.prio = s.recField r 5 ∧ o.dest = s.recField r 4 ∧ o.mark = false ∧
    o.deferred = false ∧ o.msg.type = 6 ∧ o.msg.rsp = false ∧ o.msg.tid = BitVec.ofNat 8 r ∧ o.msg.n = n ∧ o.msg.data = v ∧ o.msg.index = BitVec.ofNat 16 (s.recField r 1 / 256)) ∧
  (∀ (s : State) (o : CanOut), let b := oapBytes o.msg
    let l := s.canFrames o
    (∀ f ∈ l, f.extended = true ∧ f.fd = !o.classical ∧ f.id.toNat / 2 ^ 24 = o.prio % 32 ∧ (s.dict.canNode < 256 → f.id.toNat / 2 ^ 16 % 2 ^ 8 = 1 ∧
      f.id.toNat / 2 ^ 8 % 2 ^ 8 = o.dest % 256 ∧ f.id.toNat % 2 ^ 8 = s.dict.canNode)) ∧
    (o.classical = false → ∃ f, l = [f] ∧ f.data = b.1 ∧ f.n = fdSize b.2) ∧
    (o.classical = true → l.length = (b.2 + 7) / 8 ∧ ∀ i f, l[i]? = some f → f.n = min 8 (b.2 - 8 * i) ∧ f.data = bitsAt b.1 (64 * i) 64)) ∧
  (∀ (s : State) (won : Bool) (o : CanOut), on s → s.dict.canQueue = [o] →
    let t := s.messageTime o.classical (8 + o.msg.n)
    let u := { s with dict := { s.dict with canQueue := [], canSent := s.dict.canSent ++ s.canFrames o } }
    let idle := s.dict.roundLost = true ∨ s.dict.roundAt = none ∨ s.obj 0x1110 2 0 = 0
    let now := fun (k : Nat) => ∃ a, s.dict.roundAt = some a ∧ s.dict.roundLost = false ∧ k < s.obj 0x1110 2 0 ∧ 2000 * (s.window k).1 ≤ s.calends - a ∧ s.calends - a < 2000 * ((s.window k).1 + (s.window k).2)
    (o.record = none → o.mark = false → idle → exec (.frameAttempt won) s = .next (if won then u else s)) ∧
    (∀ k, o.record = none → o.mark = false → now k → 0 < t → exec (.frameAttempt won) s = .next s) ∧
    (o.record = none → o.mark = true → exec (.frameAttempt won) s = .next (if won then { u with dict := { u.dict with round := o.msg.data % 2 ^ 32, roundAt := some s.calends } } else s)) ∧
    (∀ r a, o.record = some r → o.deferred = false → s.dict.roundAt = some a → now (s.recField r 2) → t ≤ 2000 * ((s.window (s.recField r 2)).1 + (s.window (s.recField r 2)).2) - (s.calends - a) →
      exec (.frameAttempt won) s = .next (if won then { u with dict := { u.dict with recSent := Sparse.set 0 s.dict.recSent r ((Sparse.get 0 s.dict.recSent r + 1) % 2 ^ 32) } } else s)) ∧
    (∀ r, o.record = some r → o.deferred = false → ¬ now (s.recField r 2) → 0 < t → exec (.frameAttempt won) s = .next (State.oapStat { s with dict := { s.dict with
      canQueue := [{ o with deferred := true }], recDeferred := Sparse.set 0 s.dict.recDeferred r ((Sparse.get 0 s.dict.recDeferred r + 1) % 2 ^ 32) } } 7 1))) ∧
  (∀ (s : State) (a b : CanOut), on s → s.dict.canQueue = [a, b] → s.dict.roundLost = true → a.record = none → b.record = none → a.mark = false → b.mark = false →
    ∃ u : State, exec (.frameAttempt true) s = .next u ∧ u.dict.canSent = s.dict.canSent ++ s.canFrames (if b.prio < a.prio then b else a) ∧ u.dict.canQueue = [if b.prio < a.prio then a else b]) ∧
  (∀ (a : BitVec 128) (p : BitVec 16) (n v : Nat) (s : State), eth s →
    (n < 8 ∨ 1400 < n → exec (.udpDatagram a p n v) s = .next (s.oapStat 6 1)) ∧
    (8 ≤ n → n ≤ 1400 → exec (.udpDatagram a p n v) s = .next (s.oap (.udp a p) (.requester (.udp a p)) false (oapParse n (v % 2 ^ (8 * n)))).1)) ∧
  (∀ (f : EthFrame) (s : State) (a : BitVec 128) (p : BitVec 16) (n v : Nat), ¬ eth s → exec (.ethernetFrame f) s = .next s ∧ exec (.udpDatagram a p n v) s = .next s) ∧
  (∀ (s : State) (a : BitVec 128) (x g : BitVec 32) (n v l : Nat), eth s →
    exec (.ethernetFrame (.resolve a)) s = .next (if s.ownAddress a then s.ethSend (.resolve a) else s) ∧
    exec (.ethernetFrame (.echo a n v)) s = .next (if s.ownAddress a then s.ethSend (.echo a n (v % 2 ^ (8 * n))) else s) ∧
    exec (.ethernetFrame .other) s = .next (s.oapStat 6 1) ∧
    (s.obj 0x1150 1 1 = 1 → exec (.ethernetFrame (.offer x)) s = .next (s.ethSend (.dhcpRequest x)) ∧
      exec (.ethernetFrame (.lease x l g)) s = .next { s with dict := { s.dict with lease := some (x, l % 33, g) } }) ∧
    (s.obj 0x1150 1 1 = 0 → exec (.ethernetFrame (.offer x)) s = .next (s.oapStat 6 1) ∧ exec (.ethernetFrame (.lease x l g)) s = .next (s.oapStat 6 1) ∧
      (s.obj 0x1150 2 0 ≠ 0 → s.obj 0x1150 2 0 < 2 ^ 32 → s.ownAddress (BitVec.ofNat 128 (0xFFFF * 2 ^ 32 + s.obj 0x1150 2 0)) = true)))

/-- R496, R507 to R513, R519, R521, R522, R525, R528: Vigil and the Almanac port. -/
def Obligations.VigilAndAlmanacFollowTheirRules : Prop :=
  (∀ (c : ClusterId) (s : State),
    let busy := ∃ q ∈ (s.seq c.val).queues, ∃ t ∈ q.2, t.phase = .dispatched
    (∀ p, s.partOfCluster c.val = some p → (s.partition p).state = .ready → busy → (s.seq c.val).watchdogFrom ≠ s.calends → ∃ u : State, exec (.watchdog c) s = .next u ∧ u.vigil.triggers = s.vigil.triggers ++ [(1, p, c.val)] ∧
      (u.seq c.val).watchdogTrips = ((s.seq c.val).watchdogTrips + 1) % 2 ^ 32 ∧ (u.seq c.val).watchdogFrom = s.calends ∧ (u.seq c.val).queues = (s.seq c.val).queues ∧
      (∀ k, k ≠ c.val → u.seq k = s.seq k) ∧ u.mem = s.mem ∧ u.tiles = s.tiles) ∧
    (s.partOfCluster c.val = none ∨ (∃ p, s.partOfCluster c.val = some p ∧ (s.partition p).state ≠ .ready) ∨ ¬ busy ∨ (s.seq c.val).watchdogFrom = s.calends → exec (.watchdog c) s = .next s)) ∧
  (∀ (s : State) (code scope detail : Nat) (rest : List (Nat × Nat × Nat)), s.vigil.triggers = (code, scope, detail) :: rest →
    let covered := (∃ f ∈ s.vigil.freezes, f.scope = scope ∨ f.scope = 8) ∨ (scope < 8 ∧ (s.partition scope).state ≠ .ready) ∨ (8 ≤ scope ∧ s.vigil.hung = true)
    (covered → exec .freeze s = .next { s with vigil := { s.vigil with triggers := rest } }) ∧
    (¬ covered → ∃ u : State, ∃ f : Freeze, exec .freeze s = .next u ∧ u.vigil.state = 1 ∧ u.vigil.scope = scope ∧ u.vigil.count = (s.vigil.count + 1) % 2 ^ 32 ∧ u.vigil.triggers = rest ∧
      u.vigil.freezes = s.vigil.freezes ++ [f] ∧ f.no = u.vigil.count ∧ f.code = code ∧ f.scope = scope ∧ f.detail = detail ∧ f.tF = s.calends ∧ f.tS = none ∧
      (scope < 8 → (u.partition scope).state = .hung ∧ (u.partition scope).since = s.calends ∧ (∀ p, p ≠ scope → u.partition p = s.partition p) ∧
        ∀ v < 64, s.viPart v = some scope → (u.vi v).fnEvents.getLsbD 2 = true) ∧
      (8 ≤ scope → ∀ p < 8, (s.partition p).clusters ≠ 0 → (u.partition p).state = .hung) ∧ (scope = 8 → u.vigil.hung = true) ∧ u.mem = s.mem ∧ u.tiles = s.tiles)) ∧
  (∀ s : State, (s.vigil.triggers = [] → exec .freeze s = .next s) ∧ (s.vigil.freezes = [] → exec .vigilSnapshot s = .next s ∧ exec .vigilDone s = .next s)) ∧
  (∀ (s : State) (f : Freeze) (rest : List Freeze), s.vigil.freezes = f :: rest →
    (f.tS.isSome = true → exec .vigilSnapshot s = .next s) ∧ (f.tS = none → exec .vigilDone s = .next s) ∧
    (f.tS = none → ∃ u : State, exec .vigilSnapshot s = .next u ∧ u.vigil.state = 2 ∧ u.vigil.freezes = { f with tS := some s.calends } :: rest ∧
      u.vigil.snapshot.map (fun x => (x.1, x.2.1)) = s.dumpSet f.scope ∧ (∀ x ∈ u.vigil.snapshot, x.2.2.1 = sectionBytes x.1) ∧ u.mem = s.mem ∧ u.tiles = s.tiles ∧ u.net = s.net ∧ u.host = s.host) ∧
    (∀ t, (1, t) ∈ s.dumpSet f.scope ↔ t / 512 ∈ s.scopeClusters f.scope ∧ s.enabled t = true) ∧
    (∀ k, (3, k) ∈ s.dumpSet f.scope ↔ k ∈ s.scopeClusters f.scope) ∧ (∀ k, (7, k) ∈ s.dumpSet f.scope ↔ k < 32) ∧
    (∀ t, f.tS = some t → s.vigil.waitingParts = [] → s.vigil.waitingVis = [] → 4096 + (s.vigil.snapshot.map (fun x => 16 + x.2.2.1)).sum ≤ 0x4000000 → ∃ u : State, exec .vigilDone s = .next u ∧ u.vigil.state = 3 ∧ u.vigil.freezes = rest ∧ u.vigil.snapshot = [] ∧
      u.almanac.streams = s.almanac.streams ++ [(s.vigilBase + (f.no - 1) % 4 * 0x4000000, 4096 + (s.vigil.snapshot.map (fun x => 16 + x.2.2.1)).sum, 0)] ∧
      (∀ c ∈ u.host.cmds, c.key.vi ∈ s.scopeVis f.scope → c.refused = false → c.status = .hung ∧ c.phase = .recorded) ∧
      (s.domain 19 = .off → u.domain 19 = .waking) ∧ u.tiles = s.tiles)) ∧
  (∀ (n : NodeId) (s : State), nodeKind n.toNat = none → exec (.eventEntryWrite n) s = .fault .noSuchUnit) ∧
  (∀ (t : TileId) (s : State), let x := s.tile t
    exec (.eventEntryWrite (BitVec.ofNat 14 t.val)) s = .next (s.setTile t { x with ring := x.ring.writeNext s.calends })) ∧
  (∀ (n : NodeId) (s : State), nodeKind n.toNat ≠ none → 4096 ≤ n.toNat →
    exec (.eventEntryWrite n) s = .next { s with rings := Sparse.set {} s.rings (n.toNat % 4096) ((Sparse.get {} s.rings (n.toNat % 4096)).writeNext s.calends) }) ∧
  (∀ (r : EventRing) (cal : Nat),
    (r.waiting = [] → r.writeNext cal = r) ∧ (∀ e l, r.waiting = e :: l → r.lastWrite = some cal → r.writeNext cal = r) ∧
    (∀ e l, r.waiting = e :: l → r.lastWrite ≠ some cal → (r.writeNext cal).waiting = l ∧ (r.writeNext cal).written = (r.written + 1) % 2 ^ 48 ∧
      Sparse.get 0 (r.writeNext cal).slots (r.written % 64) = e ∧ (∀ k, k ≠ r.written % 64 → Sparse.get 0 (r.writeNext cal).slots k = Sparse.get 0 r.slots k) ∧
      (r.writeNext cal).dropped = r.dropped)) ∧
  (∀ (n : NodeId) (s : State) (r : TraceRecord), s.almanac.coming.find? (fun r => r.node = n.toNat) = some r →
    let on := s.domain 19 = .on ∧ s.almanac.test = false
    let room := if r.kind = 2 then s.almanac.marks.length < 64 else s.almanac.vigils.length < 4
    r.kind ≠ 1 → ∃ u : State, exec (.traceRecordCollect n true) s = .next u ∧ u.almanac.coming = s.almanac.coming.erase r ∧ u.almanac.events = s.almanac.events ∧
      (on → room → u.almanac.marks = s.almanac.marks ++ (if r.kind = 2 then [r] else []) ∧ u.almanac.vigils = s.almanac.vigils ++ (if r.kind = 2 then [] else [r]) ∧ u.almanac.dropped = s.almanac.dropped) ∧
      (¬ (on ∧ room) → u.almanac.marks = s.almanac.marks ∧ u.almanac.vigils = s.almanac.vigils ∧ u.almanac.dropped = s.almanac.dropped + 1) ∧
      (¬ on → u.almanac.counts = s.almanac.counts) ∧
      (on → ¬ room → Sparse.get 0 u.almanac.counts (if r.kind = 2 then 4 else 3) = (Sparse.get 0 s.almanac.counts (if r.kind = 2 then 4 else 3) + 1) % 2 ^ 48) ∧ u.tiles = s.tiles ∧ u.mem = s.mem) ∧
  (∀ (t : TileId) (s : State), let g := (s.tile t).ring
    let on := s.domain 19 = .on ∧ s.almanac.test = false
    let room := s.almanac.events.length < 256
    (g.coming = [] → exec (.traceRecordCollect (BitVec.ofNat 14 t.val) false) s = .next s) ∧
    (∀ e rest, g.coming = e :: rest → ∃ u : State, exec (.traceRecordCollect (BitVec.ofNat 14 t.val) false) s = .next u ∧ (u.tile t).ring = { g with coming := rest } ∧ (∀ j, j ≠ t → u.tile j = s.tile j) ∧
      (on → room → u.almanac.events = s.almanac.events ++ [⟨1, (e.extractLsb' 32 32).toNat, t.val, [e.toNat]⟩] ∧ u.almanac.dropped = s.almanac.dropped) ∧
      (¬ (on ∧ room) → u.almanac.events = s.almanac.events ∧ u.almanac.dropped = s.almanac.dropped + 1) ∧ (¬ on → u.almanac.counts = s.almanac.counts) ∧
      (on → ¬ room → Sparse.get 0 u.almanac.counts 2 = (Sparse.get 0 s.almanac.counts 2 + 1) % 2 ^ 48))) ∧
  (∀ s : State, let a := s.almanac
    let young := ∀ r ∈ a.vigils ++ a.marks ++ a.events, (s.calends + 2 ^ 32 - r.cal % 2 ^ 32) % 2 ^ 32 < 2 ^ 30
    let waits := a.vigils ++ a.marks ++ a.events ≠ []
    (s.domain 19 ≠ .on ∨ a.test = true ∨ 1024 ≤ a.sinceAlign → exec .almanacFrame s = .next s) ∧
    (s.domain 19 = .on → a.test = false → a.sinceAlign < 1024 → young → ∃ u : State, ∃ f : AlmanacFrame, exec .almanacFrame s = .next u ∧ u.almanac.last = some f ∧ u.almanac.blocks = AlmanacFrame.blocks f ∧ u.almanac.sinceAlign = a.sinceAlign + 1 ∧
      f.seq = a.frameSeq ∧ f.cal = s.calends ∧ Sparse.get 0 u.almanac.counts 0 = (Sparse.get 0 a.counts 0 + 1) % 2 ^ 48 ∧ (a.streams = [] → u.tiles = s.tiles) ∧
      (¬ waits → a.streams = [] → f.kind = 0 ∧ f.records = [] ∧ u.almanac.frameSeq = a.frameSeq) ∧
      (waits → a.streams = [] ∨ a.traceLast = false → f.kind = 1 ∧ u.almanac.frameSeq = (a.frameSeq + 1) % 2 ^ 16 ∧ u.almanac.traceLast = true ∧ u.almanac.streams = a.streams ∧
        u.almanac.dropped = 0 ∧ f.dropped = min a.dropped 0xFFFF ∧ (f.records.map (fun r => 8 + 8 * r.words.length)).sum ≤ 236 ∧
        (∃ v m e, f.records = v ++ m ++ e ∧ a.vigils = v ++ u.almanac.vigils ∧ a.marks = m ++ u.almanac.marks ∧ a.events = e ++ u.almanac.events) ∧
        Sparse.get 0 u.almanac.counts 1 = (Sparse.get 0 a.counts 1 + f.records.length) % 2 ^ 48) ∧
      (∀ b n o l, a.streams = (b, n, o) :: l → ¬ waits ∨ a.traceLast = true → f.kind = 2 ∧ f.offset = o ∧ f.bytes = min 232 (n - o) ∧ u.almanac.traceLast = false ∧
        u.almanac.frameSeq = (a.frameSeq + 1) % 2 ^ 16 ∧ u.almanac.streams = (if o + 232 < n then (b, n, o + 232) :: l else l) ∧ u.almanac.events = a.events)) ∧
    (s.domain 19 = .on → 1024 ≤ a.sinceAlign → exec .align s = .next { s with almanac := { a with sinceAlign := 0, blocks := alignBlocks } }) ∧
    (s.domain 19 ≠ .on ∨ a.sinceAlign < 1024 → exec .align s = .next s))

/-- R533, R535, R540 to R542, R545, R546, R548, R549, R556 to R558: supplies, resets, the boot, domains, heat. -/
def Obligations.PowerAndResetFollowTheirRules : Prop :=
  let porReset := fun (s u : State) (cause : Nat) => u.power.porHeld = true ∧ u.power.resetCause = cause ∧ u.power.locked = false ∧ u.power.bootState = 0 ∧ u.power.holds = [] ∧
    u.power.thermTrip = false ∧ u.power.pinMask = false ∧ u.power.domains = [] ∧ u.tiles = [] ∧ u.parts = [] ∧ u.mem = State.reset.mem ∧ u.calends = 0 ∧ u.host.linkState = 0 ∧
    u.host.perstLow = s.host.perstLow ∧ u.dict.objs = [] ∧ u.dict.store = s.dict.store ∧ u.dict.storeOk = s.dict.storeOk ∧ u.dict.storeOld = s.dict.storeOld ∧ u.dict.storeOldOk = s.dict.storeOldOk ∧
    u.net.weltFailing = s.net.weltFailing ∧ u.net.flights = [] ∧ u.test.badLinks = s.test.badLinks ∧ u.tap = s.tap ∧ u.part = s.part ∧ u.pending = s.pending ∧ u.power.resetLow = s.power.resetLow
  let trains := fun (s : State) => s.host.perstLow = false ∧ s.power.porHeld = false ∧ s.power.bootSel < 2 ∧ 2 < s.power.stage ∧ s.host.linkState = 0
  let devReset := fun (s u : State) => u.tiles = [] ∧ u.lacing = {} ∧ u.newen = [] ∧ u.loads = [] ∧ u.engines = [] ∧ (∀ p, (u.partition p).clusters = 0) ∧ u.calends = s.calends ∧
    u.dict.store = s.dict.store ∧ u.dict.staged = [] ∧ u.net.weltFailing = s.net.weltFailing ∧ u.test.badLinks = s.test.badLinks ∧ u.power.opened = s.power.opened ∧ u.power.asked = false ∧ u.power.coldBoot = false ∧ u.power.thermalDuty = 8 ∧
    u.power.stage = (if s.power.strapped then s.power.stage else if u.power.holds = [] then 5 else 0) ∧ u.part = s.part ∧ u.power.bootSel = s.power.bootSel ∧
    u.host.linkState = (if s.host.perstLow = false ∧ s.power.porHeld = false ∧ s.power.bootSel < 2 ∧ 2 < u.power.stage then 1 else 0)
  (∀ s : State, let x := s.power
    (∃ u : State, exec .porN s = .next u ∧ porReset s u 0 ∧ u.power.porLow = true ∧ u.power.railsBad = x.railsBad ∧ u.power.stage = 0) ∧
    (∃ u : State, exec .supplyFault s = .next u ∧ porReset s u 0 ∧ u.power.railsBad = true ∧ u.power.porLow = x.porLow ∧ u.power.stage = 0) ∧
    (x.porHeld = true → exec .pllUnlock s = .next s) ∧
    (x.porHeld = false → ∃ u : State, exec .pllUnlock s = .next u ∧ porReset s u 1 ∧ u.power.stage = if x.porLow = false ∧ x.railsBad = false then 1 else 0) ∧
    exec .porRelease s = .next { s with power := { x with porLow := false, stage := if x.porHeld = true ∧ x.railsBad = false then 1 else x.stage } } ∧
    exec .supplyInTolerance s = .next { s with power := { x with railsBad := false, stage := if x.porHeld = true ∧ x.porLow = false then 1 else x.stage } } ∧
    (∀ (b : Fin 4) (n : Fin 8), (x.porHeld = false ∨ x.stage ≠ 1 → exec (.pllLock b n) s = .next s) ∧
      (x.porHeld = true → x.stage = 1 → x.resetLow = false → x.thermTrip = false → exec (.pllLock b n) s = .next { s with
        calends := 0, power := { x with porHeld := false, locked := true, stage := 2, bootSel := b.val, nodeSel := n.val } }) ∧
      (x.porHeld = true → x.stage = 1 → x.resetLow = true → x.holds = [] → x.thermTrip = false → exec (.pllLock b n) s = .next { s with
        calends := 0, power := { x with porHeld := false, locked := true, stage := 2, bootSel := b.val, nodeSel := n.val, resetHeld := true, heldFrom := 0, heldTime := 0, holds := [.resetPin], resetCause := 2 } }) ∧
      (x.porHeld = true → x.stage = 1 → x.thermTrip = true → ∃ u : State, exec (.pllLock b n) s = .next u ∧ u.calends = 0 ∧ u.power.porHeld = false ∧ u.power.locked = true ∧ u.power.bootSel = b.val ∧
        u.power.nodeSel = n.val ∧ u.power.thermTrip = true ∧ HoldCause.thermal ∈ u.power.holds ∧ u.power.resetCause = 5 ∧ u.power.stage = 0 ∧ u.power.bootState = 2 ∧ u.power.bootFail = Status.code .aborted))) ∧
  (∀ s : State, let x := s.power
    (x.pinMask = true ∨ x.porHeld = true ∨ x.resetHeld = true → exec .resetN s = .next { s with power := { x with resetLow := true } }) ∧
    (x.pinMask = false → x.porHeld = false → x.resetHeld = false → x.stage ≠ 1 → x.stage ≠ 2 → x.stage ≠ 4 → ∃ u : State, exec .resetN s = .next u ∧ devReset s u ∧ u.power.resetLow = true ∧
      u.power.resetHeld = true ∧ u.power.heldFrom = s.calends ∧ HoldCause.resetPin ∈ u.power.holds ∧ (x.holds = [] → u.power.resetCause = 2) ∧ (.thermal ∈ x.holds → u.power.resetCause = 5)) ∧
    (x.resetHeld = false → exec .resetNRise s = .next { s with power := { x with resetLow := false, pinStuck := false } }) ∧
    (x.resetHeld = true → ∃ u : State, exec .resetNRise s = .next u ∧ u.power.resetHeld = false ∧ u.power.resetLow = false ∧ u.power.pinStuck = false ∧
      u.power.heldTime = (s.calends - x.heldFrom) / 2000000 ∧ u.power.holds = x.holds.erase .resetPin ∧
      u.power.stage = (if x.holds = [.resetPin] ∧ x.porHeld = false ∧ (x.stage = 0 ∨ (x.stage = 4 ∧ x.imageDone = true)) then 5 else x.stage) ∧
      u.host = (if trains { s with power := u.power } then { s.host with linkState := 1 } else s.host) ∧ u.mem = s.mem ∧ u.tiles = s.tiles) ∧
    exec .resetPinStuck s = .next { s with power := { x with pinStuck := x.pinStuck || x.resetHeld } } ∧
    (x.thermTrip = true → exec .thermtripN s = .next s) ∧ (x.thermTrip = false → x.porHeld = true → exec .thermtripN s = .next { s with power := { x with thermTrip := true } }) ∧
    (x.thermTrip = false → x.porHeld = false → ∃ u : State, exec .thermtripN s = .next u ∧ devReset s u ∧ u.power.thermTrip = true ∧ HoldCause.thermal ∈ u.power.holds ∧ u.power.resetCause = 5 ∧
      u.power.bootState = 2 ∧ u.power.bootFail = Status.code .aborted) ∧
    (x.asked = false → exec (.deviceResetSequence .device) s = .next s) ∧
    (x.asked = true → ∃ u : State, exec (.deviceResetSequence .device) s = .next u ∧ devReset s u ∧ u.power.holds = x.holds ∧ (x.holds = [] → u.power.resetCause = 4)) ∧
    (∀ (c : ClusterId) (l : List NodeId), let higher := x.porHeld = true ∨ x.holds ≠ [] ∨ ∃ p, s.partOfCluster c.val = some p ∧ (s.partition p).state = .resetting
      (higher → exec (.deviceResetSequence (.cluster c l)) s = .next s) ∧
      (¬ higher → ∃ u : State, exec (.deviceResetSequence (.cluster c l)) s = .next u ∧ (u.seq c.val).queues = [] ∧ (u.seq c.val).tallies = [] ∧ (∀ t : TileId, t.val / 512 = c.val → (u.tile t).task = none) ∧
        (∀ n : NodeId, inCluster c.val n.toNat = true → n ∉ l → (u.target n.toNat).shim = false) ∧ u.power = s.power)) ∧
    (∀ p : PartId, (s.partition p.val).clusters = 0 ∨ x.porHeld = true ∨ x.holds ≠ [] → exec (.deviceResetSequence (.partition p)) s = .next s)) ∧
  (∀ (s : State) (l : List Int) (other : Int), let x := s.power
    let t := (l.take 8).foldl max other
    let start : Int := s.obj 0x9020 3 95
    let g := fun (t : Int) => if t < start then 8 else (max 1 (7 - (t - start) / (s.obj 0x9020 4 2 : Int))).toNat
    let again := x.tripping = true ∧ 110 < t
    (x.porHeld = true → exec (.sensorRead l other) s = .next s) ∧
    (x.porHeld = false → t < 125 ∨ x.thermTrip = true → ∃ u : State, exec (.sensorRead l other) s = .next u ∧ u.power.dieTemp = t ∧ u.power.dieTempMax = max x.dieTempMax t ∧
      (∀ i (h : i < l.length), i < 8 → Sparse.get 0 u.power.clusterTemp i = l[i]) ∧ (again ∨ 115 ≤ t → u.power.thermalDuty = 1 ∧ u.power.tripping = true) ∧
      u.power.trips = x.trips + (if ¬ again ∧ 115 ≤ t then 1 else 0) ∧ (¬ again → t < 115 → u.power.tripping = false ∧ u.power.thermalDuty = min x.thermalDuty (g t) ∧
        u.power.aboveSince = if x.thermalDuty < g t then some (x.aboveSince.getD s.calends) else none) ∧ u.power.holds = x.holds ∧ u.tiles = s.tiles ∧ u.mem = s.mem ∧ u.dict = s.dict) ∧
    (x.porHeld = false → 125 ≤ t → x.thermTrip = false → ∃ u : State, exec (.sensorRead l other) s = .next u ∧ devReset s u ∧ u.power.thermTrip = true ∧ u.power.resetCause = 5 ∧ u.power.dieTemp = t) ∧
    (x.aboveSince.isSome = true → x.tripping = false → x.thermalDuty < g x.dieTemp → exec .dutyRaise s = .next { s with power := { x with
      thermalDuty := x.thermalDuty + 1, aboveSince := if x.thermalDuty + 1 < g x.dieTemp then some s.calends else none } }) ∧
    (x.aboveSince = none ∨ x.tripping = true ∨ g x.dieTemp ≤ x.thermalDuty → exec .dutyRaise s = .next s)) ∧
  (∀ (s : State) (f : BootFound), let x := s.power
    let run := x.porHeld = false ∧ x.bootState = 0
    let bounded := x.stage = 2 ∨ (x.stage = 4 ∧ x.bootSel ≠ 1 ∧ x.imageDone = false) ∨ (5 ≤ x.stage ∧ x.stage ≤ 13)
    let fails := fun (st : Status) => { s with power := { x with bootState := 2, bootFail := Status.code st } }
    let takes := fun (img : Nat) => { s with power := { x with
      imageDone := true, fwVersion := laneNat img 64 1 % 2 ^ 32, fwCrc := laneNat img 64 7 % 2 ^ 32, bootFail := 0, stage := if x.holds = [] then 5 else 4 } }
    (¬ run ∨ (x.stage ≠ 2 ∧ x.stage ≠ 4 ∧ ¬ (5 ≤ x.stage ∧ x.stage ≤ 13)) → exec (.bootStageEnd f) s = .next s) ∧
    (run ∧ bounded → exec .bootStageTimeout s = .next (fails .timeout)) ∧ (¬ (run ∧ bounded) → exec .bootStageTimeout s = .next s) ∧
    (run → x.stage = 2 → x.bootSel < 4 → ∃ u : State, exec (.bootStageEnd f) s = .next u ∧ u.power.stage = [4, 4, 0xE0, 0xF0].getD x.bootSel 0 ∧ (x.bootSel = 3 → ∀ d < 20, u.domain d = .on) ∧
      (let newer := f.storeOk = true ∧ s.dict.storeOk = true
        let older := f.storeOldOk = true ∧ s.dict.storeOldOk = true
        (newer → u.dict.objs = (s.takeStore s.dict.store).dict.objs ∧ u.dict.store = s.dict.store) ∧
        (¬ newer → older → u.dict.objs = (s.takeStore s.dict.storeOld).dict.objs ∧ u.dict.store = s.dict.storeOld) ∧
        (newer ∨ older → u.dict.defaulted = s.dict.defaulted) ∧ (¬ (newer ∨ older) → u.dict.defaulted = true ∧ u.dict.objs = s.dict.objs)) ∧
      u.power.opened = true ∧ u.host.bifurcation = u.obj 0x6000 5 0 ∧ u.dict.canNode = (if 254 < u.obj 0x1100 0 1 + x.nodeSel then 0 else u.obj 0x1100 0 1 + x.nodeSel) ∧
      (x.bootSel < 2 → s.host.perstLow = false → s.host.linkState = 0 → u.host.linkState = 1) ∧
      (x.bootSel < 2 → s.host.perstLow = true → u.obj 0x6000 6 0 = 0 → HoldCause.perst ∈ u.power.holds) ∧
      u.mem = s.mem ∧ u.tiles = s.tiles) ∧
    (run → x.stage = 4 → x.bootSel = 1 ∨ x.imageDone = true → exec (.bootStageEnd f) s = .next s) ∧
    (run → x.stage = 4 → x.bootSel ≠ 1 → x.imageDone = false → (imageValid f.imageA = true → exec (.bootStageEnd f) s = .next (takes f.imageA)) ∧
      (imageValid f.imageA = false → imageValid f.imageB = true → exec (.bootStageEnd f) s = .next (takes f.imageB)) ∧
      (imageValid f.imageA = false → imageValid f.imageB = false → exec (.bootStageEnd f) s = .next (fails .badDescriptor))) ∧
    (run → (x.stage = 5 → ∃ u : State, exec (.bootStageEnd f) s = .next u ∧ u.power.stage = 6 ∧ (∀ l, l ∈ u.weltFailed ↔ l ∈ s.net.weltFailing ∨ l ∈ f.lanes) ∧ u.net.weltFailing = [] ∧ (∀ d < 16, u.domain d = .on) ∧ u.mem = s.mem ∧ u.tiles = s.tiles) ∧
      (x.stage = 6 → ∃ u : State, exec (.bootStageEnd f) s = .next u ∧ ((∀ e ∈ f.eyelets, e < 584) → u.power.stage = 7 ∧ u.power.bootState = 0 ∧ u.test.badLinks = []) ∧ (∀ d < 16, u.domain d = .off) ∧
        ((∃ e ∈ f.eyelets, 584 ≤ e) → u.power.bootState = 2 ∧ u.power.bootFail = Status.code .targetIsolated) ∧ (∀ t, t ∈ u.selfTestFail ↔ t < 4096 ∧ (t ∈ f.tiles ∨ ∃ e ∈ f.eyelets, e < 584 ∧ belowEyelet e t = true)) ∧
        (∀ l, l ∈ u.net.failedLinks ↔ l ∈ s.part.fusedLinks ∨ (l.c, l.y, l.x, l.port) ∈ f.links ∨ l ∈ s.test.badLinks ∨
          ∃ r, (r ∈ s.part.fusedRouters ∨ r ∈ f.routers) ∧ l ∈ linksAt r.1 r.2.1 r.2.2) ∧
        (∀ sl ∈ f.slices, sl < 512 → u.shimActive (sliceNode sl) = true) ∧ u.mem = s.mem) ∧
      (x.stage = 7 → exec (.bootStageEnd f) s = .next { s with power := { x with stage := 8 } }) ∧
      (x.stage = 8 → ∃ u : State, exec (.bootStageEnd f) s = .next u ∧ u.power.stage = (if x.coldBoot then 9 else 10) ∧ u.domain 16 = .on ∧ u.domain 17 = .on ∧
        (∀ k, k ∈ u.hbmFailed ↔ k ∈ f.failedStacks ∧ k < 8) ∧ (∀ k ∈ f.failedStacks, k < 8 → ∀ q < 4, u.shimActive (hbmNode (4 * k + q)) = true) ∧ u.mem = s.mem ∧ u.tiles = s.tiles) ∧
      (x.stage = 9 → ∃ u : State, exec (.bootStageEnd f) s = .next u ∧ u.power.stage = 10 ∧ (∀ a < hbmBytes s, memByte u.mem.cells a = 0) ∧ (∀ a, hbmBytes s ≤ a → memByte u.mem.cells a = memByte s.mem.cells a) ∧
        u.tiles = s.tiles ∧ u.dict = s.dict) ∧
      (x.stage = 10 → exec (.bootStageEnd f) s = .next { s with power := { x with stage := 11 } }) ∧
      (x.stage = 11 → exec (.bootStageEnd f) s = .next { s with host := { s.host with ready := !s.host.perstLow }, power := { x with stage := 12 } }) ∧
      (x.stage = 12 → ∃ u : State, exec (.bootStageEnd f) s = .next u ∧ u.power.stage = 13 ∧ (∀ n < 8, s.portEnabled n = true → u.domain 18 = .on ∧ ((s.port n).link = .down → (u.port n).link = .training)) ∧
        u.mem = s.mem ∧ u.tiles = s.tiles) ∧
      (x.stage = 13 → exec (.bootStageEnd f) s = .next { s with shelf := { s.shelf with ready := true }, power := { x with stage := 0xFF, bootState := 1 } }))) ∧
  (∀ (s : State) (c : ClusterId),
    let mine := ∃ p, s.partOfCluster c.val = some p ∧ (s.partition p).state = .ready
    let quiet := ∀ i < 64, (s.target (sliceNode (64 * c.val + i))).intake = []
    let anyPort := ∃ n < 8, s.portEnabled n = true
    (mine → s.domain c.val = .on → s.computeIdle c.val = true → ∃ u : State, exec (.computeDomainIdle c) s = .next u ∧ u.domain c.val = .off ∧ (∀ d, d ≠ c.val → u.domain d = s.domain d) ∧ u.mem = s.mem ∧ u.tiles = s.tiles ∧
      u.seqs = s.seqs ∧ u.net = s.net ∧ u.lacing = s.lacing ∧ ∀ e ∈ u.scrubs, domainOf e.1 = some c.val → e.2.slept = true) ∧
    (¬ mine ∨ s.domain c.val ≠ .on ∨ s.computeIdle c.val = false → exec (.computeDomainIdle c) s = .next s) ∧
    (∀ t : TileId, t.val / 512 = c.val → s.computeIdle c.val = true → (s.tile t).task = none ∧ (s.tile t).xfers = []) ∧
    (mine → s.domain (8 + c.val) = .on → quiet → (s.porch (8 + c.val)).packets = [] → ∃ u : State, exec (.sliceRetain c) s = .next u ∧ u.domain (8 + c.val) = .retain ∧
      (∀ d, d ≠ 8 + c.val → u.domain d = s.domain d) ∧ u.mem = s.mem ∧ u.tiles = s.tiles ∧ u.seqs = s.seqs ∧ u.net = s.net ∧ ∀ e ∈ u.scrubs, domainOf e.1 = some (8 + c.val) → e.2.slept = true) ∧
    (¬ mine ∨ s.domain (8 + c.val) ≠ .on ∨ ¬ quiet ∨ (s.porch (8 + c.val)).packets ≠ [] → exec (.sliceRetain c) s = .next s) ∧
    (s.domain 18 = .on → ¬ anyPort → (s.porch 18).packets = [] → ∃ u : State, exec .newenDomainOff s = .next u ∧ u.domain 18 = .off ∧ (∀ n < 8, (u.port n).link = .down) ∧ u.mem = s.mem ∧ u.dict = s.dict) ∧
    (s.domain 18 ≠ .on ∨ anyPort ∨ (s.porch 18).packets ≠ [] → exec .newenDomainOff s = .next s) ∧
    (s.domain 19 = .off → exec (.almanacReceiverCheck true) s = .next (s.setDomain 19 .waking) ∧ exec (.almanacReceiverCheck false) s = .next s) ∧
    (s.domain 19 ≠ .off → exec (.almanacReceiverCheck true) s = .next s) ∧
    (s.domain 19 = .on → s.almanac.streams = [] → s.almanac.test = false → ∃ u : State, exec (.almanacReceiverCheck false) s = .next u ∧ u.domain 19 = .off ∧ u.almanac.counts = s.almanac.counts ∧ u.mem = s.mem ∧ u.tiles = s.tiles) ∧
    (s.domain 19 ≠ .on ∨ s.almanac.streams ≠ [] ∨ s.almanac.test = true → exec (.almanacReceiverCheck false) s = .next s))

/-- R482, R544, R560, R562 to R564, R567, R568, R570, R572: tests and the test access port. -/
def Obligations.TestsAndTheTestPortFollowTheirRules : Prop :=
  (∀ (r : Requester) (v : Nat) (s : State), s.writePasses (.lbStart r v) → let x := s.testSet
    (s.test.state = 1 → exec (.lbStart r v) s = .next (s.written .busyStopClass)) ∧
    (s.test.state ≠ 1 → s.testListed x = false → exec (.lbStart r v) s = .next (s.written .badValue)) ∧
    (s.test.state ≠ 1 → s.testListed x = true → s.testHolds x = false → exec (.lbStart r v) s = .next (State.written { s with test := { s.test with
      state := 3, start := s.calends, locked := none, result := (0, 0, 0, Status.code .busyStopClass), powered := [], speed := s.host.linkSpeed } } .ok)) ∧
    (s.test.state ≠ 1 → s.testListed x = true → s.testHolds x = true → ¬ (x.target = 0 ∧ x.depth = 4 ∧ s.host.linkState ≠ 2) → ∃ u : State, exec (.lbStart r v) s = .next u ∧ u.test.state = 1 ∧
      u.test.start = s.calends ∧ u.test.locked = none ∧ u.test.result = (0, 0, 0, 0) ∧ u.test.speed = s.host.linkSpeed ∧
      (u.test.frame, u.test.generator) = s.testFrame x (patternSeed x.pattern) ∧ u.test.pauses = 0 ∧ u.test.looping = (if x.target = 2 ∧ x.depth = 4 then some x.inst else none) ∧ u.dict.lastStatus = .ok ∧ (∀ d ∈ testDomains x, u.domain d = .on) ∧
      (∀ d, d ∈ u.test.powered ↔ d ∈ testDomains x ∧ s.domain d ≠ .on) ∧ (x.target = 5 → u.almanac.test = true) ∧ (x.target = 0 → 2 ≤ x.depth → u.host.linkState = 0) ∧ (x.target ≠ 0 → u.mem = s.mem ∧ u.tiles = s.tiles))) ∧
  (∀ (s : State) (f : TestFound), let x := s.testSet
    let silent := (x.target = 1 ∧ 8 ≤ x.inst) ∨ (x.target = 5 ∧ x.depth = 4)
    let serial := x.target = 0 ∨ x.target = 1 ∨ x.target = 3 ∨ x.target = 4 ∨ x.target = 5
    let limit := if x.depth = 4 then (if x.target = 1 ∨ (x.target = 0 ∧ s.test.speed = 6) then f.compared / 10 ^ 6 else f.compared / 10 ^ 12)
      else if x.depth = 3 ∧ serial then f.compared / 10 ^ 12 else 0
    let ends := fun (u : State) => u.test.locked = none ∧ u.test.frame = none ∧ u.test.looping = none ∧ u.test.powered = [] ∧ u.almanac.test = false ∧ u.dict = s.dict ∧ (∀ d ∈ s.test.powered, d < 16 → u.domain d = .off) ∧
      (x.target = 9 → x.inst < 8 → ∀ b < 64 * sliceBytes, memByte u.mem.cells (sliceAddr (64 * x.inst) 0 + b) = 0) ∧
      (x.target = 9 → 8 ≤ x.inst → x.inst < 16 → ∀ b < 512 * 0x20000, memByte u.mem.cells (tileAddr (512 * (x.inst - 8)) 0 + b) = 0) ∧ (x.target ≠ 9 → u.mem = s.mem)
    let idle := s.test.state = 1 → s.test.locked.isSome = true
    (s.test.state = 1 → s.test.locked = none → ¬ silent → exec .lbLock s = .next { s with test := { s.test with
        locked := some s.calends, generator := if s.test.frame.isSome = true then s.test.generator else (patternTake x.pattern 64 s.test.generator).2 } } ∧
      ∃ u : State, exec .lbLockTimeout s = .next u ∧ u.test.state = 3 ∧ u.test.result = (0, 0, 0, Status.code (if x.depth = 4 then .linkDown else .timeout)) ∧ ends u) ∧
    (idle ∨ silent → exec .lbLock s = .next s ∧ exec .lbLockTimeout s = .next s) ∧
    (s.test.state ≠ 1 ∨ (¬ silent ∧ s.test.locked = none) → exec (.lbDurationEnd f) s = .next s) ∧
    (s.test.state = 1 → silent → ∃ u : State, exec (.lbDurationEnd f) s = .next u ∧ u.test.state = 2 ∧ u.test.result = (f.compared % 2 ^ 64, 0, 0, 0) ∧ ends u) ∧
    (s.test.state = 1 → ¬ silent → s.test.locked.isSome = true → ∃ u : State, exec (.lbDurationEnd f) s = .next u ∧ ends u ∧
      (x.target = 9 → f.complete = false → u.test.state = 3 ∧ u.test.result = (f.compared % 2 ^ 64, f.errors % 2 ^ 64, f.first % 2 ^ 64, Status.code .timeout)) ∧
      (x.target = 6 → s.idleLanes x.inst = [] → u.test.state = 2 ∧ u.test.result = (0, 0, 0, 0)) ∧
      ((x.target ≠ 9 ∨ f.complete = true) → (x.target ≠ 6 ∨ s.idleLanes x.inst ≠ []) → u.test.state = (if f.errors ≤ limit then 2 else 3) ∧
        u.test.result = (f.compared % 2 ^ 64, f.errors % 2 ^ 64, (if f.errors = 0 then 0 else f.first % 2 ^ 64), 0)) ∧
      (x.target = 6 → ∀ l ∈ f.lanes, l ∈ s.idleLanes x.inst → (x.inst, l) ∈ u.net.weltFailing) ∧ (x.target ≠ 6 → u.net = s.net) ∧
      (x.target = 8 → ∀ l ∈ f.links, (⟨l.1, l.2.1, l.2.2.1, l.2.2.2⟩ : LinkId) ∈ u.test.badLinks) ∧ (x.target ≠ 8 → u.test.badLinks = s.test.badLinks))) ∧
  (∀ (pattern n : Nat), let v := (patternTake pattern n (patternSeed pattern)).1
    (∀ e ∈ [(0, 7, 6), (1, 15, 14), (2, 31, 28)], pattern = e.1 → ∀ i < n, v.testBit i = (if i < e.2.1 then true else xor (v.testBit (i - e.2.1)) (v.testBit (i - e.2.2)))) ∧
    (pattern = 3 → ∀ i < n, v.testBit i = Nat.testBit 0xF00FCC33AA55FF00 (i % 64))) ∧
  (∀ (s : State) (x : TestSet) (g : Nat), let d := fun (n : Nat) => (patternTake x.pattern (8 * n) g).1
    let id := BitVec.ofNat 29 (0x1F7FFF00 + s.dict.canNode)
    (x.target = 3 → (s.testFrame x g).1 = some (if s.obj 0x1100 2 0 = 1 then .can false id 8 (d 8) else .can true id 64 (d 64))) ∧
    (x.target = 4 → x.depth ≠ 3 → (s.testFrame x g).1 = some (.eth Config.macAddress Config.macAddress 0x88B5 1500 (d 1500))) ∧
    (x.target = 0 → x.depth = 1 → (s.testFrame x g).1 = some (.tlp 256 (d 256)))) ∧
  (∀ s : State,
    exec (.trstN true) s = .next { s with tap := { s.tap with trstLow := true, code := 1 } } ∧ exec (.trstN false) s = .next { s with tap := { s.tap with trstLow := false } } ∧
    (∀ e ∈ ([(.bypass, 0xFF#8), (.idcode, 1), (.clamp, 4), (.highz, 5)] : List (Instr × BitVec 8)),
      (s.tap.trstLow = true → exec e.1 s = .next s) ∧
      (s.tap.trstLow = false → ∃ u : State, exec e.1 s = .next u ∧ u = { s with tap := { s.tap with code := e.2 } } ∧
        (e.2 = 1 ∨ (s.power.bootSel = 3 ∧ s.power.porHeld = false) → u.tapSelects = e.2) ∧
        (e.2 ≠ 1 → s.power.bootSel ≠ 3 ∨ s.power.porHeld = true → u.tapSelects = 0xFF#8))) ∧
    (∀ e ∈ ([(.samplePreload, 2#8), (.extest, 3), (.extestPulse, 6), (.extestTrain, 7)] : List (Instr × BitVec 8)),
      let listed := e.2 = 2 ∨ (s.power.bootSel = 3 ∧ s.power.porHeld = false)
      let x := s.scanIn
      (s.tap.trstLow = true → exec e.1 s = .next s) ∧
      (s.tap.trstLow = false → listed → ∃ u : State, exec e.1 s = .next u ∧ u = { s with tap := { s.tap with code := e.2, cells := x.shifted, captured := s.capture x }, free := s.free + 2 } ∧ u.tapSelects = e.2 ∧
        (e.2 = 3 → ∀ p, ScanPin.driven p = true → p ≠ .thermtripN → u.pin p = (if p ∈ x.shifted then .high else .low))) ∧
      (s.tap.trstLow = false → ¬ listed → ∃ u : State, exec e.1 s = .next u ∧ u = { s with tap := { s.tap with code := e.2 } } ∧ u.tapSelects = 0xFF#8)) ∧
    (∀ x : Scan, (.porN ∈ s.capture x ↔ s.power.porLow = false) ∧ (.resetN ∈ s.capture x ↔ s.power.resetLow = false) ∧ (.perstN ∈ s.capture x ↔ s.host.perstLow = false) ∧
      ∀ p, p ≠ .porN → p ≠ .resetN → p ≠ .perstN → (p ∈ s.capture x ↔ s.pin p = .high ∨ (s.pin p ≠ .low ∧ p ∈ x.seen))) ∧
    (s.tapSelects = 5 → ∀ p, s.pin p = .highZ) ∧ s.tdo = .highZ ∧
    (s.tapSelects.toNat ∉ [3, 4, 5, 6, 7] →
      s.pin .canStby = (if s.power.opened = true ∧ s.obj 0x1100 1 1 = 1 then .low else .high) ∧ s.pin .ethPhyRstN = (if s.power.opened = true then .high else .low) ∧
      (s.power.opened = false → s.pin .canTxd = .high ∧ s.pin .mdc = .low ∧ s.pin .mdio = .highZ) ∧
      (s.power.porHeld = true → s.pin .spiCsN = .high ∧ s.pin .spiClk = .low ∧ ∀ i, s.pin (.spiIo i) = .highZ) ∧
      (s.power.porHeld = false → s.power.bootSel = 2 → s.pin .spiCsN = .highZ ∧ s.pin .spiClk = .highZ ∧ ∀ i, s.pin (.spiIo i) = .highZ) ∧
      s.pin .thermtripN = (if s.power.thermTrip = true then .low else .highZ) ∧
      (s.power.porHeld = true → (∀ l, s.pin (.pcieTx l) = .idle) ∧ (∀ n l, s.pin (.newenTx n l) = .idle) ∧ ∀ l, s.pin (.almTx l) = .idle))) ∧
  idcode.toNat % 2 = 1 ∧ idcode.toNat / 2 % 2 ^ 11 = 0x3A5 ∧ idcode.toNat / 2 ^ 12 % 2 ^ 16 = 0x6B08 ∧ idcode.toNat / 2 ^ 28 = bitsAt Config.siliconRev.toNat 8 4

end
end

