-- ==== Sys2Proof/Laws/Sparse.lean ====
section
/-! SUPPORT. Laws of the sparse map: what is read after a write, writes to one key, and the canonical form. -/

namespace Sys2Proof.Machine

@[simp] theorem Sparse.get_nil {α : Type} (d : α) (k : Nat) : Sparse.get d [] k = d := rfl

theorem Sparse.get_insert_self {α : Type} (d : α) (m : Sparse α) (k : Nat) (v : α) (h : ∀ x ∈ m, x.1 ≠ k) :
    Sparse.get d (Sparse.insert m k v) k = v := by
  induction m with
  | nil => simp [Sparse.insert, Sparse.get]
  | cons x r ih =>
    obtain ⟨i, w⟩ := x
    have hi : i ≠ k := h (i, w) (by simp)
    simp only [Sparse.insert]
    split
    · simp [Sparse.get, hi, ih (fun y hy => h y (by simp [hy]))]
    · simp [Sparse.get]

theorem Sparse.get_insert_of_ne {α : Type} (d : α) (m : Sparse α) {k j : Nat} (v : α) (h : k ≠ j) :
    Sparse.get d (Sparse.insert m k v) j = Sparse.get d m j := by
  induction m with
  | nil => simp [Sparse.insert, Sparse.get, h]
  | cons x r ih =>
    obtain ⟨i, w⟩ := x
    simp only [Sparse.insert]
    split <;> simp [Sparse.get, ih, h]

theorem Sparse.get_erase_self {α : Type} (d : α) (m : Sparse α) (k : Nat) :
    Sparse.get d (m.filter (fun e => !(e.1 == k))) k = d := by
  induction m with
  | nil => rfl
  | cons x r ih =>
    obtain ⟨i, w⟩ := x
    by_cases hi : i = k <;> simp [Sparse.get, hi, ih]

theorem Sparse.get_erase_of_ne {α : Type} (d : α) (m : Sparse α) {k j : Nat} (h : k ≠ j) :
    Sparse.get d (m.filter (fun e => !(e.1 == k))) j = Sparse.get d m j := by
  induction m with
  | nil => rfl
  | cons x r ih =>
    obtain ⟨i, w⟩ := x
    by_cases hi : i = k
    · subst hi; simp [Sparse.get, h, ih]
    · simp [Sparse.get, hi, ih]

/-- Whatever is written is read back. -/
@[simp] theorem Sparse.get_set_self {α : Type} [DecidableEq α] (d : α) (m : Sparse α) (k : Nat) (v : α) :
    Sparse.get d (Sparse.set d m k v) k = v := by
  unfold Sparse.set
  by_cases hv : v = d
  · subst hv; simp only [if_true]; exact Sparse.get_erase_self _ _ _
  · simp only [if_neg hv]
    exact Sparse.get_insert_self _ _ _ _ (fun x hx => by simpa using (List.mem_filter.1 hx).2)

/-- A write leaves every other key as it was. -/
@[simp] theorem Sparse.get_set_of_ne {α : Type} [DecidableEq α] (d : α) (m : Sparse α) {k j : Nat} (v : α) (h : k ≠ j) :
    Sparse.get d (Sparse.set d m k v) j = Sparse.get d m j := by
  unfold Sparse.set
  by_cases hv : v = d
  · simp only [if_pos hv]; exact Sparse.get_erase_of_ne _ _ h
  · simp only [if_neg hv]; rw [Sparse.get_insert_of_ne _ _ _ h]; exact Sparse.get_erase_of_ne _ _ h

/-- What every key reads as after a write. -/
theorem Sparse.get_set {α : Type} [DecidableEq α] (d : α) (m : Sparse α) (k : Nat) (v : α) (j : Nat) :
    Sparse.get d (Sparse.set d m k v) j = if k = j then v else Sparse.get d m j := by
  by_cases h : k = j
  · subst h; simp
  · simp [h]

theorem Sparse.erase_insert {α : Type} (m : Sparse α) (k : Nat) (v : α) :
    (Sparse.insert m k v).filter (fun e => !(e.1 == k)) = m.filter (fun e => !(e.1 == k)) := by
  induction m with
  | nil => simp [Sparse.insert]
  | cons x r ih =>
    obtain ⟨i, w⟩ := x
    simp only [Sparse.insert]
    split
    · simp only [List.filter_cons, ih]
    · simp [List.filter_cons]

/-- Of two writes of one key the second stands. -/
@[simp] theorem Sparse.set_set {α : Type} [DecidableEq α] (d : α) (m : Sparse α) (k : Nat) (v w : α) :
    Sparse.set d (Sparse.set d m k v) k w = Sparse.set d m k w := by
  have e : (Sparse.set d m k v).filter (fun e => !(e.1 == k)) = m.filter (fun e => !(e.1 == k)) := by
    unfold Sparse.set
    by_cases hv : v = d
    · simp [hv]
    · simp only [if_neg hv, Sparse.erase_insert]; simp
  rw [Sparse.set, e, Sparse.set]

theorem Sparse.mem_insert {α : Type} {m : Sparse α} {k : Nat} {v : α} {x : Nat × α} (h : x ∈ Sparse.insert m k v) :
    x ∈ m ∨ x = (k, v) := by
  induction m with
  | nil => simpa [Sparse.insert] using h
  | cons y r ih =>
    obtain ⟨i, u⟩ := y
    simp only [Sparse.insert] at h
    split at h
    · rcases List.mem_cons.1 h with h | h
      · simp [h]
      · rcases ih h with h | h <;> simp [h]
    · rcases List.mem_cons.1 h with h | h <;> simp [h]

theorem Sparse.mem_set {α : Type} [DecidableEq α] (d : α) {m : Sparse α} {k : Nat} {v : α} {x : Nat × α} (h : x ∈ Sparse.set d m k v) :
    x ∈ m ∨ (x = (k, v) ∧ v ≠ d) := by
  unfold Sparse.set at h
  by_cases hv : v = d
  · simp only [if_pos hv] at h; exact .inl (List.mem_filter.1 h).1
  · simp only [if_neg hv] at h
    rcases Sparse.mem_insert h with h | h
    · exact .inl (List.mem_filter.1 h).1
    · exact .inr ⟨h, hv⟩

theorem Sparse.pairwise_insert {α : Type} {m : Sparse α} (h : m.Pairwise (fun x y => x.1 < y.1)) {k : Nat} (hk : ∀ x ∈ m, x.1 ≠ k)
    (v : α) : (Sparse.insert m k v).Pairwise (fun x y => x.1 < y.1) := by
  induction m with
  | nil => simp [Sparse.insert]
  | cons y r ih =>
    obtain ⟨i, u⟩ := y
    obtain ⟨h1, h2⟩ := List.pairwise_cons.1 h
    have hi : i ≠ k := hk (i, u) (by simp)
    simp only [Sparse.insert]
    split
    · rename_i hlt
      refine List.pairwise_cons.2 ⟨fun z hz => ?_, ih h2 (fun z hz => hk z (by simp [hz]))⟩
      rcases Sparse.mem_insert hz with hz | hz
      · exact h1 z hz
      · subst hz; exact hlt
    · rename_i hlt
      refine List.pairwise_cons.2 ⟨fun z hz => ?_, h⟩
      rcases List.mem_cons.1 hz with hz | hz
      · subst hz; exact (by omega : k < i)
      · exact Nat.lt_trans (by omega : k < i) (h1 z hz)

/-- A write keeps the canonical form. -/
theorem Sparse.wf_set {α : Type} [DecidableEq α] (d : α) {m : Sparse α} (h : Sparse.wf d m) (k : Nat) (v : α) : Sparse.wf d (Sparse.set d m k v) := by
  refine ⟨?_, fun x hx => ?_⟩
  · unfold Sparse.set
    have hf := h.1.filter (fun e => !(e.1 == k))
    by_cases hv : v = d
    · simp only [if_pos hv]; exact hf
    · simp only [if_neg hv]
      exact Sparse.pairwise_insert hf (fun x hx => by simpa using (List.mem_filter.1 hx).2) v
  · rcases Sparse.mem_set d hx with hx | hx
    · exact h.2 x hx
    · rw [hx.1]; exact hx.2

/-- Entries left out keep the canonical form. -/
theorem Sparse.wf_filter {α : Type} [DecidableEq α] (d : α) {m : Sparse α} (h : Sparse.wf d m) (p : Nat × α → Bool) : Sparse.wf d (m.filter p) :=
  ⟨h.1.filter p, fun x hx => h.2 x (List.mem_filter.1 hx).1⟩

theorem Sparse.wf_nil {α : Type} [DecidableEq α] (d : α) : Sparse.wf d ([] : Sparse α) := ⟨List.Pairwise.nil, fun _ h => absurd h List.not_mem_nil⟩

end Sys2Proof.Machine
end

