-- ==== Sys2Proof/Laws/State.lean ====
section
/-! SUPPORT. What each update of the state, and of a tile, leaves as it was: one lemma per field and update; and what a unit
reads as after it was replaced. -/

namespace Sys2Proof.Machine

/-! ### Updates of the state -/

@[simp] theorem State.setTile_pending (s : State) (t : TileId) (x : Tile) : (s.setTile t x).pending = s.pending := rfl
@[simp] theorem State.setTile_calends (s : State) (t : TileId) (x : Tile) : (s.setTile t x).calends = s.calends := rfl
@[simp] theorem State.setTile_countersFrom (s : State) (t : TileId) (x : Tile) : (s.setTile t x).countersFrom = s.countersFrom := rfl
@[simp] theorem State.setTile_free (s : State) (t : TileId) (x : Tile) : (s.setTile t x).free = s.free := rfl
@[simp] theorem State.setTile_part (s : State) (t : TileId) (x : Tile) : (s.setTile t x).part = s.part := rfl
@[simp] theorem State.setTile_mem (s : State) (t : TileId) (x : Tile) : (s.setTile t x).mem = s.mem := rfl
@[simp] theorem State.setTile_seqs (s : State) (t : TileId) (x : Tile) : (s.setTile t x).seqs = s.seqs := rfl
@[simp] theorem State.setTile_lacing (s : State) (t : TileId) (x : Tile) : (s.setTile t x).lacing = s.lacing := rfl
@[simp] theorem State.setTile_net (s : State) (t : TileId) (x : Tile) : (s.setTile t x).net = s.net := rfl
@[simp] theorem State.setTile_dict (s : State) (t : TileId) (x : Tile) : (s.setTile t x).dict = s.dict := rfl
@[simp] theorem State.setTile_light (s : State) (t : TileId) (x : Tile) : (s.setTile t x).light = s.light := rfl
@[simp] theorem State.setTile_rings (s : State) (t : TileId) (x : Tile) : (s.setTile t x).rings = s.rings := rfl
@[simp] theorem State.setTile_parts (s : State) (t : TileId) (x : Tile) : (s.setTile t x).parts = s.parts := rfl
@[simp] theorem State.setTile_selfTestFail (s : State) (t : TileId) (x : Tile) : (s.setTile t x).selfTestFail = s.selfTestFail := rfl
@[simp] theorem State.setTile_disabledTiles (s : State) (t : TileId) (x : Tile) : (s.setTile t x).disabledTiles = s.disabledTiles := rfl
@[simp] theorem State.setTile_weltFailed (s : State) (t : TileId) (x : Tile) : (s.setTile t x).weltFailed = s.weltFailed := rfl
@[simp] theorem State.setTile_hbmCounts (s : State) (t : TileId) (x : Tile) : (s.setTile t x).hbmCounts = s.hbmCounts := rfl
@[simp] theorem State.setTile_hbm (s : State) (t : TileId) (x : Tile) : (s.setTile t x).hbm = s.hbm := rfl
@[simp] theorem State.setTile_hbmFailed (s : State) (t : TileId) (x : Tile) : (s.setTile t x).hbmFailed = s.hbmFailed := rfl
@[simp] theorem State.setTile_hbmTemp (s : State) (t : TileId) (x : Tile) : (s.setTile t x).hbmTemp = s.hbmTemp := rfl
@[simp] theorem State.setTile_scrubs (s : State) (t : TileId) (x : Tile) : (s.setTile t x).scrubs = s.scrubs := rfl
@[simp] theorem State.setTile_memEcc (s : State) (t : TileId) (x : Tile) : (s.setTile t x).memEcc = s.memEcc := rfl
@[simp] theorem State.setTile_engines (s : State) (t : TileId) (x : Tile) : (s.setTile t x).engines = s.engines := rfl
@[simp] theorem State.setTile_copyWait (s : State) (t : TileId) (x : Tile) : (s.setTile t x).copyWait = s.copyWait := rfl
@[simp] theorem State.setTile_serial (s : State) (t : TileId) (x : Tile) : (s.setTile t x).serial = s.serial := rfl
@[simp] theorem State.setTile_host (s : State) (t : TileId) (x : Tile) : (s.setTile t x).host = s.host := rfl
@[simp] theorem State.setTile_newen (s : State) (t : TileId) (x : Tile) : (s.setTile t x).newen = s.newen := rfl
@[simp] theorem State.setTile_loads (s : State) (t : TileId) (x : Tile) : (s.setTile t x).loads = s.loads := rfl
@[simp] theorem State.setTile_shelf (s : State) (t : TileId) (x : Tile) : (s.setTile t x).shelf = s.shelf := rfl
@[simp] theorem State.setTile_power (s : State) (t : TileId) (x : Tile) : (s.setTile t x).power = s.power := rfl
@[simp] theorem State.setTile_vigil (s : State) (t : TileId) (x : Tile) : (s.setTile t x).vigil = s.vigil := rfl
@[simp] theorem State.setTile_almanac (s : State) (t : TileId) (x : Tile) : (s.setTile t x).almanac = s.almanac := rfl
@[simp] theorem State.setTile_test (s : State) (t : TileId) (x : Tile) : (s.setTile t x).test = s.test := rfl
@[simp] theorem State.setTile_tap (s : State) (t : TileId) (x : Tile) : (s.setTile t x).tap = s.tap := rfl
@[simp] theorem State.setTile_engineCounts (s : State) (t : TileId) (x : Tile) : (s.setTile t x).engineCounts = s.engineCounts := rfl

@[simp] theorem State.setSeq_pending (s : State) (c : Nat) (x : Sequencer) : (s.setSeq c x).pending = s.pending := rfl
@[simp] theorem State.setSeq_calends (s : State) (c : Nat) (x : Sequencer) : (s.setSeq c x).calends = s.calends := rfl
@[simp] theorem State.setSeq_countersFrom (s : State) (c : Nat) (x : Sequencer) : (s.setSeq c x).countersFrom = s.countersFrom := rfl
@[simp] theorem State.setSeq_free (s : State) (c : Nat) (x : Sequencer) : (s.setSeq c x).free = s.free := rfl
@[simp] theorem State.setSeq_part (s : State) (c : Nat) (x : Sequencer) : (s.setSeq c x).part = s.part := rfl
@[simp] theorem State.setSeq_mem (s : State) (c : Nat) (x : Sequencer) : (s.setSeq c x).mem = s.mem := rfl
@[simp] theorem State.setSeq_tiles (s : State) (c : Nat) (x : Sequencer) : (s.setSeq c x).tiles = s.tiles := rfl
@[simp] theorem State.setSeq_lacing (s : State) (c : Nat) (x : Sequencer) : (s.setSeq c x).lacing = s.lacing := rfl
@[simp] theorem State.setSeq_net (s : State) (c : Nat) (x : Sequencer) : (s.setSeq c x).net = s.net := rfl
@[simp] theorem State.setSeq_dict (s : State) (c : Nat) (x : Sequencer) : (s.setSeq c x).dict = s.dict := rfl
@[simp] theorem State.setSeq_light (s : State) (c : Nat) (x : Sequencer) : (s.setSeq c x).light = s.light := rfl
@[simp] theorem State.setSeq_rings (s : State) (c : Nat) (x : Sequencer) : (s.setSeq c x).rings = s.rings := rfl
@[simp] theorem State.setSeq_parts (s : State) (c : Nat) (x : Sequencer) : (s.setSeq c x).parts = s.parts := rfl
@[simp] theorem State.setSeq_selfTestFail (s : State) (c : Nat) (x : Sequencer) : (s.setSeq c x).selfTestFail = s.selfTestFail := rfl
@[simp] theorem State.setSeq_disabledTiles (s : State) (c : Nat) (x : Sequencer) : (s.setSeq c x).disabledTiles = s.disabledTiles := rfl
@[simp] theorem State.setSeq_weltFailed (s : State) (c : Nat) (x : Sequencer) : (s.setSeq c x).weltFailed = s.weltFailed := rfl
@[simp] theorem State.setSeq_hbmCounts (s : State) (c : Nat) (x : Sequencer) : (s.setSeq c x).hbmCounts = s.hbmCounts := rfl
@[simp] theorem State.setSeq_hbm (s : State) (c : Nat) (x : Sequencer) : (s.setSeq c x).hbm = s.hbm := rfl
@[simp] theorem State.setSeq_hbmFailed (s : State) (c : Nat) (x : Sequencer) : (s.setSeq c x).hbmFailed = s.hbmFailed := rfl
@[simp] theorem State.setSeq_hbmTemp (s : State) (c : Nat) (x : Sequencer) : (s.setSeq c x).hbmTemp = s.hbmTemp := rfl
@[simp] theorem State.setSeq_scrubs (s : State) (c : Nat) (x : Sequencer) : (s.setSeq c x).scrubs = s.scrubs := rfl
@[simp] theorem State.setSeq_memEcc (s : State) (c : Nat) (x : Sequencer) : (s.setSeq c x).memEcc = s.memEcc := rfl
@[simp] theorem State.setSeq_engines (s : State) (c : Nat) (x : Sequencer) : (s.setSeq c x).engines = s.engines := rfl
@[simp] theorem State.setSeq_copyWait (s : State) (c : Nat) (x : Sequencer) : (s.setSeq c x).copyWait = s.copyWait := rfl
@[simp] theorem State.setSeq_serial (s : State) (c : Nat) (x : Sequencer) : (s.setSeq c x).serial = s.serial := rfl
@[simp] theorem State.setSeq_host (s : State) (c : Nat) (x : Sequencer) : (s.setSeq c x).host = s.host := rfl
@[simp] theorem State.setSeq_newen (s : State) (c : Nat) (x : Sequencer) : (s.setSeq c x).newen = s.newen := rfl
@[simp] theorem State.setSeq_loads (s : State) (c : Nat) (x : Sequencer) : (s.setSeq c x).loads = s.loads := rfl
@[simp] theorem State.setSeq_shelf (s : State) (c : Nat) (x : Sequencer) : (s.setSeq c x).shelf = s.shelf := rfl
@[simp] theorem State.setSeq_power (s : State) (c : Nat) (x : Sequencer) : (s.setSeq c x).power = s.power := rfl
@[simp] theorem State.setSeq_vigil (s : State) (c : Nat) (x : Sequencer) : (s.setSeq c x).vigil = s.vigil := rfl
@[simp] theorem State.setSeq_almanac (s : State) (c : Nat) (x : Sequencer) : (s.setSeq c x).almanac = s.almanac := rfl
@[simp] theorem State.setSeq_test (s : State) (c : Nat) (x : Sequencer) : (s.setSeq c x).test = s.test := rfl
@[simp] theorem State.setSeq_tap (s : State) (c : Nat) (x : Sequencer) : (s.setSeq c x).tap = s.tap := rfl
@[simp] theorem State.setSeq_engineCounts (s : State) (c : Nat) (x : Sequencer) : (s.setSeq c x).engineCounts = s.engineCounts := rfl

@[simp] theorem State.setPartition_pending (s : State) (p : Nat) (x : Partition) : (s.setPartition p x).pending = s.pending := rfl
@[simp] theorem State.setPartition_calends (s : State) (p : Nat) (x : Partition) : (s.setPartition p x).calends = s.calends := rfl
@[simp] theorem State.setPartition_countersFrom (s : State) (p : Nat) (x : Partition) : (s.setPartition p x).countersFrom = s.countersFrom := rfl
@[simp] theorem State.setPartition_free (s : State) (p : Nat) (x : Partition) : (s.setPartition p x).free = s.free := rfl
@[simp] theorem State.setPartition_part (s : State) (p : Nat) (x : Partition) : (s.setPartition p x).part = s.part := rfl
@[simp] theorem State.setPartition_mem (s : State) (p : Nat) (x : Partition) : (s.setPartition p x).mem = s.mem := rfl
@[simp] theorem State.setPartition_tiles (s : State) (p : Nat) (x : Partition) : (s.setPartition p x).tiles = s.tiles := rfl
@[simp] theorem State.setPartition_seqs (s : State) (p : Nat) (x : Partition) : (s.setPartition p x).seqs = s.seqs := rfl
@[simp] theorem State.setPartition_lacing (s : State) (p : Nat) (x : Partition) : (s.setPartition p x).lacing = s.lacing := rfl
@[simp] theorem State.setPartition_net (s : State) (p : Nat) (x : Partition) : (s.setPartition p x).net = s.net := rfl
@[simp] theorem State.setPartition_dict (s : State) (p : Nat) (x : Partition) : (s.setPartition p x).dict = s.dict := rfl
@[simp] theorem State.setPartition_light (s : State) (p : Nat) (x : Partition) : (s.setPartition p x).light = s.light := rfl
@[simp] theorem State.setPartition_rings (s : State) (p : Nat) (x : Partition) : (s.setPartition p x).rings = s.rings := rfl
@[simp] theorem State.setPartition_selfTestFail (s : State) (p : Nat) (x : Partition) : (s.setPartition p x).selfTestFail = s.selfTestFail := rfl
@[simp] theorem State.setPartition_disabledTiles (s : State) (p : Nat) (x : Partition) : (s.setPartition p x).disabledTiles = s.disabledTiles := rfl
@[simp] theorem State.setPartition_weltFailed (s : State) (p : Nat) (x : Partition) : (s.setPartition p x).weltFailed = s.weltFailed := rfl
@[simp] theorem State.setPartition_hbmCounts (s : State) (p : Nat) (x : Partition) : (s.setPartition p x).hbmCounts = s.hbmCounts := rfl
@[simp] theorem State.setPartition_hbm (s : State) (p : Nat) (x : Partition) : (s.setPartition p x).hbm = s.hbm := rfl
@[simp] theorem State.setPartition_hbmFailed (s : State) (p : Nat) (x : Partition) : (s.setPartition p x).hbmFailed = s.hbmFailed := rfl
@[simp] theorem State.setPartition_hbmTemp (s : State) (p : Nat) (x : Partition) : (s.setPartition p x).hbmTemp = s.hbmTemp := rfl
@[simp] theorem State.setPartition_scrubs (s : State) (p : Nat) (x : Partition) : (s.setPartition p x).scrubs = s.scrubs := rfl
@[simp] theorem State.setPartition_memEcc (s : State) (p : Nat) (x : Partition) : (s.setPartition p x).memEcc = s.memEcc := rfl
@[simp] theorem State.setPartition_engines (s : State) (p : Nat) (x : Partition) : (s.setPartition p x).engines = s.engines := rfl
@[simp] theorem State.setPartition_copyWait (s : State) (p : Nat) (x : Partition) : (s.setPartition p x).copyWait = s.copyWait := rfl
@[simp] theorem State.setPartition_serial (s : State) (p : Nat) (x : Partition) : (s.setPartition p x).serial = s.serial := rfl
@[simp] theorem State.setPartition_host (s : State) (p : Nat) (x : Partition) : (s.setPartition p x).host = s.host := rfl
@[simp] theorem State.setPartition_newen (s : State) (p : Nat) (x : Partition) : (s.setPartition p x).newen = s.newen := rfl
@[simp] theorem State.setPartition_loads (s : State) (p : Nat) (x : Partition) : (s.setPartition p x).loads = s.loads := rfl
@[simp] theorem State.setPartition_shelf (s : State) (p : Nat) (x : Partition) : (s.setPartition p x).shelf = s.shelf := rfl
@[simp] theorem State.setPartition_power (s : State) (p : Nat) (x : Partition) : (s.setPartition p x).power = s.power := rfl
@[simp] theorem State.setPartition_vigil (s : State) (p : Nat) (x : Partition) : (s.setPartition p x).vigil = s.vigil := rfl
@[simp] theorem State.setPartition_almanac (s : State) (p : Nat) (x : Partition) : (s.setPartition p x).almanac = s.almanac := rfl
@[simp] theorem State.setPartition_test (s : State) (p : Nat) (x : Partition) : (s.setPartition p x).test = s.test := rfl
@[simp] theorem State.setPartition_tap (s : State) (p : Nat) (x : Partition) : (s.setPartition p x).tap = s.tap := rfl
@[simp] theorem State.setPartition_engineCounts (s : State) (p : Nat) (x : Partition) : (s.setPartition p x).engineCounts = s.engineCounts := rfl

@[simp] theorem State.setInitiator_pending (s : State) (n : Nat) (x : Initiator) : (s.setInitiator n x).pending = s.pending := rfl
@[simp] theorem State.setInitiator_calends (s : State) (n : Nat) (x : Initiator) : (s.setInitiator n x).calends = s.calends := rfl
@[simp] theorem State.setInitiator_countersFrom (s : State) (n : Nat) (x : Initiator) : (s.setInitiator n x).countersFrom = s.countersFrom := rfl
@[simp] theorem State.setInitiator_free (s : State) (n : Nat) (x : Initiator) : (s.setInitiator n x).free = s.free := rfl
@[simp] theorem State.setInitiator_part (s : State) (n : Nat) (x : Initiator) : (s.setInitiator n x).part = s.part := rfl
@[simp] theorem State.setInitiator_mem (s : State) (n : Nat) (x : Initiator) : (s.setInitiator n x).mem = s.mem := rfl
@[simp] theorem State.setInitiator_tiles (s : State) (n : Nat) (x : Initiator) : (s.setInitiator n x).tiles = s.tiles := rfl
@[simp] theorem State.setInitiator_seqs (s : State) (n : Nat) (x : Initiator) : (s.setInitiator n x).seqs = s.seqs := rfl
@[simp] theorem State.setInitiator_lacing (s : State) (n : Nat) (x : Initiator) : (s.setInitiator n x).lacing = s.lacing := rfl
@[simp] theorem State.setInitiator_dict (s : State) (n : Nat) (x : Initiator) : (s.setInitiator n x).dict = s.dict := rfl
@[simp] theorem State.setInitiator_light (s : State) (n : Nat) (x : Initiator) : (s.setInitiator n x).light = s.light := rfl
@[simp] theorem State.setInitiator_rings (s : State) (n : Nat) (x : Initiator) : (s.setInitiator n x).rings = s.rings := rfl
@[simp] theorem State.setInitiator_parts (s : State) (n : Nat) (x : Initiator) : (s.setInitiator n x).parts = s.parts := rfl
@[simp] theorem State.setInitiator_selfTestFail (s : State) (n : Nat) (x : Initiator) : (s.setInitiator n x).selfTestFail = s.selfTestFail := rfl
@[simp] theorem State.setInitiator_disabledTiles (s : State) (n : Nat) (x : Initiator) : (s.setInitiator n x).disabledTiles = s.disabledTiles := rfl
@[simp] theorem State.setInitiator_weltFailed (s : State) (n : Nat) (x : Initiator) : (s.setInitiator n x).weltFailed = s.weltFailed := rfl
@[simp] theorem State.setInitiator_hbmCounts (s : State) (n : Nat) (x : Initiator) : (s.setInitiator n x).hbmCounts = s.hbmCounts := rfl
@[simp] theorem State.setInitiator_hbm (s : State) (n : Nat) (x : Initiator) : (s.setInitiator n x).hbm = s.hbm := rfl
@[simp] theorem State.setInitiator_hbmFailed (s : State) (n : Nat) (x : Initiator) : (s.setInitiator n x).hbmFailed = s.hbmFailed := rfl
@[simp] theorem State.setInitiator_hbmTemp (s : State) (n : Nat) (x : Initiator) : (s.setInitiator n x).hbmTemp = s.hbmTemp := rfl
@[simp] theorem State.setInitiator_scrubs (s : State) (n : Nat) (x : Initiator) : (s.setInitiator n x).scrubs = s.scrubs := rfl
@[simp] theorem State.setInitiator_memEcc (s : State) (n : Nat) (x : Initiator) : (s.setInitiator n x).memEcc = s.memEcc := rfl
@[simp] theorem State.setInitiator_engines (s : State) (n : Nat) (x : Initiator) : (s.setInitiator n x).engines = s.engines := rfl
@[simp] theorem State.setInitiator_copyWait (s : State) (n : Nat) (x : Initiator) : (s.setInitiator n x).copyWait = s.copyWait := rfl
@[simp] theorem State.setInitiator_serial (s : State) (n : Nat) (x : Initiator) : (s.setInitiator n x).serial = s.serial := rfl
@[simp] theorem State.setInitiator_host (s : State) (n : Nat) (x : Initiator) : (s.setInitiator n x).host = s.host := rfl
@[simp] theorem State.setInitiator_newen (s : State) (n : Nat) (x : Initiator) : (s.setInitiator n x).newen = s.newen := rfl
@[simp] theorem State.setInitiator_loads (s : State) (n : Nat) (x : Initiator) : (s.setInitiator n x).loads = s.loads := rfl
@[simp] theorem State.setInitiator_shelf (s : State) (n : Nat) (x : Initiator) : (s.setInitiator n x).shelf = s.shelf := rfl
@[simp] theorem State.setInitiator_power (s : State) (n : Nat) (x : Initiator) : (s.setInitiator n x).power = s.power := rfl
@[simp] theorem State.setInitiator_vigil (s : State) (n : Nat) (x : Initiator) : (s.setInitiator n x).vigil = s.vigil := rfl
@[simp] theorem State.setInitiator_almanac (s : State) (n : Nat) (x : Initiator) : (s.setInitiator n x).almanac = s.almanac := rfl
@[simp] theorem State.setInitiator_test (s : State) (n : Nat) (x : Initiator) : (s.setInitiator n x).test = s.test := rfl
@[simp] theorem State.setInitiator_tap (s : State) (n : Nat) (x : Initiator) : (s.setInitiator n x).tap = s.tap := rfl
@[simp] theorem State.setInitiator_engineCounts (s : State) (n : Nat) (x : Initiator) : (s.setInitiator n x).engineCounts = s.engineCounts := rfl

@[simp] theorem State.setTarget_pending (s : State) (n : Nat) (x : Target) : (s.setTarget n x).pending = s.pending := rfl
@[simp] theorem State.setTarget_calends (s : State) (n : Nat) (x : Target) : (s.setTarget n x).calends = s.calends := rfl
@[simp] theorem State.setTarget_countersFrom (s : State) (n : Nat) (x : Target) : (s.setTarget n x).countersFrom = s.countersFrom := rfl
@[simp] theorem State.setTarget_free (s : State) (n : Nat) (x : Target) : (s.setTarget n x).free = s.free := rfl
@[simp] theorem State.setTarget_part (s : State) (n : Nat) (x : Target) : (s.setTarget n x).part = s.part := rfl
@[simp] theorem State.setTarget_mem (s : State) (n : Nat) (x : Target) : (s.setTarget n x).mem = s.mem := rfl
@[simp] theorem State.setTarget_tiles (s : State) (n : Nat) (x : Target) : (s.setTarget n x).tiles = s.tiles := rfl
@[simp] theorem State.setTarget_seqs (s : State) (n : Nat) (x : Target) : (s.setTarget n x).seqs = s.seqs := rfl
@[simp] theorem State.setTarget_lacing (s : State) (n : Nat) (x : Target) : (s.setTarget n x).lacing = s.lacing := rfl
@[simp] theorem State.setTarget_dict (s : State) (n : Nat) (x : Target) : (s.setTarget n x).dict = s.dict := rfl
@[simp] theorem State.setTarget_light (s : State) (n : Nat) (x : Target) : (s.setTarget n x).light = s.light := rfl
@[simp] theorem State.setTarget_rings (s : State) (n : Nat) (x : Target) : (s.setTarget n x).rings = s.rings := rfl
@[simp] theorem State.setTarget_parts (s : State) (n : Nat) (x : Target) : (s.setTarget n x).parts = s.parts := rfl
@[simp] theorem State.setTarget_selfTestFail (s : State) (n : Nat) (x : Target) : (s.setTarget n x).selfTestFail = s.selfTestFail := rfl
@[simp] theorem State.setTarget_disabledTiles (s : State) (n : Nat) (x : Target) : (s.setTarget n x).disabledTiles = s.disabledTiles := rfl
@[simp] theorem State.setTarget_weltFailed (s : State) (n : Nat) (x : Target) : (s.setTarget n x).weltFailed = s.weltFailed := rfl
@[simp] theorem State.setTarget_hbmCounts (s : State) (n : Nat) (x : Target) : (s.setTarget n x).hbmCounts = s.hbmCounts := rfl
@[simp] theorem State.setTarget_hbm (s : State) (n : Nat) (x : Target) : (s.setTarget n x).hbm = s.hbm := rfl
@[simp] theorem State.setTarget_hbmFailed (s : State) (n : Nat) (x : Target) : (s.setTarget n x).hbmFailed = s.hbmFailed := rfl
@[simp] theorem State.setTarget_hbmTemp (s : State) (n : Nat) (x : Target) : (s.setTarget n x).hbmTemp = s.hbmTemp := rfl
@[simp] theorem State.setTarget_scrubs (s : State) (n : Nat) (x : Target) : (s.setTarget n x).scrubs = s.scrubs := rfl
@[simp] theorem State.setTarget_memEcc (s : State) (n : Nat) (x : Target) : (s.setTarget n x).memEcc = s.memEcc := rfl
@[simp] theorem State.setTarget_engines (s : State) (n : Nat) (x : Target) : (s.setTarget n x).engines = s.engines := rfl
@[simp] theorem State.setTarget_copyWait (s : State) (n : Nat) (x : Target) : (s.setTarget n x).copyWait = s.copyWait := rfl
@[simp] theorem State.setTarget_serial (s : State) (n : Nat) (x : Target) : (s.setTarget n x).serial = s.serial := rfl
@[simp] theorem State.setTarget_host (s : State) (n : Nat) (x : Target) : (s.setTarget n x).host = s.host := rfl
@[simp] theorem State.setTarget_newen (s : State) (n : Nat) (x : Target) : (s.setTarget n x).newen = s.newen := rfl
@[simp] theorem State.setTarget_loads (s : State) (n : Nat) (x : Target) : (s.setTarget n x).loads = s.loads := rfl
@[simp] theorem State.setTarget_shelf (s : State) (n : Nat) (x : Target) : (s.setTarget n x).shelf = s.shelf := rfl
@[simp] theorem State.setTarget_power (s : State) (n : Nat) (x : Target) : (s.setTarget n x).power = s.power := rfl
@[simp] theorem State.setTarget_vigil (s : State) (n : Nat) (x : Target) : (s.setTarget n x).vigil = s.vigil := rfl
@[simp] theorem State.setTarget_almanac (s : State) (n : Nat) (x : Target) : (s.setTarget n x).almanac = s.almanac := rfl
@[simp] theorem State.setTarget_test (s : State) (n : Nat) (x : Target) : (s.setTarget n x).test = s.test := rfl
@[simp] theorem State.setTarget_tap (s : State) (n : Nat) (x : Target) : (s.setTarget n x).tap = s.tap := rfl
@[simp] theorem State.setTarget_engineCounts (s : State) (n : Nat) (x : Target) : (s.setTarget n x).engineCounts = s.engineCounts := rfl

@[simp] theorem State.setPorch_pending (s : State) (d : Nat) (x : Porch) : (s.setPorch d x).pending = s.pending := rfl
@[simp] theorem State.setPorch_calends (s : State) (d : Nat) (x : Porch) : (s.setPorch d x).calends = s.calends := rfl
@[simp] theorem State.setPorch_countersFrom (s : State) (d : Nat) (x : Porch) : (s.setPorch d x).countersFrom = s.countersFrom := rfl
@[simp] theorem State.setPorch_free (s : State) (d : Nat) (x : Porch) : (s.setPorch d x).free = s.free := rfl
@[simp] theorem State.setPorch_part (s : State) (d : Nat) (x : Porch) : (s.setPorch d x).part = s.part := rfl
@[simp] theorem State.setPorch_mem (s : State) (d : Nat) (x : Porch) : (s.setPorch d x).mem = s.mem := rfl
@[simp] theorem State.setPorch_tiles (s : State) (d : Nat) (x : Porch) : (s.setPorch d x).tiles = s.tiles := rfl
@[simp] theorem State.setPorch_seqs (s : State) (d : Nat) (x : Porch) : (s.setPorch d x).seqs = s.seqs := rfl
@[simp] theorem State.setPorch_lacing (s : State) (d : Nat) (x : Porch) : (s.setPorch d x).lacing = s.lacing := rfl
@[simp] theorem State.setPorch_dict (s : State) (d : Nat) (x : Porch) : (s.setPorch d x).dict = s.dict := rfl
@[simp] theorem State.setPorch_light (s : State) (d : Nat) (x : Porch) : (s.setPorch d x).light = s.light := rfl
@[simp] theorem State.setPorch_rings (s : State) (d : Nat) (x : Porch) : (s.setPorch d x).rings = s.rings := rfl
@[simp] theorem State.setPorch_parts (s : State) (d : Nat) (x : Porch) : (s.setPorch d x).parts = s.parts := rfl
@[simp] theorem State.setPorch_selfTestFail (s : State) (d : Nat) (x : Porch) : (s.setPorch d x).selfTestFail = s.selfTestFail := rfl
@[simp] theorem State.setPorch_disabledTiles (s : State) (d : Nat) (x : Porch) : (s.setPorch d x).disabledTiles = s.disabledTiles := rfl
@[simp] theorem State.setPorch_weltFailed (s : State) (d : Nat) (x : Porch) : (s.setPorch d x).weltFailed = s.weltFailed := rfl
@[simp] theorem State.setPorch_hbmCounts (s : State) (d : Nat) (x : Porch) : (s.setPorch d x).hbmCounts = s.hbmCounts := rfl
@[simp] theorem State.setPorch_hbm (s : State) (d : Nat) (x : Porch) : (s.setPorch d x).hbm = s.hbm := rfl
@[simp] theorem State.setPorch_hbmFailed (s : State) (d : Nat) (x : Porch) : (s.setPorch d x).hbmFailed = s.hbmFailed := rfl
@[simp] theorem State.setPorch_hbmTemp (s : State) (d : Nat) (x : Porch) : (s.setPorch d x).hbmTemp = s.hbmTemp := rfl
@[simp] theorem State.setPorch_scrubs (s : State) (d : Nat) (x : Porch) : (s.setPorch d x).scrubs = s.scrubs := rfl
@[simp] theorem State.setPorch_memEcc (s : State) (d : Nat) (x : Porch) : (s.setPorch d x).memEcc = s.memEcc := rfl
@[simp] theorem State.setPorch_engines (s : State) (d : Nat) (x : Porch) : (s.setPorch d x).engines = s.engines := rfl
@[simp] theorem State.setPorch_copyWait (s : State) (d : Nat) (x : Porch) : (s.setPorch d x).copyWait = s.copyWait := rfl
@[simp] theorem State.setPorch_serial (s : State) (d : Nat) (x : Porch) : (s.setPorch d x).serial = s.serial := rfl
@[simp] theorem State.setPorch_host (s : State) (d : Nat) (x : Porch) : (s.setPorch d x).host = s.host := rfl
@[simp] theorem State.setPorch_newen (s : State) (d : Nat) (x : Porch) : (s.setPorch d x).newen = s.newen := rfl
@[simp] theorem State.setPorch_loads (s : State) (d : Nat) (x : Porch) : (s.setPorch d x).loads = s.loads := rfl
@[simp] theorem State.setPorch_shelf (s : State) (d : Nat) (x : Porch) : (s.setPorch d x).shelf = s.shelf := rfl
@[simp] theorem State.setPorch_power (s : State) (d : Nat) (x : Porch) : (s.setPorch d x).power = s.power := rfl
@[simp] theorem State.setPorch_vigil (s : State) (d : Nat) (x : Porch) : (s.setPorch d x).vigil = s.vigil := rfl
@[simp] theorem State.setPorch_almanac (s : State) (d : Nat) (x : Porch) : (s.setPorch d x).almanac = s.almanac := rfl
@[simp] theorem State.setPorch_test (s : State) (d : Nat) (x : Porch) : (s.setPorch d x).test = s.test := rfl
@[simp] theorem State.setPorch_tap (s : State) (d : Nat) (x : Porch) : (s.setPorch d x).tap = s.tap := rfl
@[simp] theorem State.setPorch_engineCounts (s : State) (d : Nat) (x : Porch) : (s.setPorch d x).engineCounts = s.engineCounts := rfl

@[simp] theorem State.setEngine_pending (s : State) (e : Nat) (x : CopyEngine) : (s.setEngine e x).pending = s.pending := rfl
@[simp] theorem State.setEngine_calends (s : State) (e : Nat) (x : CopyEngine) : (s.setEngine e x).calends = s.calends := rfl
@[simp] theorem State.setEngine_countersFrom (s : State) (e : Nat) (x : CopyEngine) : (s.setEngine e x).countersFrom = s.countersFrom := rfl
@[simp] theorem State.setEngine_free (s : State) (e : Nat) (x : CopyEngine) : (s.setEngine e x).free = s.free := rfl
@[simp] theorem State.setEngine_part (s : State) (e : Nat) (x : CopyEngine) : (s.setEngine e x).part = s.part := rfl
@[simp] theorem State.setEngine_mem (s : State) (e : Nat) (x : CopyEngine) : (s.setEngine e x).mem = s.mem := rfl
@[simp] theorem State.setEngine_tiles (s : State) (e : Nat) (x : CopyEngine) : (s.setEngine e x).tiles = s.tiles := rfl
@[simp] theorem State.setEngine_seqs (s : State) (e : Nat) (x : CopyEngine) : (s.setEngine e x).seqs = s.seqs := rfl
@[simp] theorem State.setEngine_lacing (s : State) (e : Nat) (x : CopyEngine) : (s.setEngine e x).lacing = s.lacing := rfl
@[simp] theorem State.setEngine_net (s : State) (e : Nat) (x : CopyEngine) : (s.setEngine e x).net = s.net := rfl
@[simp] theorem State.setEngine_dict (s : State) (e : Nat) (x : CopyEngine) : (s.setEngine e x).dict = s.dict := rfl
@[simp] theorem State.setEngine_light (s : State) (e : Nat) (x : CopyEngine) : (s.setEngine e x).light = s.light := rfl
@[simp] theorem State.setEngine_rings (s : State) (e : Nat) (x : CopyEngine) : (s.setEngine e x).rings = s.rings := rfl
@[simp] theorem State.setEngine_parts (s : State) (e : Nat) (x : CopyEngine) : (s.setEngine e x).parts = s.parts := rfl
@[simp] theorem State.setEngine_selfTestFail (s : State) (e : Nat) (x : CopyEngine) : (s.setEngine e x).selfTestFail = s.selfTestFail := rfl
@[simp] theorem State.setEngine_disabledTiles (s : State) (e : Nat) (x : CopyEngine) : (s.setEngine e x).disabledTiles = s.disabledTiles := rfl
@[simp] theorem State.setEngine_weltFailed (s : State) (e : Nat) (x : CopyEngine) : (s.setEngine e x).weltFailed = s.weltFailed := rfl
@[simp] theorem State.setEngine_hbmCounts (s : State) (e : Nat) (x : CopyEngine) : (s.setEngine e x).hbmCounts = s.hbmCounts := rfl
@[simp] theorem State.setEngine_hbm (s : State) (e : Nat) (x : CopyEngine) : (s.setEngine e x).hbm = s.hbm := rfl
@[simp] theorem State.setEngine_hbmFailed (s : State) (e : Nat) (x : CopyEngine) : (s.setEngine e x).hbmFailed = s.hbmFailed := rfl
@[simp] theorem State.setEngine_hbmTemp (s : State) (e : Nat) (x : CopyEngine) : (s.setEngine e x).hbmTemp = s.hbmTemp := rfl
@[simp] theorem State.setEngine_scrubs (s : State) (e : Nat) (x : CopyEngine) : (s.setEngine e x).scrubs = s.scrubs := rfl
@[simp] theorem State.setEngine_memEcc (s : State) (e : Nat) (x : CopyEngine) : (s.setEngine e x).memEcc = s.memEcc := rfl
@[simp] theorem State.setEngine_copyWait (s : State) (e : Nat) (x : CopyEngine) : (s.setEngine e x).copyWait = s.copyWait := rfl
@[simp] theorem State.setEngine_serial (s : State) (e : Nat) (x : CopyEngine) : (s.setEngine e x).serial = s.serial := rfl
@[simp] theorem State.setEngine_host (s : State) (e : Nat) (x : CopyEngine) : (s.setEngine e x).host = s.host := rfl
@[simp] theorem State.setEngine_newen (s : State) (e : Nat) (x : CopyEngine) : (s.setEngine e x).newen = s.newen := rfl
@[simp] theorem State.setEngine_loads (s : State) (e : Nat) (x : CopyEngine) : (s.setEngine e x).loads = s.loads := rfl
@[simp] theorem State.setEngine_shelf (s : State) (e : Nat) (x : CopyEngine) : (s.setEngine e x).shelf = s.shelf := rfl
@[simp] theorem State.setEngine_power (s : State) (e : Nat) (x : CopyEngine) : (s.setEngine e x).power = s.power := rfl
@[simp] theorem State.setEngine_vigil (s : State) (e : Nat) (x : CopyEngine) : (s.setEngine e x).vigil = s.vigil := rfl
@[simp] theorem State.setEngine_almanac (s : State) (e : Nat) (x : CopyEngine) : (s.setEngine e x).almanac = s.almanac := rfl
@[simp] theorem State.setEngine_test (s : State) (e : Nat) (x : CopyEngine) : (s.setEngine e x).test = s.test := rfl
@[simp] theorem State.setEngine_tap (s : State) (e : Nat) (x : CopyEngine) : (s.setEngine e x).tap = s.tap := rfl
@[simp] theorem State.setEngine_engineCounts (s : State) (e : Nat) (x : CopyEngine) : (s.setEngine e x).engineCounts = s.engineCounts := rfl

@[simp] theorem State.setVi_pending (s : State) (v : Nat) (x : Vi) : (s.setVi v x).pending = s.pending := rfl
@[simp] theorem State.setVi_calends (s : State) (v : Nat) (x : Vi) : (s.setVi v x).calends = s.calends := rfl
@[simp] theorem State.setVi_countersFrom (s : State) (v : Nat) (x : Vi) : (s.setVi v x).countersFrom = s.countersFrom := rfl
@[simp] theorem State.setVi_free (s : State) (v : Nat) (x : Vi) : (s.setVi v x).free = s.free := rfl
@[simp] theorem State.setVi_part (s : State) (v : Nat) (x : Vi) : (s.setVi v x).part = s.part := rfl
@[simp] theorem State.setVi_mem (s : State) (v : Nat) (x : Vi) : (s.setVi v x).mem = s.mem := rfl
@[simp] theorem State.setVi_tiles (s : State) (v : Nat) (x : Vi) : (s.setVi v x).tiles = s.tiles := rfl
@[simp] theorem State.setVi_seqs (s : State) (v : Nat) (x : Vi) : (s.setVi v x).seqs = s.seqs := rfl
@[simp] theorem State.setVi_lacing (s : State) (v : Nat) (x : Vi) : (s.setVi v x).lacing = s.lacing := rfl
@[simp] theorem State.setVi_net (s : State) (v : Nat) (x : Vi) : (s.setVi v x).net = s.net := rfl
@[simp] theorem State.setVi_dict (s : State) (v : Nat) (x : Vi) : (s.setVi v x).dict = s.dict := rfl
@[simp] theorem State.setVi_light (s : State) (v : Nat) (x : Vi) : (s.setVi v x).light = s.light := rfl
@[simp] theorem State.setVi_rings (s : State) (v : Nat) (x : Vi) : (s.setVi v x).rings = s.rings := rfl
@[simp] theorem State.setVi_parts (s : State) (v : Nat) (x : Vi) : (s.setVi v x).parts = s.parts := rfl
@[simp] theorem State.setVi_selfTestFail (s : State) (v : Nat) (x : Vi) : (s.setVi v x).selfTestFail = s.selfTestFail := rfl
@[simp] theorem State.setVi_disabledTiles (s : State) (v : Nat) (x : Vi) : (s.setVi v x).disabledTiles = s.disabledTiles := rfl
@[simp] theorem State.setVi_weltFailed (s : State) (v : Nat) (x : Vi) : (s.setVi v x).weltFailed = s.weltFailed := rfl
@[simp] theorem State.setVi_hbmCounts (s : State) (v : Nat) (x : Vi) : (s.setVi v x).hbmCounts = s.hbmCounts := rfl
@[simp] theorem State.setVi_hbm (s : State) (v : Nat) (x : Vi) : (s.setVi v x).hbm = s.hbm := rfl
@[simp] theorem State.setVi_hbmFailed (s : State) (v : Nat) (x : Vi) : (s.setVi v x).hbmFailed = s.hbmFailed := rfl
@[simp] theorem State.setVi_hbmTemp (s : State) (v : Nat) (x : Vi) : (s.setVi v x).hbmTemp = s.hbmTemp := rfl
@[simp] theorem State.setVi_scrubs (s : State) (v : Nat) (x : Vi) : (s.setVi v x).scrubs = s.scrubs := rfl
@[simp] theorem State.setVi_memEcc (s : State) (v : Nat) (x : Vi) : (s.setVi v x).memEcc = s.memEcc := rfl
@[simp] theorem State.setVi_engines (s : State) (v : Nat) (x : Vi) : (s.setVi v x).engines = s.engines := rfl
@[simp] theorem State.setVi_copyWait (s : State) (v : Nat) (x : Vi) : (s.setVi v x).copyWait = s.copyWait := rfl
@[simp] theorem State.setVi_serial (s : State) (v : Nat) (x : Vi) : (s.setVi v x).serial = s.serial := rfl
@[simp] theorem State.setVi_newen (s : State) (v : Nat) (x : Vi) : (s.setVi v x).newen = s.newen := rfl
@[simp] theorem State.setVi_loads (s : State) (v : Nat) (x : Vi) : (s.setVi v x).loads = s.loads := rfl
@[simp] theorem State.setVi_shelf (s : State) (v : Nat) (x : Vi) : (s.setVi v x).shelf = s.shelf := rfl
@[simp] theorem State.setVi_power (s : State) (v : Nat) (x : Vi) : (s.setVi v x).power = s.power := rfl
@[simp] theorem State.setVi_vigil (s : State) (v : Nat) (x : Vi) : (s.setVi v x).vigil = s.vigil := rfl
@[simp] theorem State.setVi_almanac (s : State) (v : Nat) (x : Vi) : (s.setVi v x).almanac = s.almanac := rfl
@[simp] theorem State.setVi_test (s : State) (v : Nat) (x : Vi) : (s.setVi v x).test = s.test := rfl
@[simp] theorem State.setVi_tap (s : State) (v : Nat) (x : Vi) : (s.setVi v x).tap = s.tap := rfl
@[simp] theorem State.setVi_engineCounts (s : State) (v : Nat) (x : Vi) : (s.setVi v x).engineCounts = s.engineCounts := rfl

@[simp] theorem State.setRing_pending (s : State) (v r : Nat) (x : Ring) : (s.setRing v r x).pending = s.pending := rfl
@[simp] theorem State.setRing_calends (s : State) (v r : Nat) (x : Ring) : (s.setRing v r x).calends = s.calends := rfl
@[simp] theorem State.setRing_countersFrom (s : State) (v r : Nat) (x : Ring) : (s.setRing v r x).countersFrom = s.countersFrom := rfl
@[simp] theorem State.setRing_free (s : State) (v r : Nat) (x : Ring) : (s.setRing v r x).free = s.free := rfl
@[simp] theorem State.setRing_part (s : State) (v r : Nat) (x : Ring) : (s.setRing v r x).part = s.part := rfl
@[simp] theorem State.setRing_mem (s : State) (v r : Nat) (x : Ring) : (s.setRing v r x).mem = s.mem := rfl
@[simp] theorem State.setRing_tiles (s : State) (v r : Nat) (x : Ring) : (s.setRing v r x).tiles = s.tiles := rfl
@[simp] theorem State.setRing_seqs (s : State) (v r : Nat) (x : Ring) : (s.setRing v r x).seqs = s.seqs := rfl
@[simp] theorem State.setRing_lacing (s : State) (v r : Nat) (x : Ring) : (s.setRing v r x).lacing = s.lacing := rfl
@[simp] theorem State.setRing_net (s : State) (v r : Nat) (x : Ring) : (s.setRing v r x).net = s.net := rfl
@[simp] theorem State.setRing_dict (s : State) (v r : Nat) (x : Ring) : (s.setRing v r x).dict = s.dict := rfl
@[simp] theorem State.setRing_light (s : State) (v r : Nat) (x : Ring) : (s.setRing v r x).light = s.light := rfl
@[simp] theorem State.setRing_rings (s : State) (v r : Nat) (x : Ring) : (s.setRing v r x).rings = s.rings := rfl
@[simp] theorem State.setRing_parts (s : State) (v r : Nat) (x : Ring) : (s.setRing v r x).parts = s.parts := rfl
@[simp] theorem State.setRing_selfTestFail (s : State) (v r : Nat) (x : Ring) : (s.setRing v r x).selfTestFail = s.selfTestFail := rfl
@[simp] theorem State.setRing_disabledTiles (s : State) (v r : Nat) (x : Ring) : (s.setRing v r x).disabledTiles = s.disabledTiles := rfl
@[simp] theorem State.setRing_weltFailed (s : State) (v r : Nat) (x : Ring) : (s.setRing v r x).weltFailed = s.weltFailed := rfl
@[simp] theorem State.setRing_hbmCounts (s : State) (v r : Nat) (x : Ring) : (s.setRing v r x).hbmCounts = s.hbmCounts := rfl
@[simp] theorem State.setRing_hbm (s : State) (v r : Nat) (x : Ring) : (s.setRing v r x).hbm = s.hbm := rfl
@[simp] theorem State.setRing_hbmFailed (s : State) (v r : Nat) (x : Ring) : (s.setRing v r x).hbmFailed = s.hbmFailed := rfl
@[simp] theorem State.setRing_hbmTemp (s : State) (v r : Nat) (x : Ring) : (s.setRing v r x).hbmTemp = s.hbmTemp := rfl
@[simp] theorem State.setRing_scrubs (s : State) (v r : Nat) (x : Ring) : (s.setRing v r x).scrubs = s.scrubs := rfl
@[simp] theorem State.setRing_memEcc (s : State) (v r : Nat) (x : Ring) : (s.setRing v r x).memEcc = s.memEcc := rfl
@[simp] theorem State.setRing_engines (s : State) (v r : Nat) (x : Ring) : (s.setRing v r x).engines = s.engines := rfl
@[simp] theorem State.setRing_copyWait (s : State) (v r : Nat) (x : Ring) : (s.setRing v r x).copyWait = s.copyWait := rfl
@[simp] theorem State.setRing_serial (s : State) (v r : Nat) (x : Ring) : (s.setRing v r x).serial = s.serial := rfl
@[simp] theorem State.setRing_newen (s : State) (v r : Nat) (x : Ring) : (s.setRing v r x).newen = s.newen := rfl
@[simp] theorem State.setRing_loads (s : State) (v r : Nat) (x : Ring) : (s.setRing v r x).loads = s.loads := rfl
@[simp] theorem State.setRing_shelf (s : State) (v r : Nat) (x : Ring) : (s.setRing v r x).shelf = s.shelf := rfl
@[simp] theorem State.setRing_power (s : State) (v r : Nat) (x : Ring) : (s.setRing v r x).power = s.power := rfl
@[simp] theorem State.setRing_vigil (s : State) (v r : Nat) (x : Ring) : (s.setRing v r x).vigil = s.vigil := rfl
@[simp] theorem State.setRing_almanac (s : State) (v r : Nat) (x : Ring) : (s.setRing v r x).almanac = s.almanac := rfl
@[simp] theorem State.setRing_test (s : State) (v r : Nat) (x : Ring) : (s.setRing v r x).test = s.test := rfl
@[simp] theorem State.setRing_tap (s : State) (v r : Nat) (x : Ring) : (s.setRing v r x).tap = s.tap := rfl
@[simp] theorem State.setRing_engineCounts (s : State) (v r : Nat) (x : Ring) : (s.setRing v r x).engineCounts = s.engineCounts := rfl

@[simp] theorem State.hostStat_pending (s : State) (w : Nat) : (s.hostStat w).pending = s.pending := rfl
@[simp] theorem State.hostStat_calends (s : State) (w : Nat) : (s.hostStat w).calends = s.calends := rfl
@[simp] theorem State.hostStat_countersFrom (s : State) (w : Nat) : (s.hostStat w).countersFrom = s.countersFrom := rfl
@[simp] theorem State.hostStat_free (s : State) (w : Nat) : (s.hostStat w).free = s.free := rfl
@[simp] theorem State.hostStat_part (s : State) (w : Nat) : (s.hostStat w).part = s.part := rfl
@[simp] theorem State.hostStat_mem (s : State) (w : Nat) : (s.hostStat w).mem = s.mem := rfl
@[simp] theorem State.hostStat_tiles (s : State) (w : Nat) : (s.hostStat w).tiles = s.tiles := rfl
@[simp] theorem State.hostStat_seqs (s : State) (w : Nat) : (s.hostStat w).seqs = s.seqs := rfl
@[simp] theorem State.hostStat_lacing (s : State) (w : Nat) : (s.hostStat w).lacing = s.lacing := rfl
@[simp] theorem State.hostStat_net (s : State) (w : Nat) : (s.hostStat w).net = s.net := rfl
@[simp] theorem State.hostStat_dict (s : State) (w : Nat) : (s.hostStat w).dict = s.dict := rfl
@[simp] theorem State.hostStat_light (s : State) (w : Nat) : (s.hostStat w).light = s.light := rfl
@[simp] theorem State.hostStat_rings (s : State) (w : Nat) : (s.hostStat w).rings = s.rings := rfl
@[simp] theorem State.hostStat_parts (s : State) (w : Nat) : (s.hostStat w).parts = s.parts := rfl
@[simp] theorem State.hostStat_selfTestFail (s : State) (w : Nat) : (s.hostStat w).selfTestFail = s.selfTestFail := rfl
@[simp] theorem State.hostStat_disabledTiles (s : State) (w : Nat) : (s.hostStat w).disabledTiles = s.disabledTiles := rfl
@[simp] theorem State.hostStat_weltFailed (s : State) (w : Nat) : (s.hostStat w).weltFailed = s.weltFailed := rfl
@[simp] theorem State.hostStat_hbmCounts (s : State) (w : Nat) : (s.hostStat w).hbmCounts = s.hbmCounts := rfl
@[simp] theorem State.hostStat_hbm (s : State) (w : Nat) : (s.hostStat w).hbm = s.hbm := rfl
@[simp] theorem State.hostStat_hbmFailed (s : State) (w : Nat) : (s.hostStat w).hbmFailed = s.hbmFailed := rfl
@[simp] theorem State.hostStat_hbmTemp (s : State) (w : Nat) : (s.hostStat w).hbmTemp = s.hbmTemp := rfl
@[simp] theorem State.hostStat_scrubs (s : State) (w : Nat) : (s.hostStat w).scrubs = s.scrubs := rfl
@[simp] theorem State.hostStat_memEcc (s : State) (w : Nat) : (s.hostStat w).memEcc = s.memEcc := rfl
@[simp] theorem State.hostStat_engines (s : State) (w : Nat) : (s.hostStat w).engines = s.engines := rfl
@[simp] theorem State.hostStat_copyWait (s : State) (w : Nat) : (s.hostStat w).copyWait = s.copyWait := rfl
@[simp] theorem State.hostStat_serial (s : State) (w : Nat) : (s.hostStat w).serial = s.serial := rfl
@[simp] theorem State.hostStat_newen (s : State) (w : Nat) : (s.hostStat w).newen = s.newen := rfl
@[simp] theorem State.hostStat_loads (s : State) (w : Nat) : (s.hostStat w).loads = s.loads := rfl
@[simp] theorem State.hostStat_shelf (s : State) (w : Nat) : (s.hostStat w).shelf = s.shelf := rfl
@[simp] theorem State.hostStat_power (s : State) (w : Nat) : (s.hostStat w).power = s.power := rfl
@[simp] theorem State.hostStat_vigil (s : State) (w : Nat) : (s.hostStat w).vigil = s.vigil := rfl
@[simp] theorem State.hostStat_almanac (s : State) (w : Nat) : (s.hostStat w).almanac = s.almanac := rfl
@[simp] theorem State.hostStat_test (s : State) (w : Nat) : (s.hostStat w).test = s.test := rfl
@[simp] theorem State.hostStat_tap (s : State) (w : Nat) : (s.hostStat w).tap = s.tap := rfl
@[simp] theorem State.hostStat_engineCounts (s : State) (w : Nat) : (s.hostStat w).engineCounts = s.engineCounts := rfl

@[simp] theorem State.toHost_pending (s : State) (o : HostOut) : (s.toHost o).pending = s.pending := rfl
@[simp] theorem State.toHost_calends (s : State) (o : HostOut) : (s.toHost o).calends = s.calends := rfl
@[simp] theorem State.toHost_countersFrom (s : State) (o : HostOut) : (s.toHost o).countersFrom = s.countersFrom := rfl
@[simp] theorem State.toHost_free (s : State) (o : HostOut) : (s.toHost o).free = s.free := rfl
@[simp] theorem State.toHost_part (s : State) (o : HostOut) : (s.toHost o).part = s.part := rfl
@[simp] theorem State.toHost_mem (s : State) (o : HostOut) : (s.toHost o).mem = s.mem := rfl
@[simp] theorem State.toHost_tiles (s : State) (o : HostOut) : (s.toHost o).tiles = s.tiles := rfl
@[simp] theorem State.toHost_seqs (s : State) (o : HostOut) : (s.toHost o).seqs = s.seqs := rfl
@[simp] theorem State.toHost_lacing (s : State) (o : HostOut) : (s.toHost o).lacing = s.lacing := rfl
@[simp] theorem State.toHost_net (s : State) (o : HostOut) : (s.toHost o).net = s.net := rfl
@[simp] theorem State.toHost_dict (s : State) (o : HostOut) : (s.toHost o).dict = s.dict := rfl
@[simp] theorem State.toHost_light (s : State) (o : HostOut) : (s.toHost o).light = s.light := rfl
@[simp] theorem State.toHost_rings (s : State) (o : HostOut) : (s.toHost o).rings = s.rings := rfl
@[simp] theorem State.toHost_parts (s : State) (o : HostOut) : (s.toHost o).parts = s.parts := rfl
@[simp] theorem State.toHost_selfTestFail (s : State) (o : HostOut) : (s.toHost o).selfTestFail = s.selfTestFail := rfl
@[simp] theorem State.toHost_disabledTiles (s : State) (o : HostOut) : (s.toHost o).disabledTiles = s.disabledTiles := rfl
@[simp] theorem State.toHost_weltFailed (s : State) (o : HostOut) : (s.toHost o).weltFailed = s.weltFailed := rfl
@[simp] theorem State.toHost_hbmCounts (s : State) (o : HostOut) : (s.toHost o).hbmCounts = s.hbmCounts := rfl
@[simp] theorem State.toHost_hbm (s : State) (o : HostOut) : (s.toHost o).hbm = s.hbm := rfl
@[simp] theorem State.toHost_hbmFailed (s : State) (o : HostOut) : (s.toHost o).hbmFailed = s.hbmFailed := rfl
@[simp] theorem State.toHost_hbmTemp (s : State) (o : HostOut) : (s.toHost o).hbmTemp = s.hbmTemp := rfl
@[simp] theorem State.toHost_scrubs (s : State) (o : HostOut) : (s.toHost o).scrubs = s.scrubs := rfl
@[simp] theorem State.toHost_memEcc (s : State) (o : HostOut) : (s.toHost o).memEcc = s.memEcc := rfl
@[simp] theorem State.toHost_engines (s : State) (o : HostOut) : (s.toHost o).engines = s.engines := rfl
@[simp] theorem State.toHost_copyWait (s : State) (o : HostOut) : (s.toHost o).copyWait = s.copyWait := rfl
@[simp] theorem State.toHost_serial (s : State) (o : HostOut) : (s.toHost o).serial = s.serial := rfl
@[simp] theorem State.toHost_newen (s : State) (o : HostOut) : (s.toHost o).newen = s.newen := rfl
@[simp] theorem State.toHost_loads (s : State) (o : HostOut) : (s.toHost o).loads = s.loads := rfl
@[simp] theorem State.toHost_shelf (s : State) (o : HostOut) : (s.toHost o).shelf = s.shelf := rfl
@[simp] theorem State.toHost_power (s : State) (o : HostOut) : (s.toHost o).power = s.power := rfl
@[simp] theorem State.toHost_vigil (s : State) (o : HostOut) : (s.toHost o).vigil = s.vigil := rfl
@[simp] theorem State.toHost_almanac (s : State) (o : HostOut) : (s.toHost o).almanac = s.almanac := rfl
@[simp] theorem State.toHost_test (s : State) (o : HostOut) : (s.toHost o).test = s.test := rfl
@[simp] theorem State.toHost_tap (s : State) (o : HostOut) : (s.toHost o).tap = s.tap := rfl
@[simp] theorem State.toHost_engineCounts (s : State) (o : HostOut) : (s.toHost o).engineCounts = s.engineCounts := rfl

@[simp] theorem State.updCmd_pending (s : State) (k : CmdKey) (f : Cmd → Cmd) : (s.updCmd k f).pending = s.pending := rfl
@[simp] theorem State.updCmd_calends (s : State) (k : CmdKey) (f : Cmd → Cmd) : (s.updCmd k f).calends = s.calends := rfl
@[simp] theorem State.updCmd_countersFrom (s : State) (k : CmdKey) (f : Cmd → Cmd) : (s.updCmd k f).countersFrom = s.countersFrom := rfl
@[simp] theorem State.updCmd_free (s : State) (k : CmdKey) (f : Cmd → Cmd) : (s.updCmd k f).free = s.free := rfl
@[simp] theorem State.updCmd_part (s : State) (k : CmdKey) (f : Cmd → Cmd) : (s.updCmd k f).part = s.part := rfl
@[simp] theorem State.updCmd_mem (s : State) (k : CmdKey) (f : Cmd → Cmd) : (s.updCmd k f).mem = s.mem := rfl
@[simp] theorem State.updCmd_tiles (s : State) (k : CmdKey) (f : Cmd → Cmd) : (s.updCmd k f).tiles = s.tiles := rfl
@[simp] theorem State.updCmd_seqs (s : State) (k : CmdKey) (f : Cmd → Cmd) : (s.updCmd k f).seqs = s.seqs := rfl
@[simp] theorem State.updCmd_lacing (s : State) (k : CmdKey) (f : Cmd → Cmd) : (s.updCmd k f).lacing = s.lacing := rfl
@[simp] theorem State.updCmd_net (s : State) (k : CmdKey) (f : Cmd → Cmd) : (s.updCmd k f).net = s.net := rfl
@[simp] theorem State.updCmd_dict (s : State) (k : CmdKey) (f : Cmd → Cmd) : (s.updCmd k f).dict = s.dict := rfl
@[simp] theorem State.updCmd_light (s : State) (k : CmdKey) (f : Cmd → Cmd) : (s.updCmd k f).light = s.light := rfl
@[simp] theorem State.updCmd_rings (s : State) (k : CmdKey) (f : Cmd → Cmd) : (s.updCmd k f).rings = s.rings := rfl
@[simp] theorem State.updCmd_parts (s : State) (k : CmdKey) (f : Cmd → Cmd) : (s.updCmd k f).parts = s.parts := rfl
@[simp] theorem State.updCmd_selfTestFail (s : State) (k : CmdKey) (f : Cmd → Cmd) : (s.updCmd k f).selfTestFail = s.selfTestFail := rfl
@[simp] theorem State.updCmd_disabledTiles (s : State) (k : CmdKey) (f : Cmd → Cmd) : (s.updCmd k f).disabledTiles = s.disabledTiles := rfl
@[simp] theorem State.updCmd_weltFailed (s : State) (k : CmdKey) (f : Cmd → Cmd) : (s.updCmd k f).weltFailed = s.weltFailed := rfl
@[simp] theorem State.updCmd_hbmCounts (s : State) (k : CmdKey) (f : Cmd → Cmd) : (s.updCmd k f).hbmCounts = s.hbmCounts := rfl
@[simp] theorem State.updCmd_hbm (s : State) (k : CmdKey) (f : Cmd → Cmd) : (s.updCmd k f).hbm = s.hbm := rfl
@[simp] theorem State.updCmd_hbmFailed (s : State) (k : CmdKey) (f : Cmd → Cmd) : (s.updCmd k f).hbmFailed = s.hbmFailed := rfl
@[simp] theorem State.updCmd_hbmTemp (s : State) (k : CmdKey) (f : Cmd → Cmd) : (s.updCmd k f).hbmTemp = s.hbmTemp := rfl
@[simp] theorem State.updCmd_scrubs (s : State) (k : CmdKey) (f : Cmd → Cmd) : (s.updCmd k f).scrubs = s.scrubs := rfl
@[simp] theorem State.updCmd_memEcc (s : State) (k : CmdKey) (f : Cmd → Cmd) : (s.updCmd k f).memEcc = s.memEcc := rfl
@[simp] theorem State.updCmd_engines (s : State) (k : CmdKey) (f : Cmd → Cmd) : (s.updCmd k f).engines = s.engines := rfl
@[simp] theorem State.updCmd_copyWait (s : State) (k : CmdKey) (f : Cmd → Cmd) : (s.updCmd k f).copyWait = s.copyWait := rfl
@[simp] theorem State.updCmd_serial (s : State) (k : CmdKey) (f : Cmd → Cmd) : (s.updCmd k f).serial = s.serial := rfl
@[simp] theorem State.updCmd_newen (s : State) (k : CmdKey) (f : Cmd → Cmd) : (s.updCmd k f).newen = s.newen := rfl
@[simp] theorem State.updCmd_loads (s : State) (k : CmdKey) (f : Cmd → Cmd) : (s.updCmd k f).loads = s.loads := rfl
@[simp] theorem State.updCmd_shelf (s : State) (k : CmdKey) (f : Cmd → Cmd) : (s.updCmd k f).shelf = s.shelf := rfl
@[simp] theorem State.updCmd_power (s : State) (k : CmdKey) (f : Cmd → Cmd) : (s.updCmd k f).power = s.power := rfl
@[simp] theorem State.updCmd_vigil (s : State) (k : CmdKey) (f : Cmd → Cmd) : (s.updCmd k f).vigil = s.vigil := rfl
@[simp] theorem State.updCmd_almanac (s : State) (k : CmdKey) (f : Cmd → Cmd) : (s.updCmd k f).almanac = s.almanac := rfl
@[simp] theorem State.updCmd_test (s : State) (k : CmdKey) (f : Cmd → Cmd) : (s.updCmd k f).test = s.test := rfl
@[simp] theorem State.updCmd_tap (s : State) (k : CmdKey) (f : Cmd → Cmd) : (s.updCmd k f).tap = s.tap := rfl
@[simp] theorem State.updCmd_engineCounts (s : State) (k : CmdKey) (f : Cmd → Cmd) : (s.updCmd k f).engineCounts = s.engineCounts := rfl

@[simp] theorem State.endCmd_pending (s : State) (k : CmdKey) (st : Status) (n : Nat) : (s.endCmd k st n).pending = s.pending := rfl
@[simp] theorem State.endCmd_calends (s : State) (k : CmdKey) (st : Status) (n : Nat) : (s.endCmd k st n).calends = s.calends := rfl
@[simp] theorem State.endCmd_countersFrom (s : State) (k : CmdKey) (st : Status) (n : Nat) : (s.endCmd k st n).countersFrom = s.countersFrom := rfl
@[simp] theorem State.endCmd_free (s : State) (k : CmdKey) (st : Status) (n : Nat) : (s.endCmd k st n).free = s.free := rfl
@[simp] theorem State.endCmd_part (s : State) (k : CmdKey) (st : Status) (n : Nat) : (s.endCmd k st n).part = s.part := rfl
@[simp] theorem State.endCmd_mem (s : State) (k : CmdKey) (st : Status) (n : Nat) : (s.endCmd k st n).mem = s.mem := rfl
@[simp] theorem State.endCmd_tiles (s : State) (k : CmdKey) (st : Status) (n : Nat) : (s.endCmd k st n).tiles = s.tiles := rfl
@[simp] theorem State.endCmd_seqs (s : State) (k : CmdKey) (st : Status) (n : Nat) : (s.endCmd k st n).seqs = s.seqs := rfl
@[simp] theorem State.endCmd_lacing (s : State) (k : CmdKey) (st : Status) (n : Nat) : (s.endCmd k st n).lacing = s.lacing := rfl
@[simp] theorem State.endCmd_net (s : State) (k : CmdKey) (st : Status) (n : Nat) : (s.endCmd k st n).net = s.net := rfl
@[simp] theorem State.endCmd_dict (s : State) (k : CmdKey) (st : Status) (n : Nat) : (s.endCmd k st n).dict = s.dict := rfl
@[simp] theorem State.endCmd_light (s : State) (k : CmdKey) (st : Status) (n : Nat) : (s.endCmd k st n).light = s.light := rfl
@[simp] theorem State.endCmd_rings (s : State) (k : CmdKey) (st : Status) (n : Nat) : (s.endCmd k st n).rings = s.rings := rfl
@[simp] theorem State.endCmd_parts (s : State) (k : CmdKey) (st : Status) (n : Nat) : (s.endCmd k st n).parts = s.parts := rfl
@[simp] theorem State.endCmd_selfTestFail (s : State) (k : CmdKey) (st : Status) (n : Nat) : (s.endCmd k st n).selfTestFail = s.selfTestFail := rfl
@[simp] theorem State.endCmd_disabledTiles (s : State) (k : CmdKey) (st : Status) (n : Nat) : (s.endCmd k st n).disabledTiles = s.disabledTiles := rfl
@[simp] theorem State.endCmd_weltFailed (s : State) (k : CmdKey) (st : Status) (n : Nat) : (s.endCmd k st n).weltFailed = s.weltFailed := rfl
@[simp] theorem State.endCmd_hbmCounts (s : State) (k : CmdKey) (st : Status) (n : Nat) : (s.endCmd k st n).hbmCounts = s.hbmCounts := rfl
@[simp] theorem State.endCmd_hbm (s : State) (k : CmdKey) (st : Status) (n : Nat) : (s.endCmd k st n).hbm = s.hbm := rfl
@[simp] theorem State.endCmd_hbmFailed (s : State) (k : CmdKey) (st : Status) (n : Nat) : (s.endCmd k st n).hbmFailed = s.hbmFailed := rfl
@[simp] theorem State.endCmd_hbmTemp (s : State) (k : CmdKey) (st : Status) (n : Nat) : (s.endCmd k st n).hbmTemp = s.hbmTemp := rfl
@[simp] theorem State.endCmd_scrubs (s : State) (k : CmdKey) (st : Status) (n : Nat) : (s.endCmd k st n).scrubs = s.scrubs := rfl
@[simp] theorem State.endCmd_memEcc (s : State) (k : CmdKey) (st : Status) (n : Nat) : (s.endCmd k st n).memEcc = s.memEcc := rfl
@[simp] theorem State.endCmd_engines (s : State) (k : CmdKey) (st : Status) (n : Nat) : (s.endCmd k st n).engines = s.engines := rfl
@[simp] theorem State.endCmd_copyWait (s : State) (k : CmdKey) (st : Status) (n : Nat) : (s.endCmd k st n).copyWait = s.copyWait := rfl
@[simp] theorem State.endCmd_serial (s : State) (k : CmdKey) (st : Status) (n : Nat) : (s.endCmd k st n).serial = s.serial := rfl
@[simp] theorem State.endCmd_newen (s : State) (k : CmdKey) (st : Status) (n : Nat) : (s.endCmd k st n).newen = s.newen := rfl
@[simp] theorem State.endCmd_loads (s : State) (k : CmdKey) (st : Status) (n : Nat) : (s.endCmd k st n).loads = s.loads := rfl
@[simp] theorem State.endCmd_shelf (s : State) (k : CmdKey) (st : Status) (n : Nat) : (s.endCmd k st n).shelf = s.shelf := rfl
@[simp] theorem State.endCmd_power (s : State) (k : CmdKey) (st : Status) (n : Nat) : (s.endCmd k st n).power = s.power := rfl
@[simp] theorem State.endCmd_vigil (s : State) (k : CmdKey) (st : Status) (n : Nat) : (s.endCmd k st n).vigil = s.vigil := rfl
@[simp] theorem State.endCmd_almanac (s : State) (k : CmdKey) (st : Status) (n : Nat) : (s.endCmd k st n).almanac = s.almanac := rfl
@[simp] theorem State.endCmd_test (s : State) (k : CmdKey) (st : Status) (n : Nat) : (s.endCmd k st n).test = s.test := rfl
@[simp] theorem State.endCmd_tap (s : State) (k : CmdKey) (st : Status) (n : Nat) : (s.endCmd k st n).tap = s.tap := rfl
@[simp] theorem State.endCmd_engineCounts (s : State) (k : CmdKey) (st : Status) (n : Nat) : (s.endCmd k st n).engineCounts = s.engineCounts := rfl

@[simp] theorem State.setDomain_pending (s : State) (d : Nat) (x : DomainState) : (s.setDomain d x).pending = s.pending := rfl
@[simp] theorem State.setDomain_calends (s : State) (d : Nat) (x : DomainState) : (s.setDomain d x).calends = s.calends := rfl
@[simp] theorem State.setDomain_countersFrom (s : State) (d : Nat) (x : DomainState) : (s.setDomain d x).countersFrom = s.countersFrom := rfl
@[simp] theorem State.setDomain_free (s : State) (d : Nat) (x : DomainState) : (s.setDomain d x).free = s.free := rfl
@[simp] theorem State.setDomain_part (s : State) (d : Nat) (x : DomainState) : (s.setDomain d x).part = s.part := rfl
@[simp] theorem State.setDomain_mem (s : State) (d : Nat) (x : DomainState) : (s.setDomain d x).mem = s.mem := rfl
@[simp] theorem State.setDomain_tiles (s : State) (d : Nat) (x : DomainState) : (s.setDomain d x).tiles = s.tiles := rfl
@[simp] theorem State.setDomain_seqs (s : State) (d : Nat) (x : DomainState) : (s.setDomain d x).seqs = s.seqs := rfl
@[simp] theorem State.setDomain_lacing (s : State) (d : Nat) (x : DomainState) : (s.setDomain d x).lacing = s.lacing := rfl
@[simp] theorem State.setDomain_net (s : State) (d : Nat) (x : DomainState) : (s.setDomain d x).net = s.net := rfl
@[simp] theorem State.setDomain_dict (s : State) (d : Nat) (x : DomainState) : (s.setDomain d x).dict = s.dict := rfl
@[simp] theorem State.setDomain_light (s : State) (d : Nat) (x : DomainState) : (s.setDomain d x).light = s.light := rfl
@[simp] theorem State.setDomain_rings (s : State) (d : Nat) (x : DomainState) : (s.setDomain d x).rings = s.rings := rfl
@[simp] theorem State.setDomain_parts (s : State) (d : Nat) (x : DomainState) : (s.setDomain d x).parts = s.parts := rfl
@[simp] theorem State.setDomain_selfTestFail (s : State) (d : Nat) (x : DomainState) : (s.setDomain d x).selfTestFail = s.selfTestFail := rfl
@[simp] theorem State.setDomain_disabledTiles (s : State) (d : Nat) (x : DomainState) : (s.setDomain d x).disabledTiles = s.disabledTiles := rfl
@[simp] theorem State.setDomain_weltFailed (s : State) (d : Nat) (x : DomainState) : (s.setDomain d x).weltFailed = s.weltFailed := rfl
@[simp] theorem State.setDomain_hbmCounts (s : State) (d : Nat) (x : DomainState) : (s.setDomain d x).hbmCounts = s.hbmCounts := rfl
@[simp] theorem State.setDomain_hbm (s : State) (d : Nat) (x : DomainState) : (s.setDomain d x).hbm = s.hbm := rfl
@[simp] theorem State.setDomain_hbmFailed (s : State) (d : Nat) (x : DomainState) : (s.setDomain d x).hbmFailed = s.hbmFailed := rfl
@[simp] theorem State.setDomain_hbmTemp (s : State) (d : Nat) (x : DomainState) : (s.setDomain d x).hbmTemp = s.hbmTemp := rfl
@[simp] theorem State.setDomain_scrubs (s : State) (d : Nat) (x : DomainState) : (s.setDomain d x).scrubs = s.scrubs := rfl
@[simp] theorem State.setDomain_memEcc (s : State) (d : Nat) (x : DomainState) : (s.setDomain d x).memEcc = s.memEcc := rfl
@[simp] theorem State.setDomain_engines (s : State) (d : Nat) (x : DomainState) : (s.setDomain d x).engines = s.engines := rfl
@[simp] theorem State.setDomain_copyWait (s : State) (d : Nat) (x : DomainState) : (s.setDomain d x).copyWait = s.copyWait := rfl
@[simp] theorem State.setDomain_serial (s : State) (d : Nat) (x : DomainState) : (s.setDomain d x).serial = s.serial := rfl
@[simp] theorem State.setDomain_host (s : State) (d : Nat) (x : DomainState) : (s.setDomain d x).host = s.host := rfl
@[simp] theorem State.setDomain_newen (s : State) (d : Nat) (x : DomainState) : (s.setDomain d x).newen = s.newen := rfl
@[simp] theorem State.setDomain_loads (s : State) (d : Nat) (x : DomainState) : (s.setDomain d x).loads = s.loads := rfl
@[simp] theorem State.setDomain_shelf (s : State) (d : Nat) (x : DomainState) : (s.setDomain d x).shelf = s.shelf := rfl
@[simp] theorem State.setDomain_vigil (s : State) (d : Nat) (x : DomainState) : (s.setDomain d x).vigil = s.vigil := rfl
@[simp] theorem State.setDomain_almanac (s : State) (d : Nat) (x : DomainState) : (s.setDomain d x).almanac = s.almanac := rfl
@[simp] theorem State.setDomain_test (s : State) (d : Nat) (x : DomainState) : (s.setDomain d x).test = s.test := rfl
@[simp] theorem State.setDomain_tap (s : State) (d : Nat) (x : DomainState) : (s.setDomain d x).tap = s.tap := rfl
@[simp] theorem State.setDomain_engineCounts (s : State) (d : Nat) (x : DomainState) : (s.setDomain d x).engineCounts = s.engineCounts := rfl

@[simp] theorem State.setStage_pending (s : State) (n : Nat) : (s.setStage n).pending = s.pending := rfl
@[simp] theorem State.setStage_calends (s : State) (n : Nat) : (s.setStage n).calends = s.calends := rfl
@[simp] theorem State.setStage_countersFrom (s : State) (n : Nat) : (s.setStage n).countersFrom = s.countersFrom := rfl
@[simp] theorem State.setStage_free (s : State) (n : Nat) : (s.setStage n).free = s.free := rfl
@[simp] theorem State.setStage_part (s : State) (n : Nat) : (s.setStage n).part = s.part := rfl
@[simp] theorem State.setStage_mem (s : State) (n : Nat) : (s.setStage n).mem = s.mem := rfl
@[simp] theorem State.setStage_tiles (s : State) (n : Nat) : (s.setStage n).tiles = s.tiles := rfl
@[simp] theorem State.setStage_seqs (s : State) (n : Nat) : (s.setStage n).seqs = s.seqs := rfl
@[simp] theorem State.setStage_lacing (s : State) (n : Nat) : (s.setStage n).lacing = s.lacing := rfl
@[simp] theorem State.setStage_net (s : State) (n : Nat) : (s.setStage n).net = s.net := rfl
@[simp] theorem State.setStage_dict (s : State) (n : Nat) : (s.setStage n).dict = s.dict := rfl
@[simp] theorem State.setStage_light (s : State) (n : Nat) : (s.setStage n).light = s.light := rfl
@[simp] theorem State.setStage_rings (s : State) (n : Nat) : (s.setStage n).rings = s.rings := rfl
@[simp] theorem State.setStage_parts (s : State) (n : Nat) : (s.setStage n).parts = s.parts := rfl
@[simp] theorem State.setStage_selfTestFail (s : State) (n : Nat) : (s.setStage n).selfTestFail = s.selfTestFail := rfl
@[simp] theorem State.setStage_disabledTiles (s : State) (n : Nat) : (s.setStage n).disabledTiles = s.disabledTiles := rfl
@[simp] theorem State.setStage_weltFailed (s : State) (n : Nat) : (s.setStage n).weltFailed = s.weltFailed := rfl
@[simp] theorem State.setStage_hbmCounts (s : State) (n : Nat) : (s.setStage n).hbmCounts = s.hbmCounts := rfl
@[simp] theorem State.setStage_hbm (s : State) (n : Nat) : (s.setStage n).hbm = s.hbm := rfl
@[simp] theorem State.setStage_hbmFailed (s : State) (n : Nat) : (s.setStage n).hbmFailed = s.hbmFailed := rfl
@[simp] theorem State.setStage_hbmTemp (s : State) (n : Nat) : (s.setStage n).hbmTemp = s.hbmTemp := rfl
@[simp] theorem State.setStage_scrubs (s : State) (n : Nat) : (s.setStage n).scrubs = s.scrubs := rfl
@[simp] theorem State.setStage_memEcc (s : State) (n : Nat) : (s.setStage n).memEcc = s.memEcc := rfl
@[simp] theorem State.setStage_engines (s : State) (n : Nat) : (s.setStage n).engines = s.engines := rfl
@[simp] theorem State.setStage_copyWait (s : State) (n : Nat) : (s.setStage n).copyWait = s.copyWait := rfl
@[simp] theorem State.setStage_serial (s : State) (n : Nat) : (s.setStage n).serial = s.serial := rfl
@[simp] theorem State.setStage_host (s : State) (n : Nat) : (s.setStage n).host = s.host := rfl
@[simp] theorem State.setStage_newen (s : State) (n : Nat) : (s.setStage n).newen = s.newen := rfl
@[simp] theorem State.setStage_loads (s : State) (n : Nat) : (s.setStage n).loads = s.loads := rfl
@[simp] theorem State.setStage_shelf (s : State) (n : Nat) : (s.setStage n).shelf = s.shelf := rfl
@[simp] theorem State.setStage_vigil (s : State) (n : Nat) : (s.setStage n).vigil = s.vigil := rfl
@[simp] theorem State.setStage_almanac (s : State) (n : Nat) : (s.setStage n).almanac = s.almanac := rfl
@[simp] theorem State.setStage_test (s : State) (n : Nat) : (s.setStage n).test = s.test := rfl
@[simp] theorem State.setStage_tap (s : State) (n : Nat) : (s.setStage n).tap = s.tap := rfl
@[simp] theorem State.setStage_engineCounts (s : State) (n : Nat) : (s.setStage n).engineCounts = s.engineCounts := rfl

@[simp] theorem State.setObj_pending (s : State) (i j d : Nat) (v : Nat) : (s.setObj i j d v).pending = s.pending := rfl
@[simp] theorem State.setObj_calends (s : State) (i j d : Nat) (v : Nat) : (s.setObj i j d v).calends = s.calends := rfl
@[simp] theorem State.setObj_countersFrom (s : State) (i j d : Nat) (v : Nat) : (s.setObj i j d v).countersFrom = s.countersFrom := rfl
@[simp] theorem State.setObj_free (s : State) (i j d : Nat) (v : Nat) : (s.setObj i j d v).free = s.free := rfl
@[simp] theorem State.setObj_part (s : State) (i j d : Nat) (v : Nat) : (s.setObj i j d v).part = s.part := rfl
@[simp] theorem State.setObj_mem (s : State) (i j d : Nat) (v : Nat) : (s.setObj i j d v).mem = s.mem := rfl
@[simp] theorem State.setObj_tiles (s : State) (i j d : Nat) (v : Nat) : (s.setObj i j d v).tiles = s.tiles := rfl
@[simp] theorem State.setObj_seqs (s : State) (i j d : Nat) (v : Nat) : (s.setObj i j d v).seqs = s.seqs := rfl
@[simp] theorem State.setObj_lacing (s : State) (i j d : Nat) (v : Nat) : (s.setObj i j d v).lacing = s.lacing := rfl
@[simp] theorem State.setObj_net (s : State) (i j d : Nat) (v : Nat) : (s.setObj i j d v).net = s.net := rfl
@[simp] theorem State.setObj_light (s : State) (i j d : Nat) (v : Nat) : (s.setObj i j d v).light = s.light := rfl
@[simp] theorem State.setObj_rings (s : State) (i j d : Nat) (v : Nat) : (s.setObj i j d v).rings = s.rings := rfl
@[simp] theorem State.setObj_parts (s : State) (i j d : Nat) (v : Nat) : (s.setObj i j d v).parts = s.parts := rfl
@[simp] theorem State.setObj_selfTestFail (s : State) (i j d : Nat) (v : Nat) : (s.setObj i j d v).selfTestFail = s.selfTestFail := rfl
@[simp] theorem State.setObj_disabledTiles (s : State) (i j d : Nat) (v : Nat) : (s.setObj i j d v).disabledTiles = s.disabledTiles := rfl
@[simp] theorem State.setObj_weltFailed (s : State) (i j d : Nat) (v : Nat) : (s.setObj i j d v).weltFailed = s.weltFailed := rfl
@[simp] theorem State.setObj_hbmCounts (s : State) (i j d : Nat) (v : Nat) : (s.setObj i j d v).hbmCounts = s.hbmCounts := rfl
@[simp] theorem State.setObj_hbm (s : State) (i j d : Nat) (v : Nat) : (s.setObj i j d v).hbm = s.hbm := rfl
@[simp] theorem State.setObj_hbmFailed (s : State) (i j d : Nat) (v : Nat) : (s.setObj i j d v).hbmFailed = s.hbmFailed := rfl
@[simp] theorem State.setObj_hbmTemp (s : State) (i j d : Nat) (v : Nat) : (s.setObj i j d v).hbmTemp = s.hbmTemp := rfl
@[simp] theorem State.setObj_scrubs (s : State) (i j d : Nat) (v : Nat) : (s.setObj i j d v).scrubs = s.scrubs := rfl
@[simp] theorem State.setObj_memEcc (s : State) (i j d : Nat) (v : Nat) : (s.setObj i j d v).memEcc = s.memEcc := rfl
@[simp] theorem State.setObj_engines (s : State) (i j d : Nat) (v : Nat) : (s.setObj i j d v).engines = s.engines := rfl
@[simp] theorem State.setObj_copyWait (s : State) (i j d : Nat) (v : Nat) : (s.setObj i j d v).copyWait = s.copyWait := rfl
@[simp] theorem State.setObj_serial (s : State) (i j d : Nat) (v : Nat) : (s.setObj i j d v).serial = s.serial := rfl
@[simp] theorem State.setObj_host (s : State) (i j d : Nat) (v : Nat) : (s.setObj i j d v).host = s.host := rfl
@[simp] theorem State.setObj_newen (s : State) (i j d : Nat) (v : Nat) : (s.setObj i j d v).newen = s.newen := rfl
@[simp] theorem State.setObj_loads (s : State) (i j d : Nat) (v : Nat) : (s.setObj i j d v).loads = s.loads := rfl
@[simp] theorem State.setObj_shelf (s : State) (i j d : Nat) (v : Nat) : (s.setObj i j d v).shelf = s.shelf := rfl
@[simp] theorem State.setObj_power (s : State) (i j d : Nat) (v : Nat) : (s.setObj i j d v).power = s.power := rfl
@[simp] theorem State.setObj_vigil (s : State) (i j d : Nat) (v : Nat) : (s.setObj i j d v).vigil = s.vigil := rfl
@[simp] theorem State.setObj_almanac (s : State) (i j d : Nat) (v : Nat) : (s.setObj i j d v).almanac = s.almanac := rfl
@[simp] theorem State.setObj_test (s : State) (i j d : Nat) (v : Nat) : (s.setObj i j d v).test = s.test := rfl
@[simp] theorem State.setObj_tap (s : State) (i j d : Nat) (v : Nat) : (s.setObj i j d v).tap = s.tap := rfl
@[simp] theorem State.setObj_engineCounts (s : State) (i j d : Nat) (v : Nat) : (s.setObj i j d v).engineCounts = s.engineCounts := rfl

@[simp] theorem State.setCtx_pending (s : State) (p ch : Nat) (x : LaceCtx) : (s.setCtx p ch x).pending = s.pending := rfl
@[simp] theorem State.setCtx_calends (s : State) (p ch : Nat) (x : LaceCtx) : (s.setCtx p ch x).calends = s.calends := rfl
@[simp] theorem State.setCtx_countersFrom (s : State) (p ch : Nat) (x : LaceCtx) : (s.setCtx p ch x).countersFrom = s.countersFrom := rfl
@[simp] theorem State.setCtx_free (s : State) (p ch : Nat) (x : LaceCtx) : (s.setCtx p ch x).free = s.free := rfl
@[simp] theorem State.setCtx_part (s : State) (p ch : Nat) (x : LaceCtx) : (s.setCtx p ch x).part = s.part := rfl
@[simp] theorem State.setCtx_mem (s : State) (p ch : Nat) (x : LaceCtx) : (s.setCtx p ch x).mem = s.mem := rfl
@[simp] theorem State.setCtx_tiles (s : State) (p ch : Nat) (x : LaceCtx) : (s.setCtx p ch x).tiles = s.tiles := rfl
@[simp] theorem State.setCtx_seqs (s : State) (p ch : Nat) (x : LaceCtx) : (s.setCtx p ch x).seqs = s.seqs := rfl
@[simp] theorem State.setCtx_net (s : State) (p ch : Nat) (x : LaceCtx) : (s.setCtx p ch x).net = s.net := rfl
@[simp] theorem State.setCtx_dict (s : State) (p ch : Nat) (x : LaceCtx) : (s.setCtx p ch x).dict = s.dict := rfl
@[simp] theorem State.setCtx_light (s : State) (p ch : Nat) (x : LaceCtx) : (s.setCtx p ch x).light = s.light := rfl
@[simp] theorem State.setCtx_rings (s : State) (p ch : Nat) (x : LaceCtx) : (s.setCtx p ch x).rings = s.rings := rfl
@[simp] theorem State.setCtx_parts (s : State) (p ch : Nat) (x : LaceCtx) : (s.setCtx p ch x).parts = s.parts := rfl
@[simp] theorem State.setCtx_selfTestFail (s : State) (p ch : Nat) (x : LaceCtx) : (s.setCtx p ch x).selfTestFail = s.selfTestFail := rfl
@[simp] theorem State.setCtx_disabledTiles (s : State) (p ch : Nat) (x : LaceCtx) : (s.setCtx p ch x).disabledTiles = s.disabledTiles := rfl
@[simp] theorem State.setCtx_weltFailed (s : State) (p ch : Nat) (x : LaceCtx) : (s.setCtx p ch x).weltFailed = s.weltFailed := rfl
@[simp] theorem State.setCtx_hbmCounts (s : State) (p ch : Nat) (x : LaceCtx) : (s.setCtx p ch x).hbmCounts = s.hbmCounts := rfl
@[simp] theorem State.setCtx_hbm (s : State) (p ch : Nat) (x : LaceCtx) : (s.setCtx p ch x).hbm = s.hbm := rfl
@[simp] theorem State.setCtx_hbmFailed (s : State) (p ch : Nat) (x : LaceCtx) : (s.setCtx p ch x).hbmFailed = s.hbmFailed := rfl
@[simp] theorem State.setCtx_hbmTemp (s : State) (p ch : Nat) (x : LaceCtx) : (s.setCtx p ch x).hbmTemp = s.hbmTemp := rfl
@[simp] theorem State.setCtx_scrubs (s : State) (p ch : Nat) (x : LaceCtx) : (s.setCtx p ch x).scrubs = s.scrubs := rfl
@[simp] theorem State.setCtx_memEcc (s : State) (p ch : Nat) (x : LaceCtx) : (s.setCtx p ch x).memEcc = s.memEcc := rfl
@[simp] theorem State.setCtx_engines (s : State) (p ch : Nat) (x : LaceCtx) : (s.setCtx p ch x).engines = s.engines := rfl
@[simp] theorem State.setCtx_copyWait (s : State) (p ch : Nat) (x : LaceCtx) : (s.setCtx p ch x).copyWait = s.copyWait := rfl
@[simp] theorem State.setCtx_serial (s : State) (p ch : Nat) (x : LaceCtx) : (s.setCtx p ch x).serial = s.serial := rfl
@[simp] theorem State.setCtx_host (s : State) (p ch : Nat) (x : LaceCtx) : (s.setCtx p ch x).host = s.host := rfl
@[simp] theorem State.setCtx_newen (s : State) (p ch : Nat) (x : LaceCtx) : (s.setCtx p ch x).newen = s.newen := rfl
@[simp] theorem State.setCtx_loads (s : State) (p ch : Nat) (x : LaceCtx) : (s.setCtx p ch x).loads = s.loads := rfl
@[simp] theorem State.setCtx_shelf (s : State) (p ch : Nat) (x : LaceCtx) : (s.setCtx p ch x).shelf = s.shelf := rfl
@[simp] theorem State.setCtx_power (s : State) (p ch : Nat) (x : LaceCtx) : (s.setCtx p ch x).power = s.power := rfl
@[simp] theorem State.setCtx_vigil (s : State) (p ch : Nat) (x : LaceCtx) : (s.setCtx p ch x).vigil = s.vigil := rfl
@[simp] theorem State.setCtx_almanac (s : State) (p ch : Nat) (x : LaceCtx) : (s.setCtx p ch x).almanac = s.almanac := rfl
@[simp] theorem State.setCtx_test (s : State) (p ch : Nat) (x : LaceCtx) : (s.setCtx p ch x).test = s.test := rfl
@[simp] theorem State.setCtx_tap (s : State) (p ch : Nat) (x : LaceCtx) : (s.setCtx p ch x).tap = s.tap := rfl
@[simp] theorem State.setCtx_engineCounts (s : State) (p ch : Nat) (x : LaceCtx) : (s.setCtx p ch x).engineCounts = s.engineCounts := rfl

@[simp] theorem State.setPort_pending (s : State) (n : Nat) (x : NewenPort) : (s.setPort n x).pending = s.pending := rfl
@[simp] theorem State.setPort_calends (s : State) (n : Nat) (x : NewenPort) : (s.setPort n x).calends = s.calends := rfl
@[simp] theorem State.setPort_countersFrom (s : State) (n : Nat) (x : NewenPort) : (s.setPort n x).countersFrom = s.countersFrom := rfl
@[simp] theorem State.setPort_free (s : State) (n : Nat) (x : NewenPort) : (s.setPort n x).free = s.free := rfl
@[simp] theorem State.setPort_part (s : State) (n : Nat) (x : NewenPort) : (s.setPort n x).part = s.part := rfl
@[simp] theorem State.setPort_mem (s : State) (n : Nat) (x : NewenPort) : (s.setPort n x).mem = s.mem := rfl
@[simp] theorem State.setPort_tiles (s : State) (n : Nat) (x : NewenPort) : (s.setPort n x).tiles = s.tiles := rfl
@[simp] theorem State.setPort_seqs (s : State) (n : Nat) (x : NewenPort) : (s.setPort n x).seqs = s.seqs := rfl
@[simp] theorem State.setPort_lacing (s : State) (n : Nat) (x : NewenPort) : (s.setPort n x).lacing = s.lacing := rfl
@[simp] theorem State.setPort_net (s : State) (n : Nat) (x : NewenPort) : (s.setPort n x).net = s.net := rfl
@[simp] theorem State.setPort_dict (s : State) (n : Nat) (x : NewenPort) : (s.setPort n x).dict = s.dict := rfl
@[simp] theorem State.setPort_light (s : State) (n : Nat) (x : NewenPort) : (s.setPort n x).light = s.light := rfl
@[simp] theorem State.setPort_rings (s : State) (n : Nat) (x : NewenPort) : (s.setPort n x).rings = s.rings := rfl
@[simp] theorem State.setPort_parts (s : State) (n : Nat) (x : NewenPort) : (s.setPort n x).parts = s.parts := rfl
@[simp] theorem State.setPort_selfTestFail (s : State) (n : Nat) (x : NewenPort) : (s.setPort n x).selfTestFail = s.selfTestFail := rfl
@[simp] theorem State.setPort_disabledTiles (s : State) (n : Nat) (x : NewenPort) : (s.setPort n x).disabledTiles = s.disabledTiles := rfl
@[simp] theorem State.setPort_weltFailed (s : State) (n : Nat) (x : NewenPort) : (s.setPort n x).weltFailed = s.weltFailed := rfl
@[simp] theorem State.setPort_hbmCounts (s : State) (n : Nat) (x : NewenPort) : (s.setPort n x).hbmCounts = s.hbmCounts := rfl
@[simp] theorem State.setPort_hbm (s : State) (n : Nat) (x : NewenPort) : (s.setPort n x).hbm = s.hbm := rfl
@[simp] theorem State.setPort_hbmFailed (s : State) (n : Nat) (x : NewenPort) : (s.setPort n x).hbmFailed = s.hbmFailed := rfl
@[simp] theorem State.setPort_hbmTemp (s : State) (n : Nat) (x : NewenPort) : (s.setPort n x).hbmTemp = s.hbmTemp := rfl
@[simp] theorem State.setPort_scrubs (s : State) (n : Nat) (x : NewenPort) : (s.setPort n x).scrubs = s.scrubs := rfl
@[simp] theorem State.setPort_memEcc (s : State) (n : Nat) (x : NewenPort) : (s.setPort n x).memEcc = s.memEcc := rfl
@[simp] theorem State.setPort_engines (s : State) (n : Nat) (x : NewenPort) : (s.setPort n x).engines = s.engines := rfl
@[simp] theorem State.setPort_copyWait (s : State) (n : Nat) (x : NewenPort) : (s.setPort n x).copyWait = s.copyWait := rfl
@[simp] theorem State.setPort_serial (s : State) (n : Nat) (x : NewenPort) : (s.setPort n x).serial = s.serial := rfl
@[simp] theorem State.setPort_host (s : State) (n : Nat) (x : NewenPort) : (s.setPort n x).host = s.host := rfl
@[simp] theorem State.setPort_loads (s : State) (n : Nat) (x : NewenPort) : (s.setPort n x).loads = s.loads := rfl
@[simp] theorem State.setPort_shelf (s : State) (n : Nat) (x : NewenPort) : (s.setPort n x).shelf = s.shelf := rfl
@[simp] theorem State.setPort_power (s : State) (n : Nat) (x : NewenPort) : (s.setPort n x).power = s.power := rfl
@[simp] theorem State.setPort_vigil (s : State) (n : Nat) (x : NewenPort) : (s.setPort n x).vigil = s.vigil := rfl
@[simp] theorem State.setPort_almanac (s : State) (n : Nat) (x : NewenPort) : (s.setPort n x).almanac = s.almanac := rfl
@[simp] theorem State.setPort_test (s : State) (n : Nat) (x : NewenPort) : (s.setPort n x).test = s.test := rfl
@[simp] theorem State.setPort_tap (s : State) (n : Nat) (x : NewenPort) : (s.setPort n x).tap = s.tap := rfl
@[simp] theorem State.setPort_engineCounts (s : State) (n : Nat) (x : NewenPort) : (s.setPort n x).engineCounts = s.engineCounts := rfl

@[simp] theorem State.svcEvent_pending (s : State) (n c p : Nat) : (s.svcEvent n c p).pending = s.pending := rfl
@[simp] theorem State.svcEvent_calends (s : State) (n c p : Nat) : (s.svcEvent n c p).calends = s.calends := rfl
@[simp] theorem State.svcEvent_countersFrom (s : State) (n c p : Nat) : (s.svcEvent n c p).countersFrom = s.countersFrom := rfl
@[simp] theorem State.svcEvent_free (s : State) (n c p : Nat) : (s.svcEvent n c p).free = s.free := rfl
@[simp] theorem State.svcEvent_part (s : State) (n c p : Nat) : (s.svcEvent n c p).part = s.part := rfl
@[simp] theorem State.svcEvent_mem (s : State) (n c p : Nat) : (s.svcEvent n c p).mem = s.mem := rfl
@[simp] theorem State.svcEvent_tiles (s : State) (n c p : Nat) : (s.svcEvent n c p).tiles = s.tiles := rfl
@[simp] theorem State.svcEvent_seqs (s : State) (n c p : Nat) : (s.svcEvent n c p).seqs = s.seqs := rfl
@[simp] theorem State.svcEvent_lacing (s : State) (n c p : Nat) : (s.svcEvent n c p).lacing = s.lacing := rfl
@[simp] theorem State.svcEvent_net (s : State) (n c p : Nat) : (s.svcEvent n c p).net = s.net := rfl
@[simp] theorem State.svcEvent_dict (s : State) (n c p : Nat) : (s.svcEvent n c p).dict = s.dict := rfl
@[simp] theorem State.svcEvent_light (s : State) (n c p : Nat) : (s.svcEvent n c p).light = s.light := rfl
@[simp] theorem State.svcEvent_parts (s : State) (n c p : Nat) : (s.svcEvent n c p).parts = s.parts := rfl
@[simp] theorem State.svcEvent_selfTestFail (s : State) (n c p : Nat) : (s.svcEvent n c p).selfTestFail = s.selfTestFail := rfl
@[simp] theorem State.svcEvent_disabledTiles (s : State) (n c p : Nat) : (s.svcEvent n c p).disabledTiles = s.disabledTiles := rfl
@[simp] theorem State.svcEvent_weltFailed (s : State) (n c p : Nat) : (s.svcEvent n c p).weltFailed = s.weltFailed := rfl
@[simp] theorem State.svcEvent_hbmCounts (s : State) (n c p : Nat) : (s.svcEvent n c p).hbmCounts = s.hbmCounts := rfl
@[simp] theorem State.svcEvent_hbm (s : State) (n c p : Nat) : (s.svcEvent n c p).hbm = s.hbm := rfl
@[simp] theorem State.svcEvent_hbmFailed (s : State) (n c p : Nat) : (s.svcEvent n c p).hbmFailed = s.hbmFailed := rfl
@[simp] theorem State.svcEvent_hbmTemp (s : State) (n c p : Nat) : (s.svcEvent n c p).hbmTemp = s.hbmTemp := rfl
@[simp] theorem State.svcEvent_scrubs (s : State) (n c p : Nat) : (s.svcEvent n c p).scrubs = s.scrubs := rfl
@[simp] theorem State.svcEvent_memEcc (s : State) (n c p : Nat) : (s.svcEvent n c p).memEcc = s.memEcc := rfl
@[simp] theorem State.svcEvent_engines (s : State) (n c p : Nat) : (s.svcEvent n c p).engines = s.engines := rfl
@[simp] theorem State.svcEvent_copyWait (s : State) (n c p : Nat) : (s.svcEvent n c p).copyWait = s.copyWait := rfl
@[simp] theorem State.svcEvent_serial (s : State) (n c p : Nat) : (s.svcEvent n c p).serial = s.serial := rfl
@[simp] theorem State.svcEvent_host (s : State) (n c p : Nat) : (s.svcEvent n c p).host = s.host := rfl
@[simp] theorem State.svcEvent_newen (s : State) (n c p : Nat) : (s.svcEvent n c p).newen = s.newen := rfl
@[simp] theorem State.svcEvent_loads (s : State) (n c p : Nat) : (s.svcEvent n c p).loads = s.loads := rfl
@[simp] theorem State.svcEvent_shelf (s : State) (n c p : Nat) : (s.svcEvent n c p).shelf = s.shelf := rfl
@[simp] theorem State.svcEvent_power (s : State) (n c p : Nat) : (s.svcEvent n c p).power = s.power := rfl
@[simp] theorem State.svcEvent_vigil (s : State) (n c p : Nat) : (s.svcEvent n c p).vigil = s.vigil := rfl
@[simp] theorem State.svcEvent_almanac (s : State) (n c p : Nat) : (s.svcEvent n c p).almanac = s.almanac := rfl
@[simp] theorem State.svcEvent_test (s : State) (n c p : Nat) : (s.svcEvent n c p).test = s.test := rfl
@[simp] theorem State.svcEvent_tap (s : State) (n c p : Nat) : (s.svcEvent n c p).tap = s.tap := rfl
@[simp] theorem State.svcEvent_engineCounts (s : State) (n c p : Nat) : (s.svcEvent n c p).engineCounts = s.engineCounts := rfl

@[simp] theorem State.lightBump_pending (s : State) (c w n : Nat) : (s.lightBump c w n).pending = s.pending := rfl
@[simp] theorem State.lightBump_calends (s : State) (c w n : Nat) : (s.lightBump c w n).calends = s.calends := rfl
@[simp] theorem State.lightBump_countersFrom (s : State) (c w n : Nat) : (s.lightBump c w n).countersFrom = s.countersFrom := rfl
@[simp] theorem State.lightBump_free (s : State) (c w n : Nat) : (s.lightBump c w n).free = s.free := rfl
@[simp] theorem State.lightBump_part (s : State) (c w n : Nat) : (s.lightBump c w n).part = s.part := rfl
@[simp] theorem State.lightBump_mem (s : State) (c w n : Nat) : (s.lightBump c w n).mem = s.mem := rfl
@[simp] theorem State.lightBump_tiles (s : State) (c w n : Nat) : (s.lightBump c w n).tiles = s.tiles := rfl
@[simp] theorem State.lightBump_seqs (s : State) (c w n : Nat) : (s.lightBump c w n).seqs = s.seqs := rfl
@[simp] theorem State.lightBump_lacing (s : State) (c w n : Nat) : (s.lightBump c w n).lacing = s.lacing := rfl
@[simp] theorem State.lightBump_net (s : State) (c w n : Nat) : (s.lightBump c w n).net = s.net := rfl
@[simp] theorem State.lightBump_dict (s : State) (c w n : Nat) : (s.lightBump c w n).dict = s.dict := rfl
@[simp] theorem State.lightBump_rings (s : State) (c w n : Nat) : (s.lightBump c w n).rings = s.rings := rfl
@[simp] theorem State.lightBump_parts (s : State) (c w n : Nat) : (s.lightBump c w n).parts = s.parts := rfl
@[simp] theorem State.lightBump_selfTestFail (s : State) (c w n : Nat) : (s.lightBump c w n).selfTestFail = s.selfTestFail := rfl
@[simp] theorem State.lightBump_disabledTiles (s : State) (c w n : Nat) : (s.lightBump c w n).disabledTiles = s.disabledTiles := rfl
@[simp] theorem State.lightBump_weltFailed (s : State) (c w n : Nat) : (s.lightBump c w n).weltFailed = s.weltFailed := rfl
@[simp] theorem State.lightBump_hbmCounts (s : State) (c w n : Nat) : (s.lightBump c w n).hbmCounts = s.hbmCounts := rfl
@[simp] theorem State.lightBump_hbm (s : State) (c w n : Nat) : (s.lightBump c w n).hbm = s.hbm := rfl
@[simp] theorem State.lightBump_hbmFailed (s : State) (c w n : Nat) : (s.lightBump c w n).hbmFailed = s.hbmFailed := rfl
@[simp] theorem State.lightBump_hbmTemp (s : State) (c w n : Nat) : (s.lightBump c w n).hbmTemp = s.hbmTemp := rfl
@[simp] theorem State.lightBump_scrubs (s : State) (c w n : Nat) : (s.lightBump c w n).scrubs = s.scrubs := rfl
@[simp] theorem State.lightBump_memEcc (s : State) (c w n : Nat) : (s.lightBump c w n).memEcc = s.memEcc := rfl
@[simp] theorem State.lightBump_engines (s : State) (c w n : Nat) : (s.lightBump c w n).engines = s.engines := rfl
@[simp] theorem State.lightBump_copyWait (s : State) (c w n : Nat) : (s.lightBump c w n).copyWait = s.copyWait := rfl
@[simp] theorem State.lightBump_serial (s : State) (c w n : Nat) : (s.lightBump c w n).serial = s.serial := rfl
@[simp] theorem State.lightBump_host (s : State) (c w n : Nat) : (s.lightBump c w n).host = s.host := rfl
@[simp] theorem State.lightBump_newen (s : State) (c w n : Nat) : (s.lightBump c w n).newen = s.newen := rfl
@[simp] theorem State.lightBump_loads (s : State) (c w n : Nat) : (s.lightBump c w n).loads = s.loads := rfl
@[simp] theorem State.lightBump_shelf (s : State) (c w n : Nat) : (s.lightBump c w n).shelf = s.shelf := rfl
@[simp] theorem State.lightBump_power (s : State) (c w n : Nat) : (s.lightBump c w n).power = s.power := rfl
@[simp] theorem State.lightBump_vigil (s : State) (c w n : Nat) : (s.lightBump c w n).vigil = s.vigil := rfl
@[simp] theorem State.lightBump_almanac (s : State) (c w n : Nat) : (s.lightBump c w n).almanac = s.almanac := rfl
@[simp] theorem State.lightBump_test (s : State) (c w n : Nat) : (s.lightBump c w n).test = s.test := rfl
@[simp] theorem State.lightBump_tap (s : State) (c w n : Nat) : (s.lightBump c w n).tap = s.tap := rfl
@[simp] theorem State.lightBump_engineCounts (s : State) (c w n : Nat) : (s.lightBump c w n).engineCounts = s.engineCounts := rfl

@[simp] theorem State.zero_pending (s : State) (a n : Nat) : (s.zero a n).pending = s.pending := rfl
@[simp] theorem State.zero_calends (s : State) (a n : Nat) : (s.zero a n).calends = s.calends := rfl
@[simp] theorem State.zero_countersFrom (s : State) (a n : Nat) : (s.zero a n).countersFrom = s.countersFrom := rfl
@[simp] theorem State.zero_free (s : State) (a n : Nat) : (s.zero a n).free = s.free := rfl
@[simp] theorem State.zero_part (s : State) (a n : Nat) : (s.zero a n).part = s.part := rfl
@[simp] theorem State.zero_tiles (s : State) (a n : Nat) : (s.zero a n).tiles = s.tiles := rfl
@[simp] theorem State.zero_seqs (s : State) (a n : Nat) : (s.zero a n).seqs = s.seqs := rfl
@[simp] theorem State.zero_lacing (s : State) (a n : Nat) : (s.zero a n).lacing = s.lacing := rfl
@[simp] theorem State.zero_net (s : State) (a n : Nat) : (s.zero a n).net = s.net := rfl
@[simp] theorem State.zero_dict (s : State) (a n : Nat) : (s.zero a n).dict = s.dict := rfl
@[simp] theorem State.zero_light (s : State) (a n : Nat) : (s.zero a n).light = s.light := rfl
@[simp] theorem State.zero_rings (s : State) (a n : Nat) : (s.zero a n).rings = s.rings := rfl
@[simp] theorem State.zero_parts (s : State) (a n : Nat) : (s.zero a n).parts = s.parts := rfl
@[simp] theorem State.zero_selfTestFail (s : State) (a n : Nat) : (s.zero a n).selfTestFail = s.selfTestFail := rfl
@[simp] theorem State.zero_disabledTiles (s : State) (a n : Nat) : (s.zero a n).disabledTiles = s.disabledTiles := rfl
@[simp] theorem State.zero_weltFailed (s : State) (a n : Nat) : (s.zero a n).weltFailed = s.weltFailed := rfl
@[simp] theorem State.zero_hbmCounts (s : State) (a n : Nat) : (s.zero a n).hbmCounts = s.hbmCounts := rfl
@[simp] theorem State.zero_hbm (s : State) (a n : Nat) : (s.zero a n).hbm = s.hbm := rfl
@[simp] theorem State.zero_hbmFailed (s : State) (a n : Nat) : (s.zero a n).hbmFailed = s.hbmFailed := rfl
@[simp] theorem State.zero_hbmTemp (s : State) (a n : Nat) : (s.zero a n).hbmTemp = s.hbmTemp := rfl
@[simp] theorem State.zero_scrubs (s : State) (a n : Nat) : (s.zero a n).scrubs = s.scrubs := rfl
@[simp] theorem State.zero_memEcc (s : State) (a n : Nat) : (s.zero a n).memEcc = s.memEcc := rfl
@[simp] theorem State.zero_engines (s : State) (a n : Nat) : (s.zero a n).engines = s.engines := rfl
@[simp] theorem State.zero_copyWait (s : State) (a n : Nat) : (s.zero a n).copyWait = s.copyWait := rfl
@[simp] theorem State.zero_serial (s : State) (a n : Nat) : (s.zero a n).serial = s.serial := rfl
@[simp] theorem State.zero_host (s : State) (a n : Nat) : (s.zero a n).host = s.host := rfl
@[simp] theorem State.zero_newen (s : State) (a n : Nat) : (s.zero a n).newen = s.newen := rfl
@[simp] theorem State.zero_loads (s : State) (a n : Nat) : (s.zero a n).loads = s.loads := rfl
@[simp] theorem State.zero_shelf (s : State) (a n : Nat) : (s.zero a n).shelf = s.shelf := rfl
@[simp] theorem State.zero_power (s : State) (a n : Nat) : (s.zero a n).power = s.power := rfl
@[simp] theorem State.zero_vigil (s : State) (a n : Nat) : (s.zero a n).vigil = s.vigil := rfl
@[simp] theorem State.zero_almanac (s : State) (a n : Nat) : (s.zero a n).almanac = s.almanac := rfl
@[simp] theorem State.zero_test (s : State) (a n : Nat) : (s.zero a n).test = s.test := rfl
@[simp] theorem State.zero_tap (s : State) (a n : Nat) : (s.zero a n).tap = s.tap := rfl
@[simp] theorem State.zero_engineCounts (s : State) (a n : Nat) : (s.zero a n).engineCounts = s.engineCounts := rfl

/-! ### Updates of a tile -/

@[simp] theorem Tile.setG_vq (x : Tile) (n : BitVec 4) (v : GReg) : (x.setG n v).vq = x.vq := rfl
@[simp] theorem Tile.setG_m (x : Tile) (n : BitVec 4) (v : GReg) : (x.setG n v).m = x.m := rfl
@[simp] theorem Tile.setG_pc (x : Tile) (n : BitVec 4) (v : GReg) : (x.setG n v).pc = x.pc := rfl
@[simp] theorem Tile.setG_loops (x : Tile) (n : BitVec 4) (v : GReg) : (x.setG n v).loops = x.loops := rfl
@[simp] theorem Tile.setG_held (x : Tile) (n : BitVec 4) (v : GReg) : (x.setG n v).held = x.held := rfl
@[simp] theorem Tile.setG_progLen (x : Tile) (n : BitVec 4) (v : GReg) : (x.setG n v).progLen = x.progLen := rfl
@[simp] theorem Tile.setG_role (x : Tile) (n : BitVec 4) (v : GReg) : (x.setG n v).role = x.role := rfl
@[simp] theorem Tile.setG_kind0 (x : Tile) (n : BitVec 4) (v : GReg) : (x.setG n v).kind0 = x.kind0 := rfl
@[simp] theorem Tile.setG_kind1 (x : Tile) (n : BitVec 4) (v : GReg) : (x.setG n v).kind1 = x.kind1 := rfl
@[simp] theorem Tile.setG_early0 (x : Tile) (n : BitVec 4) (v : GReg) : (x.setG n v).early0 = x.early0 := rfl
@[simp] theorem Tile.setG_early1 (x : Tile) (n : BitVec 4) (v : GReg) : (x.setG n v).early1 = x.early1 := rfl
@[simp] theorem Tile.setG_flags (x : Tile) (n : BitVec 4) (v : GReg) : (x.setG n v).flags = x.flags := rfl
@[simp] theorem Tile.setG_accPoison (x : Tile) (n : BitVec 4) (v : GReg) : (x.setG n v).accPoison = x.accPoison := rfl
@[simp] theorem Tile.setG_mmaRun (x : Tile) (n : BitVec 4) (v : GReg) : (x.setG n v).mmaRun = x.mmaRun := rfl
@[simp] theorem Tile.setG_mmaQueue (x : Tile) (n : BitVec 4) (v : GReg) : (x.setG n v).mmaQueue = x.mmaQueue := rfl
@[simp] theorem Tile.setG_drainRun (x : Tile) (n : BitVec 4) (v : GReg) : (x.setG n v).drainRun = x.drainRun := rfl
@[simp] theorem Tile.setG_drainQueue (x : Tile) (n : BitVec 4) (v : GReg) : (x.setG n v).drainQueue = x.drainQueue := rfl
@[simp] theorem Tile.setG_xfers (x : Tile) (n : BitVec 4) (v : GReg) : (x.setG n v).xfers = x.xfers := rfl
@[simp] theorem Tile.setG_issueSeq (x : Tile) (n : BitVec 4) (v : GReg) : (x.setG n v).issueSeq = x.issueSeq := rfl
@[simp] theorem Tile.setG_laces (x : Tile) (n : BitVec 4) (v : GReg) : (x.setG n v).laces = x.laces := rfl
@[simp] theorem Tile.setG_tincs (x : Tile) (n : BitVec 4) (v : GReg) : (x.setG n v).tincs = x.tincs := rfl
@[simp] theorem Tile.setG_watch (x : Tile) (n : BitVec 4) (v : GReg) : (x.setG n v).watch = x.watch := rfl
@[simp] theorem Tile.setG_asyncFaults (x : Tile) (n : BitVec 4) (v : GReg) : (x.setG n v).asyncFaults = x.asyncFaults := rfl
@[simp] theorem Tile.setG_fault (x : Tile) (n : BitVec 4) (v : GReg) : (x.setG n v).fault = x.fault := rfl
@[simp] theorem Tile.setG_task (x : Tile) (n : BitVec 4) (v : GReg) : (x.setG n v).task = x.task := rfl
@[simp] theorem Tile.setG_ended (x : Tile) (n : BitVec 4) (v : GReg) : (x.setG n v).ended = x.ended := rfl
@[simp] theorem Tile.setG_stopped (x : Tile) (n : BitVec 4) (v : GReg) : (x.setG n v).stopped = x.stopped := rfl
@[simp] theorem Tile.setG_eccSeen (x : Tile) (n : BitVec 4) (v : GReg) : (x.setG n v).eccSeen = x.eccSeen := rfl
@[simp] theorem Tile.setG_withdrawn (x : Tile) (n : BitVec 4) (v : GReg) : (x.setG n v).withdrawn = x.withdrawn := rfl
@[simp] theorem Tile.setG_keyAt (x : Tile) (n : BitVec 4) (v : GReg) : (x.setG n v).keyAt = x.keyAt := rfl
@[simp] theorem Tile.setG_bcast (x : Tile) (n : BitVec 4) (v : GReg) : (x.setG n v).bcast = x.bcast := rfl
@[simp] theorem Tile.setG_counters (x : Tile) (n : BitVec 4) (v : GReg) : (x.setG n v).counters = x.counters := rfl
@[simp] theorem Tile.setG_ring (x : Tile) (n : BitVec 4) (v : GReg) : (x.setG n v).ring = x.ring := rfl
@[simp] theorem Tile.setG_block (x : Tile) (n : BitVec 4) (v : GReg) : (x.setG n v).block = x.block := rfl
@[simp] theorem Tile.setG_priv (x : Tile) (n : BitVec 4) (v : GReg) : (x.setG n v).priv = x.priv := rfl

@[simp] theorem Tile.setV_g (x : Tile) (n : BitVec 4) (v : VReg) : (x.setV n v).g = x.g := rfl
@[simp] theorem Tile.setV_m (x : Tile) (n : BitVec 4) (v : VReg) : (x.setV n v).m = x.m := rfl
@[simp] theorem Tile.setV_pc (x : Tile) (n : BitVec 4) (v : VReg) : (x.setV n v).pc = x.pc := rfl
@[simp] theorem Tile.setV_loops (x : Tile) (n : BitVec 4) (v : VReg) : (x.setV n v).loops = x.loops := rfl
@[simp] theorem Tile.setV_held (x : Tile) (n : BitVec 4) (v : VReg) : (x.setV n v).held = x.held := rfl
@[simp] theorem Tile.setV_progLen (x : Tile) (n : BitVec 4) (v : VReg) : (x.setV n v).progLen = x.progLen := rfl
@[simp] theorem Tile.setV_role (x : Tile) (n : BitVec 4) (v : VReg) : (x.setV n v).role = x.role := rfl
@[simp] theorem Tile.setV_kind0 (x : Tile) (n : BitVec 4) (v : VReg) : (x.setV n v).kind0 = x.kind0 := rfl
@[simp] theorem Tile.setV_kind1 (x : Tile) (n : BitVec 4) (v : VReg) : (x.setV n v).kind1 = x.kind1 := rfl
@[simp] theorem Tile.setV_early0 (x : Tile) (n : BitVec 4) (v : VReg) : (x.setV n v).early0 = x.early0 := rfl
@[simp] theorem Tile.setV_early1 (x : Tile) (n : BitVec 4) (v : VReg) : (x.setV n v).early1 = x.early1 := rfl
@[simp] theorem Tile.setV_flags (x : Tile) (n : BitVec 4) (v : VReg) : (x.setV n v).flags = x.flags := rfl
@[simp] theorem Tile.setV_accPoison (x : Tile) (n : BitVec 4) (v : VReg) : (x.setV n v).accPoison = x.accPoison := rfl
@[simp] theorem Tile.setV_mmaRun (x : Tile) (n : BitVec 4) (v : VReg) : (x.setV n v).mmaRun = x.mmaRun := rfl
@[simp] theorem Tile.setV_mmaQueue (x : Tile) (n : BitVec 4) (v : VReg) : (x.setV n v).mmaQueue = x.mmaQueue := rfl
@[simp] theorem Tile.setV_drainRun (x : Tile) (n : BitVec 4) (v : VReg) : (x.setV n v).drainRun = x.drainRun := rfl
@[simp] theorem Tile.setV_drainQueue (x : Tile) (n : BitVec 4) (v : VReg) : (x.setV n v).drainQueue = x.drainQueue := rfl
@[simp] theorem Tile.setV_xfers (x : Tile) (n : BitVec 4) (v : VReg) : (x.setV n v).xfers = x.xfers := rfl
@[simp] theorem Tile.setV_issueSeq (x : Tile) (n : BitVec 4) (v : VReg) : (x.setV n v).issueSeq = x.issueSeq := rfl
@[simp] theorem Tile.setV_laces (x : Tile) (n : BitVec 4) (v : VReg) : (x.setV n v).laces = x.laces := rfl
@[simp] theorem Tile.setV_tincs (x : Tile) (n : BitVec 4) (v : VReg) : (x.setV n v).tincs = x.tincs := rfl
@[simp] theorem Tile.setV_watch (x : Tile) (n : BitVec 4) (v : VReg) : (x.setV n v).watch = x.watch := rfl
@[simp] theorem Tile.setV_asyncFaults (x : Tile) (n : BitVec 4) (v : VReg) : (x.setV n v).asyncFaults = x.asyncFaults := rfl
@[simp] theorem Tile.setV_fault (x : Tile) (n : BitVec 4) (v : VReg) : (x.setV n v).fault = x.fault := rfl
@[simp] theorem Tile.setV_task (x : Tile) (n : BitVec 4) (v : VReg) : (x.setV n v).task = x.task := rfl
@[simp] theorem Tile.setV_ended (x : Tile) (n : BitVec 4) (v : VReg) : (x.setV n v).ended = x.ended := rfl
@[simp] theorem Tile.setV_stopped (x : Tile) (n : BitVec 4) (v : VReg) : (x.setV n v).stopped = x.stopped := rfl
@[simp] theorem Tile.setV_eccSeen (x : Tile) (n : BitVec 4) (v : VReg) : (x.setV n v).eccSeen = x.eccSeen := rfl
@[simp] theorem Tile.setV_withdrawn (x : Tile) (n : BitVec 4) (v : VReg) : (x.setV n v).withdrawn = x.withdrawn := rfl
@[simp] theorem Tile.setV_keyAt (x : Tile) (n : BitVec 4) (v : VReg) : (x.setV n v).keyAt = x.keyAt := rfl
@[simp] theorem Tile.setV_bcast (x : Tile) (n : BitVec 4) (v : VReg) : (x.setV n v).bcast = x.bcast := rfl
@[simp] theorem Tile.setV_counters (x : Tile) (n : BitVec 4) (v : VReg) : (x.setV n v).counters = x.counters := rfl
@[simp] theorem Tile.setV_ring (x : Tile) (n : BitVec 4) (v : VReg) : (x.setV n v).ring = x.ring := rfl
@[simp] theorem Tile.setV_block (x : Tile) (n : BitVec 4) (v : VReg) : (x.setV n v).block = x.block := rfl
@[simp] theorem Tile.setV_priv (x : Tile) (n : BitVec 4) (v : VReg) : (x.setV n v).priv = x.priv := rfl

@[simp] theorem Tile.setM_g (x : Tile) (n : Nat) (v : MReg) : (x.setM n v).g = x.g := rfl
@[simp] theorem Tile.setM_vq (x : Tile) (n : Nat) (v : MReg) : (x.setM n v).vq = x.vq := rfl
@[simp] theorem Tile.setM_pc (x : Tile) (n : Nat) (v : MReg) : (x.setM n v).pc = x.pc := rfl
@[simp] theorem Tile.setM_loops (x : Tile) (n : Nat) (v : MReg) : (x.setM n v).loops = x.loops := rfl
@[simp] theorem Tile.setM_held (x : Tile) (n : Nat) (v : MReg) : (x.setM n v).held = x.held := rfl
@[simp] theorem Tile.setM_progLen (x : Tile) (n : Nat) (v : MReg) : (x.setM n v).progLen = x.progLen := rfl
@[simp] theorem Tile.setM_role (x : Tile) (n : Nat) (v : MReg) : (x.setM n v).role = x.role := rfl
@[simp] theorem Tile.setM_kind0 (x : Tile) (n : Nat) (v : MReg) : (x.setM n v).kind0 = x.kind0 := rfl
@[simp] theorem Tile.setM_kind1 (x : Tile) (n : Nat) (v : MReg) : (x.setM n v).kind1 = x.kind1 := rfl
@[simp] theorem Tile.setM_early0 (x : Tile) (n : Nat) (v : MReg) : (x.setM n v).early0 = x.early0 := rfl
@[simp] theorem Tile.setM_early1 (x : Tile) (n : Nat) (v : MReg) : (x.setM n v).early1 = x.early1 := rfl
@[simp] theorem Tile.setM_flags (x : Tile) (n : Nat) (v : MReg) : (x.setM n v).flags = x.flags := rfl
@[simp] theorem Tile.setM_accPoison (x : Tile) (n : Nat) (v : MReg) : (x.setM n v).accPoison = x.accPoison := rfl
@[simp] theorem Tile.setM_mmaRun (x : Tile) (n : Nat) (v : MReg) : (x.setM n v).mmaRun = x.mmaRun := rfl
@[simp] theorem Tile.setM_mmaQueue (x : Tile) (n : Nat) (v : MReg) : (x.setM n v).mmaQueue = x.mmaQueue := rfl
@[simp] theorem Tile.setM_drainRun (x : Tile) (n : Nat) (v : MReg) : (x.setM n v).drainRun = x.drainRun := rfl
@[simp] theorem Tile.setM_drainQueue (x : Tile) (n : Nat) (v : MReg) : (x.setM n v).drainQueue = x.drainQueue := rfl
@[simp] theorem Tile.setM_xfers (x : Tile) (n : Nat) (v : MReg) : (x.setM n v).xfers = x.xfers := rfl
@[simp] theorem Tile.setM_issueSeq (x : Tile) (n : Nat) (v : MReg) : (x.setM n v).issueSeq = x.issueSeq := rfl
@[simp] theorem Tile.setM_laces (x : Tile) (n : Nat) (v : MReg) : (x.setM n v).laces = x.laces := rfl
@[simp] theorem Tile.setM_tincs (x : Tile) (n : Nat) (v : MReg) : (x.setM n v).tincs = x.tincs := rfl
@[simp] theorem Tile.setM_watch (x : Tile) (n : Nat) (v : MReg) : (x.setM n v).watch = x.watch := rfl
@[simp] theorem Tile.setM_asyncFaults (x : Tile) (n : Nat) (v : MReg) : (x.setM n v).asyncFaults = x.asyncFaults := rfl
@[simp] theorem Tile.setM_fault (x : Tile) (n : Nat) (v : MReg) : (x.setM n v).fault = x.fault := rfl
@[simp] theorem Tile.setM_task (x : Tile) (n : Nat) (v : MReg) : (x.setM n v).task = x.task := rfl
@[simp] theorem Tile.setM_ended (x : Tile) (n : Nat) (v : MReg) : (x.setM n v).ended = x.ended := rfl
@[simp] theorem Tile.setM_stopped (x : Tile) (n : Nat) (v : MReg) : (x.setM n v).stopped = x.stopped := rfl
@[simp] theorem Tile.setM_eccSeen (x : Tile) (n : Nat) (v : MReg) : (x.setM n v).eccSeen = x.eccSeen := rfl
@[simp] theorem Tile.setM_withdrawn (x : Tile) (n : Nat) (v : MReg) : (x.setM n v).withdrawn = x.withdrawn := rfl
@[simp] theorem Tile.setM_keyAt (x : Tile) (n : Nat) (v : MReg) : (x.setM n v).keyAt = x.keyAt := rfl
@[simp] theorem Tile.setM_bcast (x : Tile) (n : Nat) (v : MReg) : (x.setM n v).bcast = x.bcast := rfl
@[simp] theorem Tile.setM_counters (x : Tile) (n : Nat) (v : MReg) : (x.setM n v).counters = x.counters := rfl
@[simp] theorem Tile.setM_ring (x : Tile) (n : Nat) (v : MReg) : (x.setM n v).ring = x.ring := rfl
@[simp] theorem Tile.setM_block (x : Tile) (n : Nat) (v : MReg) : (x.setM n v).block = x.block := rfl
@[simp] theorem Tile.setM_priv (x : Tile) (n : Nat) (v : MReg) : (x.setM n v).priv = x.priv := rfl

@[simp] theorem Tile.count_g (x : Tile) (w n : Nat) : (x.count w n).g = x.g := rfl
@[simp] theorem Tile.count_vq (x : Tile) (w n : Nat) : (x.count w n).vq = x.vq := rfl
@[simp] theorem Tile.count_m (x : Tile) (w n : Nat) : (x.count w n).m = x.m := rfl
@[simp] theorem Tile.count_pc (x : Tile) (w n : Nat) : (x.count w n).pc = x.pc := rfl
@[simp] theorem Tile.count_loops (x : Tile) (w n : Nat) : (x.count w n).loops = x.loops := rfl
@[simp] theorem Tile.count_held (x : Tile) (w n : Nat) : (x.count w n).held = x.held := rfl
@[simp] theorem Tile.count_progLen (x : Tile) (w n : Nat) : (x.count w n).progLen = x.progLen := rfl
@[simp] theorem Tile.count_role (x : Tile) (w n : Nat) : (x.count w n).role = x.role := rfl
@[simp] theorem Tile.count_kind0 (x : Tile) (w n : Nat) : (x.count w n).kind0 = x.kind0 := rfl
@[simp] theorem Tile.count_kind1 (x : Tile) (w n : Nat) : (x.count w n).kind1 = x.kind1 := rfl
@[simp] theorem Tile.count_early0 (x : Tile) (w n : Nat) : (x.count w n).early0 = x.early0 := rfl
@[simp] theorem Tile.count_early1 (x : Tile) (w n : Nat) : (x.count w n).early1 = x.early1 := rfl
@[simp] theorem Tile.count_flags (x : Tile) (w n : Nat) : (x.count w n).flags = x.flags := rfl
@[simp] theorem Tile.count_accPoison (x : Tile) (w n : Nat) : (x.count w n).accPoison = x.accPoison := rfl
@[simp] theorem Tile.count_mmaRun (x : Tile) (w n : Nat) : (x.count w n).mmaRun = x.mmaRun := rfl
@[simp] theorem Tile.count_mmaQueue (x : Tile) (w n : Nat) : (x.count w n).mmaQueue = x.mmaQueue := rfl
@[simp] theorem Tile.count_drainRun (x : Tile) (w n : Nat) : (x.count w n).drainRun = x.drainRun := rfl
@[simp] theorem Tile.count_drainQueue (x : Tile) (w n : Nat) : (x.count w n).drainQueue = x.drainQueue := rfl
@[simp] theorem Tile.count_xfers (x : Tile) (w n : Nat) : (x.count w n).xfers = x.xfers := rfl
@[simp] theorem Tile.count_issueSeq (x : Tile) (w n : Nat) : (x.count w n).issueSeq = x.issueSeq := rfl
@[simp] theorem Tile.count_laces (x : Tile) (w n : Nat) : (x.count w n).laces = x.laces := rfl
@[simp] theorem Tile.count_tincs (x : Tile) (w n : Nat) : (x.count w n).tincs = x.tincs := rfl
@[simp] theorem Tile.count_watch (x : Tile) (w n : Nat) : (x.count w n).watch = x.watch := rfl
@[simp] theorem Tile.count_asyncFaults (x : Tile) (w n : Nat) : (x.count w n).asyncFaults = x.asyncFaults := rfl
@[simp] theorem Tile.count_fault (x : Tile) (w n : Nat) : (x.count w n).fault = x.fault := rfl
@[simp] theorem Tile.count_task (x : Tile) (w n : Nat) : (x.count w n).task = x.task := rfl
@[simp] theorem Tile.count_ended (x : Tile) (w n : Nat) : (x.count w n).ended = x.ended := rfl
@[simp] theorem Tile.count_stopped (x : Tile) (w n : Nat) : (x.count w n).stopped = x.stopped := rfl
@[simp] theorem Tile.count_eccSeen (x : Tile) (w n : Nat) : (x.count w n).eccSeen = x.eccSeen := rfl
@[simp] theorem Tile.count_withdrawn (x : Tile) (w n : Nat) : (x.count w n).withdrawn = x.withdrawn := rfl
@[simp] theorem Tile.count_keyAt (x : Tile) (w n : Nat) : (x.count w n).keyAt = x.keyAt := rfl
@[simp] theorem Tile.count_bcast (x : Tile) (w n : Nat) : (x.count w n).bcast = x.bcast := rfl
@[simp] theorem Tile.count_ring (x : Tile) (w n : Nat) : (x.count w n).ring = x.ring := rfl
@[simp] theorem Tile.count_block (x : Tile) (w n : Nat) : (x.count w n).block = x.block := rfl
@[simp] theorem Tile.count_priv (x : Tile) (w n : Nat) : (x.count w n).priv = x.priv := rfl

@[simp] theorem Tile.stall_g (x : Tile) (r : Nat) : (x.stall r).g = x.g := rfl
@[simp] theorem Tile.stall_vq (x : Tile) (r : Nat) : (x.stall r).vq = x.vq := rfl
@[simp] theorem Tile.stall_m (x : Tile) (r : Nat) : (x.stall r).m = x.m := rfl
@[simp] theorem Tile.stall_pc (x : Tile) (r : Nat) : (x.stall r).pc = x.pc := rfl
@[simp] theorem Tile.stall_loops (x : Tile) (r : Nat) : (x.stall r).loops = x.loops := rfl
@[simp] theorem Tile.stall_progLen (x : Tile) (r : Nat) : (x.stall r).progLen = x.progLen := rfl
@[simp] theorem Tile.stall_role (x : Tile) (r : Nat) : (x.stall r).role = x.role := rfl
@[simp] theorem Tile.stall_kind0 (x : Tile) (r : Nat) : (x.stall r).kind0 = x.kind0 := rfl
@[simp] theorem Tile.stall_kind1 (x : Tile) (r : Nat) : (x.stall r).kind1 = x.kind1 := rfl
@[simp] theorem Tile.stall_early0 (x : Tile) (r : Nat) : (x.stall r).early0 = x.early0 := rfl
@[simp] theorem Tile.stall_early1 (x : Tile) (r : Nat) : (x.stall r).early1 = x.early1 := rfl
@[simp] theorem Tile.stall_flags (x : Tile) (r : Nat) : (x.stall r).flags = x.flags := rfl
@[simp] theorem Tile.stall_accPoison (x : Tile) (r : Nat) : (x.stall r).accPoison = x.accPoison := rfl
@[simp] theorem Tile.stall_mmaRun (x : Tile) (r : Nat) : (x.stall r).mmaRun = x.mmaRun := rfl
@[simp] theorem Tile.stall_mmaQueue (x : Tile) (r : Nat) : (x.stall r).mmaQueue = x.mmaQueue := rfl
@[simp] theorem Tile.stall_drainRun (x : Tile) (r : Nat) : (x.stall r).drainRun = x.drainRun := rfl
@[simp] theorem Tile.stall_drainQueue (x : Tile) (r : Nat) : (x.stall r).drainQueue = x.drainQueue := rfl
@[simp] theorem Tile.stall_xfers (x : Tile) (r : Nat) : (x.stall r).xfers = x.xfers := rfl
@[simp] theorem Tile.stall_issueSeq (x : Tile) (r : Nat) : (x.stall r).issueSeq = x.issueSeq := rfl
@[simp] theorem Tile.stall_laces (x : Tile) (r : Nat) : (x.stall r).laces = x.laces := rfl
@[simp] theorem Tile.stall_tincs (x : Tile) (r : Nat) : (x.stall r).tincs = x.tincs := rfl
@[simp] theorem Tile.stall_watch (x : Tile) (r : Nat) : (x.stall r).watch = x.watch := rfl
@[simp] theorem Tile.stall_asyncFaults (x : Tile) (r : Nat) : (x.stall r).asyncFaults = x.asyncFaults := rfl
@[simp] theorem Tile.stall_fault (x : Tile) (r : Nat) : (x.stall r).fault = x.fault := rfl
@[simp] theorem Tile.stall_task (x : Tile) (r : Nat) : (x.stall r).task = x.task := rfl
@[simp] theorem Tile.stall_ended (x : Tile) (r : Nat) : (x.stall r).ended = x.ended := rfl
@[simp] theorem Tile.stall_stopped (x : Tile) (r : Nat) : (x.stall r).stopped = x.stopped := rfl
@[simp] theorem Tile.stall_eccSeen (x : Tile) (r : Nat) : (x.stall r).eccSeen = x.eccSeen := rfl
@[simp] theorem Tile.stall_withdrawn (x : Tile) (r : Nat) : (x.stall r).withdrawn = x.withdrawn := rfl
@[simp] theorem Tile.stall_keyAt (x : Tile) (r : Nat) : (x.stall r).keyAt = x.keyAt := rfl
@[simp] theorem Tile.stall_bcast (x : Tile) (r : Nat) : (x.stall r).bcast = x.bcast := rfl
@[simp] theorem Tile.stall_ring (x : Tile) (r : Nat) : (x.stall r).ring = x.ring := rfl
@[simp] theorem Tile.stall_block (x : Tile) (r : Nat) : (x.stall r).block = x.block := rfl
@[simp] theorem Tile.stall_priv (x : Tile) (r : Nat) : (x.stall r).priv = x.priv := rfl

@[simp] theorem Tile.goto_g (x : Tile) (pc : Nat) (l : List LoopState) : (x.goto pc l).g = x.g := rfl
@[simp] theorem Tile.goto_vq (x : Tile) (pc : Nat) (l : List LoopState) : (x.goto pc l).vq = x.vq := rfl
@[simp] theorem Tile.goto_m (x : Tile) (pc : Nat) (l : List LoopState) : (x.goto pc l).m = x.m := rfl
@[simp] theorem Tile.goto_progLen (x : Tile) (pc : Nat) (l : List LoopState) : (x.goto pc l).progLen = x.progLen := rfl
@[simp] theorem Tile.goto_role (x : Tile) (pc : Nat) (l : List LoopState) : (x.goto pc l).role = x.role := rfl
@[simp] theorem Tile.goto_kind0 (x : Tile) (pc : Nat) (l : List LoopState) : (x.goto pc l).kind0 = x.kind0 := rfl
@[simp] theorem Tile.goto_kind1 (x : Tile) (pc : Nat) (l : List LoopState) : (x.goto pc l).kind1 = x.kind1 := rfl
@[simp] theorem Tile.goto_early0 (x : Tile) (pc : Nat) (l : List LoopState) : (x.goto pc l).early0 = x.early0 := rfl
@[simp] theorem Tile.goto_early1 (x : Tile) (pc : Nat) (l : List LoopState) : (x.goto pc l).early1 = x.early1 := rfl
@[simp] theorem Tile.goto_flags (x : Tile) (pc : Nat) (l : List LoopState) : (x.goto pc l).flags = x.flags := rfl
@[simp] theorem Tile.goto_accPoison (x : Tile) (pc : Nat) (l : List LoopState) : (x.goto pc l).accPoison = x.accPoison := rfl
@[simp] theorem Tile.goto_mmaRun (x : Tile) (pc : Nat) (l : List LoopState) : (x.goto pc l).mmaRun = x.mmaRun := rfl
@[simp] theorem Tile.goto_mmaQueue (x : Tile) (pc : Nat) (l : List LoopState) : (x.goto pc l).mmaQueue = x.mmaQueue := rfl
@[simp] theorem Tile.goto_drainRun (x : Tile) (pc : Nat) (l : List LoopState) : (x.goto pc l).drainRun = x.drainRun := rfl
@[simp] theorem Tile.goto_drainQueue (x : Tile) (pc : Nat) (l : List LoopState) : (x.goto pc l).drainQueue = x.drainQueue := rfl
@[simp] theorem Tile.goto_xfers (x : Tile) (pc : Nat) (l : List LoopState) : (x.goto pc l).xfers = x.xfers := rfl
@[simp] theorem Tile.goto_issueSeq (x : Tile) (pc : Nat) (l : List LoopState) : (x.goto pc l).issueSeq = x.issueSeq := rfl
@[simp] theorem Tile.goto_laces (x : Tile) (pc : Nat) (l : List LoopState) : (x.goto pc l).laces = x.laces := rfl
@[simp] theorem Tile.goto_tincs (x : Tile) (pc : Nat) (l : List LoopState) : (x.goto pc l).tincs = x.tincs := rfl
@[simp] theorem Tile.goto_watch (x : Tile) (pc : Nat) (l : List LoopState) : (x.goto pc l).watch = x.watch := rfl
@[simp] theorem Tile.goto_asyncFaults (x : Tile) (pc : Nat) (l : List LoopState) : (x.goto pc l).asyncFaults = x.asyncFaults := rfl
@[simp] theorem Tile.goto_fault (x : Tile) (pc : Nat) (l : List LoopState) : (x.goto pc l).fault = x.fault := rfl
@[simp] theorem Tile.goto_task (x : Tile) (pc : Nat) (l : List LoopState) : (x.goto pc l).task = x.task := rfl
@[simp] theorem Tile.goto_stopped (x : Tile) (pc : Nat) (l : List LoopState) : (x.goto pc l).stopped = x.stopped := rfl
@[simp] theorem Tile.goto_eccSeen (x : Tile) (pc : Nat) (l : List LoopState) : (x.goto pc l).eccSeen = x.eccSeen := rfl
@[simp] theorem Tile.goto_withdrawn (x : Tile) (pc : Nat) (l : List LoopState) : (x.goto pc l).withdrawn = x.withdrawn := rfl
@[simp] theorem Tile.goto_keyAt (x : Tile) (pc : Nat) (l : List LoopState) : (x.goto pc l).keyAt = x.keyAt := rfl
@[simp] theorem Tile.goto_bcast (x : Tile) (pc : Nat) (l : List LoopState) : (x.goto pc l).bcast = x.bcast := rfl
@[simp] theorem Tile.goto_counters (x : Tile) (pc : Nat) (l : List LoopState) : (x.goto pc l).counters = x.counters := rfl
@[simp] theorem Tile.goto_ring (x : Tile) (pc : Nat) (l : List LoopState) : (x.goto pc l).ring = x.ring := rfl
@[simp] theorem Tile.goto_block (x : Tile) (pc : Nat) (l : List LoopState) : (x.goto pc l).block = x.block := rfl
@[simp] theorem Tile.goto_priv (x : Tile) (pc : Nat) (l : List LoopState) : (x.goto pc l).priv = x.priv := rfl

@[simp] theorem Tile.event_g (x : Tile) (c k p : Nat) : (x.event c k p).g = x.g := rfl
@[simp] theorem Tile.event_vq (x : Tile) (c k p : Nat) : (x.event c k p).vq = x.vq := rfl
@[simp] theorem Tile.event_m (x : Tile) (c k p : Nat) : (x.event c k p).m = x.m := rfl
@[simp] theorem Tile.event_pc (x : Tile) (c k p : Nat) : (x.event c k p).pc = x.pc := rfl
@[simp] theorem Tile.event_loops (x : Tile) (c k p : Nat) : (x.event c k p).loops = x.loops := rfl
@[simp] theorem Tile.event_held (x : Tile) (c k p : Nat) : (x.event c k p).held = x.held := rfl
@[simp] theorem Tile.event_progLen (x : Tile) (c k p : Nat) : (x.event c k p).progLen = x.progLen := rfl
@[simp] theorem Tile.event_role (x : Tile) (c k p : Nat) : (x.event c k p).role = x.role := rfl
@[simp] theorem Tile.event_kind0 (x : Tile) (c k p : Nat) : (x.event c k p).kind0 = x.kind0 := rfl
@[simp] theorem Tile.event_kind1 (x : Tile) (c k p : Nat) : (x.event c k p).kind1 = x.kind1 := rfl
@[simp] theorem Tile.event_early0 (x : Tile) (c k p : Nat) : (x.event c k p).early0 = x.early0 := rfl
@[simp] theorem Tile.event_early1 (x : Tile) (c k p : Nat) : (x.event c k p).early1 = x.early1 := rfl
@[simp] theorem Tile.event_flags (x : Tile) (c k p : Nat) : (x.event c k p).flags = x.flags := rfl
@[simp] theorem Tile.event_accPoison (x : Tile) (c k p : Nat) : (x.event c k p).accPoison = x.accPoison := rfl
@[simp] theorem Tile.event_mmaRun (x : Tile) (c k p : Nat) : (x.event c k p).mmaRun = x.mmaRun := rfl
@[simp] theorem Tile.event_mmaQueue (x : Tile) (c k p : Nat) : (x.event c k p).mmaQueue = x.mmaQueue := rfl
@[simp] theorem Tile.event_drainRun (x : Tile) (c k p : Nat) : (x.event c k p).drainRun = x.drainRun := rfl
@[simp] theorem Tile.event_drainQueue (x : Tile) (c k p : Nat) : (x.event c k p).drainQueue = x.drainQueue := rfl
@[simp] theorem Tile.event_xfers (x : Tile) (c k p : Nat) : (x.event c k p).xfers = x.xfers := rfl
@[simp] theorem Tile.event_issueSeq (x : Tile) (c k p : Nat) : (x.event c k p).issueSeq = x.issueSeq := rfl
@[simp] theorem Tile.event_laces (x : Tile) (c k p : Nat) : (x.event c k p).laces = x.laces := rfl
@[simp] theorem Tile.event_tincs (x : Tile) (c k p : Nat) : (x.event c k p).tincs = x.tincs := rfl
@[simp] theorem Tile.event_watch (x : Tile) (c k p : Nat) : (x.event c k p).watch = x.watch := rfl
@[simp] theorem Tile.event_asyncFaults (x : Tile) (c k p : Nat) : (x.event c k p).asyncFaults = x.asyncFaults := rfl
@[simp] theorem Tile.event_fault (x : Tile) (c k p : Nat) : (x.event c k p).fault = x.fault := rfl
@[simp] theorem Tile.event_task (x : Tile) (c k p : Nat) : (x.event c k p).task = x.task := rfl
@[simp] theorem Tile.event_ended (x : Tile) (c k p : Nat) : (x.event c k p).ended = x.ended := rfl
@[simp] theorem Tile.event_stopped (x : Tile) (c k p : Nat) : (x.event c k p).stopped = x.stopped := rfl
@[simp] theorem Tile.event_eccSeen (x : Tile) (c k p : Nat) : (x.event c k p).eccSeen = x.eccSeen := rfl
@[simp] theorem Tile.event_withdrawn (x : Tile) (c k p : Nat) : (x.event c k p).withdrawn = x.withdrawn := rfl
@[simp] theorem Tile.event_keyAt (x : Tile) (c k p : Nat) : (x.event c k p).keyAt = x.keyAt := rfl
@[simp] theorem Tile.event_bcast (x : Tile) (c k p : Nat) : (x.event c k p).bcast = x.bcast := rfl
@[simp] theorem Tile.event_counters (x : Tile) (c k p : Nat) : (x.event c k p).counters = x.counters := rfl
@[simp] theorem Tile.event_block (x : Tile) (c k p : Nat) : (x.event c k p).block = x.block := rfl
@[simp] theorem Tile.event_priv (x : Tile) (c k p : Nat) : (x.event c k p).priv = x.priv := rfl

/-! ### Units read back -/

@[simp] theorem State.tile_setTile_self (s : State) (t : TileId) (x : Tile) : (s.setTile t x).tile t = x :=
  Sparse.get_set_self _ _ _ _

@[simp] theorem State.tile_setTile_of_ne (s : State) {t u : TileId} (x : Tile) (h : t ≠ u) :
    (s.setTile t x).tile u = s.tile u :=
  Sparse.get_set_of_ne _ _ _ (fun e => h (Fin.ext e))

/-- Of two updates of one tile the second stands. -/
@[simp] theorem State.setTile_setTile (s : State) (t : TileId) (x y : Tile) : (s.setTile t x).setTile t y = s.setTile t y := by
  simp only [State.setTile, Sparse.set_set]

@[simp] theorem Tile.greg_setG_self (x : Tile) (d : BitVec 4) (v : GReg) : (x.setG d v).greg d = v :=
  Sparse.get_set_self _ _ _ _

@[simp] theorem Tile.greg_setG_of_ne (x : Tile) {d r : BitVec 4} (v : GReg) (h : d ≠ r) : (x.setG d v).greg r = x.greg r :=
  Sparse.get_set_of_ne _ _ _ (fun e => h (BitVec.eq_of_toNat_eq e))

@[simp] theorem Tile.vreg_setV_self (x : Tile) (d : BitVec 4) (v : VReg) : (x.setV d v).vreg d = v :=
  Sparse.get_set_self _ _ _ _

@[simp] theorem Tile.vreg_setV_of_ne (x : Tile) {d r : BitVec 4} (v : VReg) (h : d ≠ r) : (x.setV d v).vreg r = x.vreg r :=
  Sparse.get_set_of_ne _ _ _ (fun e => h (BitVec.eq_of_toNat_eq e))

@[simp] theorem Tile.mreg_setM_self (x : Tile) (n : Nat) (v : MReg) : (x.setM n v).mreg n = v :=
  Sparse.get_set_self _ _ _ _

@[simp] theorem Tile.mreg_setM_of_ne (x : Tile) {n k : Nat} (v : MReg) (h : n % 4 ≠ k % 4) : (x.setM n v).mreg k = x.mreg k :=
  Sparse.get_set_of_ne _ _ _ h

@[simp] theorem State.seq_setSeq_self (s : State) (n : Nat) (x : Sequencer) : (s.setSeq n x).seq n = x :=
  Sparse.get_set_self _ _ _ _

@[simp] theorem State.seq_setSeq_of_ne (s : State) {n k : Nat} (x : Sequencer) (h : n ≠ k) : (s.setSeq n x).seq k = s.seq k :=
  Sparse.get_set_of_ne _ _ _ h

@[simp] theorem State.partition_setPartition_self (s : State) (n : Nat) (x : Partition) : (s.setPartition n x).partition n = x :=
  Sparse.get_set_self _ _ _ _

@[simp] theorem State.partition_setPartition_of_ne (s : State) {n k : Nat} (x : Partition) (h : n ≠ k) : (s.setPartition n x).partition k = s.partition k :=
  Sparse.get_set_of_ne _ _ _ h

@[simp] theorem State.initiator_setInitiator_self (s : State) (n : Nat) (x : Initiator) : (s.setInitiator n x).initiator n = x :=
  Sparse.get_set_self _ _ _ _

@[simp] theorem State.initiator_setInitiator_of_ne (s : State) {n k : Nat} (x : Initiator) (h : n ≠ k) : (s.setInitiator n x).initiator k = s.initiator k :=
  Sparse.get_set_of_ne _ _ _ h

@[simp] theorem State.target_setTarget_self (s : State) (n : Nat) (x : Target) : (s.setTarget n x).target n = x :=
  Sparse.get_set_self _ _ _ _

@[simp] theorem State.target_setTarget_of_ne (s : State) {n k : Nat} (x : Target) (h : n ≠ k) : (s.setTarget n x).target k = s.target k :=
  Sparse.get_set_of_ne _ _ _ h

@[simp] theorem State.porch_setPorch_self (s : State) (n : Nat) (x : Porch) : (s.setPorch n x).porch n = x :=
  Sparse.get_set_self _ _ _ _

@[simp] theorem State.porch_setPorch_of_ne (s : State) {n k : Nat} (x : Porch) (h : n ≠ k) : (s.setPorch n x).porch k = s.porch k :=
  Sparse.get_set_of_ne _ _ _ h

@[simp] theorem State.engine_setEngine_self (s : State) (n : Nat) (x : CopyEngine) : (s.setEngine n x).engine n = x :=
  Sparse.get_set_self _ _ _ _

@[simp] theorem State.engine_setEngine_of_ne (s : State) {n k : Nat} (x : CopyEngine) (h : n ≠ k) : (s.setEngine n x).engine k = s.engine k :=
  Sparse.get_set_of_ne _ _ _ h

@[simp] theorem State.vi_setVi_self (s : State) (n : Nat) (x : Vi) : (s.setVi n x).vi n = x :=
  Sparse.get_set_self _ _ _ _

@[simp] theorem State.vi_setVi_of_ne (s : State) {n k : Nat} (x : Vi) (h : n ≠ k) : (s.setVi n x).vi k = s.vi k :=
  Sparse.get_set_of_ne _ _ _ h

@[simp] theorem State.port_setPort_self (s : State) (n : Nat) (x : NewenPort) : (s.setPort n x).port n = x :=
  Sparse.get_set_self _ _ _ _

@[simp] theorem State.port_setPort_of_ne (s : State) {n k : Nat} (x : NewenPort) (h : n ≠ k) : (s.setPort n x).port k = s.port k :=
  Sparse.get_set_of_ne _ _ _ h

end Sys2Proof.Machine
end

