-- ==== Sys2Proof/Laws/Issue.lean ====
section
/-! SUPPORT. What one issue attempt of a tile instruction can do: where it issues, and the tile it leaves for each outcome of
its body. -/

namespace Sys2Proof.Machine

theorem State.canIssue_of_tileReady {s : State} {t : TileId} (h : s.tileReady t = true) : (s.tile t).canIssue = true := by
  simp only [State.tileReady, Bool.and_eq_true] at h
  exact h.1.1.1

theorem Tile.task_of_canIssue {x : Tile} (h : x.canIssue = true) : x.task.isSome = true := by
  simp only [Tile.canIssue, Bool.and_eq_true] at h
  exact h.1.1.1.1.1.1

theorem State.task_of_tileReady {s : State} {t : TileId} (h : s.tileReady t = true) : (s.tile t).task.isSome = true :=
  Tile.task_of_canIssue (State.canIssue_of_tileReady h)

/-- A ready tile's issue: the waits for Lacing results, the vector unit and the instruction's own unit, the encoding check, then
the body. -/
theorem issueTo_of_tileReady {s : State} {t : TileId} (h : s.tileReady t = true) (unit : Tile → Option Nat) (legal vec : Bool)
    (vqs : List (BitVec 4)) (body : Tile → Issue) :
    issueTo t s unit legal vec vqs body =
      if (s.tile t).awaitsLace vqs || (vec && s.keyCycle t) then finishIssue t s (.hold 3)
      else if vec && (s.tile t).strictRunning then finishIssue t s (.hold 4)
      else
        match unit (s.tile t) with
        | some k => finishIssue t s (.hold k)
        | none => if !legal then s.faultAt t .illegalEncoding else finishIssue t s (body (s.tile t)) := by
  simp only [State.tileReady, Bool.and_eq_true, Bool.not_eq_true'] at h
  obtain ⟨⟨⟨h1, h2⟩, h3⟩, h4⟩ := h
  unfold issueTo
  simp only [h1, h2, h3, h4, Bool.not_true, Bool.false_eq_true, or_self, if_false]
  all_goals rfl

/-- The same of an instruction without a unit of its own. -/
theorem issue_of_tileReady {s : State} {t : TileId} (h : s.tileReady t = true) (legal vec : Bool) (vqs : List (BitVec 4))
    (body : Tile → Issue) :
    issue t s legal vec vqs body =
      if (s.tile t).awaitsLace vqs || (vec && s.keyCycle t) then finishIssue t s (.hold 3)
      else if vec && (s.tile t).strictRunning then finishIssue t s (.hold 4)
      else if !legal then s.faultAt t .illegalEncoding
      else finishIssue t s (body (s.tile t)) :=
  issueTo_of_tileReady h _ legal vec vqs body

@[simp] theorem Tile.retired_task (x : Tile) : x.retired.task = x.task := rfl
@[simp] theorem Tile.branched_task (x : Tile) (pc : Nat) : (x.branched pc).task = x.task := rfl
@[simp] theorem Tile.skipped_task (x : Tile) (l : Nat) : (x.skipped l).task = x.task := rfl

/-- A body that replaces the tile and passes on. -/
@[simp] theorem finishIssue_done {t : TileId} {s₀ s : State} {y : Tile} :
    finishIssue t s₀ (.done (s.setTile t y)) = s.setTile t y.retired := by
  have e : finishIssue t s₀ (.done (s.setTile t y)) = (s.setTile t y).setTile t ((s.setTile t y).tile t).retired := rfl
  rw [e]; simp

/-- A body that leaves the state alone and passes on. -/
theorem finishIssue_done_same {t : TileId} {s₀ s : State} :
    finishIssue t s₀ (.done s) = s.setTile t (s.tile t).retired := rfl

theorem finishIssue_jump {t : TileId} {s₀ s : State} {pc : Nat} :
    finishIssue t s₀ (.jump s pc) = s.setTile t ((s.tile t).branched pc) := rfl

theorem finishIssue_skip {t : TileId} {s₀ s : State} {l : Nat} :
    finishIssue t s₀ (.skip s l) = s.setTile t ((s.tile t).skipped l) := rfl

theorem guardPoison_clean {ps : List Bool} (h : ps.any id = false) (k : Issue) : guardPoison ps k = k := by
  simp [guardPoison, h]

theorem Tile.awaitsLace_nil (x : Tile) : x.awaitsLace [] = false := by
  simp [Tile.awaitsLace]

/-- An instruction of the vector unit, once the unit and its registers are free. -/
theorem issue_of_vectorReady {s : State} {t : TileId} {vqs : List (BitVec 4)} (h : s.vectorReady t vqs = true) (legal vec : Bool)
    (body : Tile → Issue) :
    issue t s legal vec vqs body = if !legal then s.faultAt t .illegalEncoding else finishIssue t s (body (s.tile t)) := by
  simp only [State.vectorReady, Bool.and_eq_true, Bool.not_eq_true'] at h
  obtain ⟨⟨⟨h1, h2⟩, h3⟩, h4⟩ := h
  rw [issue_of_tileReady h1, h2, h3, h4]
  simp

end Sys2Proof.Machine
end

