-- ==== Sys2Proof/Laws/Lanes.lean ====
section
/-! SUPPORT. Numbers made of lanes and of bits, and the lanes of VQ registers. -/

namespace Sys2Proof.Machine

theorem ofLanes_lt (w : Nat) (ls : List Nat) : ofLanes w ls < 2 ^ (w * ls.length) := by
  induction ls with
  | nil => simp [ofLanes]
  | cons x r ih =>
    have e : ofLanes w (x :: r) = x % 2 ^ w + ofLanes w r * 2 ^ w := rfl
    have h1 : x % 2 ^ w < 2 ^ w := Nat.mod_lt _ (Nat.two_pow_pos w)
    have h2 : (ofLanes w r + 1) * 2 ^ w ≤ 2 ^ (w * r.length) * 2 ^ w := Nat.mul_le_mul_right _ ih
    rw [e, List.length_cons, Nat.mul_succ, Nat.pow_add]
    rw [Nat.add_mul] at h2
    omega

/-- Lane `l` of a number made of lanes. -/
@[simp] theorem laneNat_ofLanes (w : Nat) (ls : List Nat) (l : Nat) : laneNat (ofLanes w ls) w l = ls.getD l 0 % 2 ^ w := by
  induction ls generalizing l with
  | nil => simp [ofLanes, laneNat]
  | cons x r ih =>
    have e : ofLanes w (x :: r) = x % 2 ^ w + ofLanes w r * 2 ^ w := rfl
    have h1 : x % 2 ^ w < 2 ^ w := Nat.mod_lt _ (Nat.two_pow_pos w)
    cases l with
    | zero => simp [laneNat, e]
    | succ l =>
      have e2 : ofLanes w (x :: r) >>> (w * (l + 1)) = ofLanes w r >>> (w * l) := by
        have h3 : (x % 2 ^ w + ofLanes w r * 2 ^ w) >>> w = ofLanes w r := by
          rw [Nat.shiftRight_eq_div_pow, Nat.add_mul_div_right _ _ (Nat.two_pow_pos w), Nat.div_eq_of_lt h1]
          simp
        rw [Nat.mul_succ, Nat.add_comm, Nat.shiftRight_add, e, h3]
      have := ih l
      unfold laneNat at this ⊢
      rw [e2, this]
      simp

theorem ofBits_lt (bs : List Bool) : ofBits bs < 2 ^ bs.length := by
  induction bs with
  | nil => simp [ofBits]
  | cons b r ih =>
    have e : ofBits (b :: r) = b.toNat + 2 * ofBits r := rfl
    rw [e, List.length_cons, Nat.pow_succ]
    cases b <;> simp <;> omega

/-- Bit `i` of a number made of bits. -/
@[simp] theorem testBit_ofBits (bs : List Bool) (i : Nat) : (ofBits bs).testBit i = bs.getD i false := by
  induction bs generalizing i with
  | nil => simp [ofBits]
  | cons b r ih =>
    have e : ofBits (b :: r) = b.toNat + 2 * ofBits r := rfl
    cases i with
    | zero => rw [e]; cases b <;> simp [Nat.testBit_zero]
    | succ i =>
      have h : (ofBits (b :: r)) / 2 = ofBits r := by rw [e]; cases b <;> simp; omega
      rw [Nat.testBit_succ, h, ih]
      simp

theorem VReg.lane_lt (v : VReg) (l : Nat) : v.lane l < 2 ^ 32 := Nat.mod_lt _ (by decide)

theorem VReg.lane_ofLanes (ls : List Nat) (ps : List Bool) (h : ls.length ≤ 32) (l : Nat) :
    (VReg.ofLanes ls ps).lane l = ls.getD l 0 % 2 ^ 32 := by
  have h1 : Machine.ofLanes 32 ls < 2 ^ 1024 :=
    Nat.lt_of_lt_of_le (ofLanes_lt 32 ls) (Nat.pow_le_pow_right (by decide) (by omega))
  unfold VReg.ofLanes VReg.lane
  simp only [BitVec.toNat_ofNat, Nat.mod_eq_of_lt h1, laneNat_ofLanes]

theorem VReg.lanePoison_ofLanes (ls : List Nat) (ps : List Bool) (h : ps.length ≤ 32) (l : Nat) :
    (VReg.ofLanes ls ps).lanePoison l = ps.getD l false := by
  have h1 : ofBits ps < 2 ^ 32 := Nat.lt_of_lt_of_le (ofBits_lt ps) (Nat.pow_le_pow_right (by decide) h)
  unfold VReg.ofLanes VReg.lanePoison
  simp only [BitVec.getLsbD, BitVec.toNat_ofNat, Nat.mod_eq_of_lt h1, testBit_ofBits]

theorem getD_map_range {α : Type} (g : Nat → α) (d : α) {n l : Nat} (h : l < n) : ((List.range n).map g).getD l d = g l := by
  simp [List.getD, h]

/-- The lanes of the destination of a lane-wise instruction (R155). -/
theorem VReg.lane_update (old : VReg) (act : BitVec 32 × BitVec 32) (res : Nat → Nat) (resP : Nat → Bool) {l : Nat} (h : l < 32) :
    (old.update act res resP).lane l = if act.1.getLsbD l then res l % 2 ^ 32 else old.lane l := by
  unfold VReg.update
  rw [VReg.lane_ofLanes _ _ (by simp), getD_map_range _ _ h]
  split
  · rfl
  · exact Nat.mod_eq_of_lt (VReg.lane_lt _ _)

/-- The poison of the destination of a lane-wise instruction (R599). -/
theorem VReg.lanePoison_update (old : VReg) (act : BitVec 32 × BitVec 32) (res : Nat → Nat) (resP : Nat → Bool) {l : Nat} (h : l < 32) :
    (old.update act res resP).lanePoison l = ((if act.1.getLsbD l then resP l else old.lanePoison l) || act.2.getLsbD l) := by
  unfold VReg.update
  rw [VReg.lanePoison_ofLanes _ _ (by simp), getD_map_range _ _ h]

end Sys2Proof.Machine
end

