-- ==== Sys2Proof/Laws/Memory.lean ====
section
/-! SUPPORT. Laws of the memory operations: what a byte reads as after a write or a zeroing, and the canonical form, which
every one of them keeps. -/

namespace Sys2Proof.Machine

/-- The listed cells that a write of `n` bytes at `a` leaves lie in its range, rise, and are not zero. -/
theorem mem_cellsOf {a n v : Nat} {c : Host.Cell} (h : c ∈ cellsOf a n v) : a ≤ c.1 ∧ c.1 < a + n ∧ c.2 ≠ 0 := by
  simp only [cellsOf, List.mem_filterMap, List.mem_range] at h
  obtain ⟨i, hi, h⟩ := h
  split at h
  · cases h
  · rename_i hb
    cases h
    exact ⟨by simp, by simpa using hi, hb⟩

theorem pairwise_cellsOf (a n v : Nat) : (cellsOf a n v).Pairwise (fun x y => x.1 < y.1) := by
  unfold cellsOf
  rw [List.pairwise_filterMap]
  refine (List.pairwise_lt_range (n := n)).imp ?_
  intro i j hij b hb c hc
  simp only at hb hc
  split at hb
  · cases hb
  · split at hc
    · cases hc
    · cases hb; cases hc; simpa using hij

/-- A write keeps the canonical form. -/
theorem Memory.wf_memWrite {m : List Host.Cell} (h : Memory.wf m) (a n v : Nat) : Memory.wf (memWrite m a n v) := by
  refine ⟨?_, fun c hc => ?_⟩
  · unfold memWrite
    refine List.pairwise_append.2 ⟨List.pairwise_append.2 ⟨h.1.filter _, pairwise_cellsOf a n v, ?_⟩, h.1.filter _, ?_⟩
    · intro x hx y hy
      have h1 := (List.mem_filter.1 hx).2
      have h2 := mem_cellsOf hy
      simp only [decide_eq_true_eq] at h1
      omega
    · intro x hx y hy
      have h2 := (List.mem_filter.1 hy).2
      simp only [decide_eq_true_eq] at h2
      rcases List.mem_append.1 hx with hx | hx
      · have h1 := (List.mem_filter.1 hx).2
        simp only [decide_eq_true_eq] at h1
        omega
      · have h1 := mem_cellsOf hx
        omega
  · unfold memWrite at hc
    rcases List.mem_append.1 hc with hc | hc
    · rcases List.mem_append.1 hc with hc | hc
      · exact h.2 c (List.mem_filter.1 hc).1
      · exact (mem_cellsOf hc).2.2
    · exact h.2 c (List.mem_filter.1 hc).1

/-- A zeroing keeps the canonical form. -/
theorem Memory.wf_memZero {m : List Host.Cell} (h : Memory.wf m) (a n : Nat) : Memory.wf (memZero m a n) :=
  Sparse.wf_filter 0 h _

/-- What a key reads as where a filter keeps every entry of that key. -/
theorem Sparse.get_filter {α : Type} (d : α) (m : Sparse α) (k : Nat) (p : Nat × α → Bool) (h : ∀ v, p (k, v) = true) :
    Sparse.get d (m.filter p) k = Sparse.get d m k := by
  induction m with
  | nil => rfl
  | cons x r ih =>
    obtain ⟨j, w⟩ := x
    by_cases hj : j = k
    · subst hj
      simp [List.filter, h, Sparse.get]
    · by_cases hp : p (j, w) = true
      · simp [List.filter, hp, Sparse.get, hj, ih]
      · simp [List.filter, hp, Sparse.get, hj, ih]

/-- A key that no entry holds reads as the default. -/
theorem Sparse.get_of_not_mem {α : Type} (d : α) {m : Sparse α} {k : Nat} (h : ∀ x ∈ m, x.1 ≠ k) : Sparse.get d m k = d := by
  induction m with
  | nil => rfl
  | cons x r ih =>
    have h1 := h x (by simp)
    simp only [Sparse.get]
    rw [if_neg h1]
    exact ih (fun y hy => h y (by simp [hy]))

/-- Of two lists the first that holds the key is read. -/
theorem Sparse.get_append_of_not_mem {α : Type} (d : α) {l m : Sparse α} {k : Nat} (h : ∀ x ∈ l, x.1 ≠ k) :
    Sparse.get d (l ++ m) k = Sparse.get d m k := by
  induction l with
  | nil => rfl
  | cons x r ih =>
    have h1 := h x (by simp)
    simp only [List.cons_append, Sparse.get]
    rw [if_neg h1]
    exact ih (fun y hy => h y (by simp [hy]))

/-- Entries behind a list that do not hold the key do not matter. -/
theorem Sparse.get_append_right {α : Type} (d : α) {l m : Sparse α} {k : Nat} (h : ∀ x ∈ m, x.1 ≠ k) :
    Sparse.get d (l ++ m) k = Sparse.get d l k := by
  induction l with
  | nil => simpa [Sparse.get] using Sparse.get_of_not_mem d h
  | cons x r ih => simp [Sparse.get, ih]

/-- The frame of a write: every byte outside the bytes written reads as before. -/
theorem memByte_memWrite_outside {m : List Host.Cell} {a n v b : Nat} (h : b < a ∨ a + n ≤ b) :
    memByte (memWrite m a n v) b = memByte m b := by
  have hc : ∀ x ∈ cellsOf a n v, x.1 ≠ b := fun x hx => by have := mem_cellsOf hx; omega
  unfold memByte memWrite
  rcases h with h | h
  · have hr : ∀ x ∈ m.filter (fun c => decide (a + n ≤ c.1)), x.1 ≠ b := fun x hx => by
      have := (List.mem_filter.1 hx).2
      simp only [decide_eq_true_eq] at this
      omega
    rw [Sparse.get_append_right _ hr, Sparse.get_append_right _ hc, Sparse.get_filter]
    simpa using h
  · have hl : ∀ x ∈ m.filter (fun c => decide (c.1 < a)) ++ cellsOf a n v, x.1 ≠ b := fun x hx => by
      rcases List.mem_append.1 hx with hx | hx
      · have := (List.mem_filter.1 hx).2
        simp only [decide_eq_true_eq] at this
        omega
      · exact hc x hx
    rw [Sparse.get_append_of_not_mem _ hl, Sparse.get_filter]
    simpa using h

/-- Byte `i` of a run of cells is byte `i` of the value. -/
theorem get_cellsOf (a n v i : Nat) (h : i < n) :
    Sparse.get 0 (cellsOf a n v) (a + i) = BitVec.ofNat 8 (v >>> (8 * i)) := by
  have key : ∀ (l : List Nat), l.Pairwise (· < ·) → i ∈ l →
      Sparse.get (0 : BitVec 8) (l.filterMap (fun i => let b := BitVec.ofNat 8 (v >>> (8 * i));
        if b = 0 then none else some (a + i, b))) (a + i) = BitVec.ofNat 8 (v >>> (8 * i)) := by
    intro l
    induction l with
    | nil => intro _ h; cases h
    | cons j r ih =>
      intro hp hm
      obtain ⟨h1, h2⟩ := List.pairwise_cons.1 hp
      by_cases hj : j = i
      · subst hj
        by_cases hb : BitVec.ofNat 8 (v >>> (8 * j)) = 0
        · simp only [List.filterMap_cons, hb, if_true]
          apply Sparse.get_of_not_mem
          intro x hx
          simp only [List.mem_filterMap] at hx
          obtain ⟨k, hk, hx⟩ := hx
          split at hx
          · cases hx
          · cases hx
            have := h1 k hk
            simp
            omega
        · simp only [List.filterMap_cons, hb, if_false, Sparse.get, if_true]
      · have hm' : i ∈ r := by
          rcases List.mem_cons.1 hm with h | h
          · exact absurd h.symm hj
          · exact h
        have := ih h2 hm'
        by_cases hb : BitVec.ofNat 8 (v >>> (8 * j)) = 0
        · simpa [List.filterMap_cons, hb] using this
        · simp only [List.filterMap_cons, hb, if_false, Sparse.get]
          rw [if_neg (by omega)]
          exact this
  exact key (List.range n) List.pairwise_lt_range (List.mem_range.2 h)

/-- A byte that was written reads as the byte of the value. -/
theorem memByte_memWrite_inside (m : List Host.Cell) (a n v i : Nat) (h : i < n) :
    memByte (memWrite m a n v) (a + i) = BitVec.ofNat 8 (v >>> (8 * i)) := by
  unfold memByte memWrite
  have hl : ∀ x ∈ m.filter (fun c => decide (c.1 < a)), x.1 ≠ a + i := fun x hx => by
    have := (List.mem_filter.1 hx).2
    simp only [decide_eq_true_eq] at this
    omega
  have hr : ∀ x ∈ m.filter (fun c => decide (a + n ≤ c.1)), x.1 ≠ a + i := fun x hx => by
    have := (List.mem_filter.1 hx).2
    simp only [decide_eq_true_eq] at this
    omega
  rw [Sparse.get_append_right _ hr, Sparse.get_append_of_not_mem _ hl, get_cellsOf a n v i h]

/-- The frame of a zeroing. -/
theorem memByte_memZero_outside {m : List Host.Cell} {a n b : Nat} (h : b < a ∨ a + n ≤ b) :
    memByte (memZero m a n) b = memByte m b := by
  unfold memByte memZero
  apply Sparse.get_filter
  intro v
  simpa using h

/-- Zeroed bytes read as zero. -/
theorem memByte_memZero_inside {m : List Host.Cell} {a n b : Nat} (h : a ≤ b) (h' : b < a + n) : memByte (memZero m a n) b = 0 := by
  unfold memByte memZero
  apply Sparse.get_of_not_mem
  intro x hx
  have := (List.mem_filter.1 hx).2
  simp only [Bool.or_eq_true, decide_eq_true_eq] at this
  omega

/-! ### Loads, stores and zeroing of the state (R303, R304) -/

theorem State.logError_cells (s : State) (a f : Nat) : (s.logError a f).mem.cells = s.mem.cells := by
  unfold State.logError; rfl

theorem State.countUncorrected_cells (s : State) (a f : Nat) : (s.countUncorrected a f).mem.cells = s.mem.cells := by
  unfold State.countUncorrected
  dsimp only
  split
  · simp only [State.lightBump_mem, State.logError_cells]
  · simp only [State.svcEvent_mem, State.logError_cells]

theorem State.countCorrected_mem (s : State) (a : Nat) : (s.countCorrected a).mem = s.mem := by
  unfold State.countCorrected
  split
  · simp only [State.lightBump_mem]
  · rfl

theorem State.readWord_cells (s : State) (w : Nat) (c : WordCond) : (s.readWord w c).mem.cells = s.mem.cells := by
  unfold State.readWord
  split
  · split
    · rfl
    · rw [State.countCorrected_mem]
  · split
    · rfl
    · rw [State.countUncorrected_cells]
  · rfl

/-- A read changes no byte. -/
theorem State.load_cells (s : State) (a n : Nat) : (s.load a n).2.mem.cells = s.mem.cells := by
  unfold State.load
  dsimp only
  generalize s.condsIn a n = ws
  induction ws generalizing s with
  | nil => rfl
  | cons e r ih => rw [List.foldl_cons, ih, State.readWord_cells]

theorem State.storeWord_cells (s : State) (a n p w : Nat) : (s.storeWord a n p w).mem.cells = s.mem.cells := by
  unfold State.storeWord
  dsimp only
  split
  · exact State.countUncorrected_cells s _ _
  · rfl

theorem foldl_storeWord_cells (a n p : Nat) (ws : List Nat) (s : State) :
    (ws.foldl (fun s w => s.storeWord a n p w) s).mem.cells = s.mem.cells := by
  induction ws generalizing s with
  | nil => rfl
  | cons w r ih => rw [List.foldl_cons, ih, State.storeWord_cells]

/-- What a store does to the bytes of memory: `n` bytes at `a` become the value's, and nothing else changes. -/
theorem State.store_cells (s : State) (a n v p : Nat) :
    (s.store a n v p).mem.cells = if n = 0 then s.mem.cells else memWrite s.mem.cells a n v := by
  unfold State.store
  split
  · rfl
  · dsimp only
    split
    · rfl
    · generalize (List.range ((a + n - 1) / 8 - a / 8 + 1)).map (· + a / 8) = ws
      rw [foldl_storeWord_cells]

/-- A store keeps the canonical form. -/
theorem State.wf_store {s : State} (h : Memory.wf s.mem.cells) (a n v p : Nat) : Memory.wf (s.store a n v p).mem.cells := by
  rw [State.store_cells]
  split
  · exact h
  · exact Memory.wf_memWrite h a n v

/-- A read keeps the canonical form. -/
theorem State.wf_load {s : State} (h : Memory.wf s.mem.cells) (a n : Nat) : Memory.wf (s.load a n).2.mem.cells := by
  rw [State.load_cells]; exact h

/-- A zeroing keeps the canonical form. -/
theorem State.wf_zero {s : State} (h : Memory.wf s.mem.cells) (a n : Nat) : Memory.wf (s.zero a n).mem.cells :=
  Memory.wf_memZero h a n

/-- The frame of a store. -/
theorem State.memByte_store_outside {s : State} {a n v p b : Nat} (h : b < a ∨ a + n ≤ b) :
    memByte (s.store a n v p).mem.cells b = memByte s.mem.cells b := by
  rw [State.store_cells]
  split
  · rfl
  · exact memByte_memWrite_outside h

/-- The reset memory has the canonical form. -/
theorem Memory.wf_reset : Memory.wf State.reset.mem.cells := Sparse.wf_nil 0

end Sys2Proof.Machine
end

