-- ==== Sys2Proof/Laws/Net.lean ====
section
/-! SUPPORT. What the sending of a packet reads and writes. -/

namespace Sys2Proof.Machine

/-- Two states with the same network, Welt, part, tiles left out, and boot stage: the same routes and shims. -/
def State.sameWays (r s : State) : Prop :=
  r.net = s.net ∧ r.weltFailed = s.weltFailed ∧ r.part = s.part ∧ r.selfTestFail = s.selfTestFail ∧
    r.disabledTiles = s.disabledTiles ∧ r.power = s.power

theorem State.leftOut_congr {r s : State} (h : r.sameWays s) : r.leftOut = s.leftOut := by
  obtain ⟨-, -, h3, h4, h5, -⟩ := h
  funext n
  simp only [State.leftOut, State.enabled, h3, h4, h5]

theorem State.meshCodes_congr {r s : State} (h : r.sameWays s) : r.meshCodes = s.meshCodes := by
  obtain ⟨h1, -⟩ := h
  have ha : r.avoided = s.avoided := by simp only [State.avoided, h1]
  have hn : r.reachNext = s.reachNext := by funext c x; simp only [State.reachNext, ha]
  have hr : ∀ c n a b, r.reach c n a b = s.reach c n a b := by
    intro c n
    induction n with
    | zero => intros; rfl
    | succ n ih => intros; simp only [State.reach, hn, ih]
  funext c y x y' x'
  simp only [State.meshCodes, ha, hr]

theorem State.switchWay_congr {r s : State} (h : r.sameWays s) : r.switchWay = s.switchWay := by
  obtain ⟨h1, h2, h3, -⟩ := h
  have ha : r.avoided = s.avoided := by simp only [State.avoided, h1]
  have hw : r.weltBundle = s.weltBundle := by
    funext d k; simp only [State.weltBundle, State.weltMap, h2, h3]
  funext k
  induction k with
  | zero => rfl
  | succ k ih => funext b d; simp only [State.switchWay, ha, hw, ih]

theorem State.farRoute_congr {r s : State} (h : r.sameWays s) : r.farRoute = s.farRoute := by
  have hm := State.meshCodes_congr h
  have ha : r.avoided = s.avoided := by simp only [State.avoided, h.1]
  have ho : r.waysOut = s.waysOut := by funext c y x; unfold State.waysOut; rw [ha, hm]
  have hi : r.waysIn = s.waysIn := by funext c y x; unfold State.waysIn; rw [ha, hm]
  have hr : r.routerOut = s.routerOut := by funext c y x; unfold State.routerOut; rw [ha]
  funext a b
  unfold State.farRoute
  rw [ho, hi, hr, State.switchWay_congr h]

theorem State.nearRoute_congr {r s : State} (h : r.sameWays s) : r.nearRoute = s.nearRoute := by
  have hm := State.meshCodes_congr h
  have ha : r.avoided = s.avoided := by simp only [State.avoided, h.1]
  have hr : r.routerOut = s.routerOut := by funext c y x; unfold State.routerOut; rw [ha]
  funext a b
  unfold State.nearRoute
  rw [hr, hm]

/-- A route depends on the failed links, on the lanes of the Welt, and on the tiles that the tables leave out. -/
theorem State.routeVia_congr {r s : State} (h : r.sameWays s) : r.routeVia = s.routeVia := by
  funext a b m
  unfold State.routeVia
  rw [State.leftOut_congr h, State.nearRoute_congr h, State.farRoute_congr h]

theorem State.shimActive_congr {r s : State} (h : r.sameWays s) : r.shimActive = s.shimActive := by
  funext n
  simp only [State.shimActive, State.leftOut_congr h, State.target, State.porch, h.1]

/-- A message without data changes the network alone, and what it does there depends on what `sameWays` names. -/
theorem State.sendControl_of {s r : State} (cmd src dst tag addr st pl : Nat) (who : Nat × Nat × Nat)
    (hc : cmdCarries (cmd % 64) (st % 256) = false) (h : r.sameWays s) :
    r.sendControl cmd src dst tag addr who st pl = { r with net := (s.sendControl cmd src dst tag addr who st pl).net } := by
  have hl : r.routesLoaded = s.routesLoaded := by simp only [State.routesLoaded, h.2.2.2.2.2]
  have hd : (controlPacket cmd src dst tag addr who st pl).cmd.toNat = cmd % 64 := by
    simp [controlPacket, mkPacket]
  have he : (controlPacket cmd src dst tag addr who st pl).status.toNat = st % 256 := by
    simp [controlPacket, mkPacket]
  unfold State.sendControl State.sendPacket State.sendBy State.emitPacket
  rw [State.shimActive_congr h, State.routeVia_congr h, hl]
  split
  · simp only [State.shimDrop, h.1]
  · split
    · rw [← h.1]
    · split
      · simp only [hd, he, hc, Bool.false_eq_true, and_false, if_false, h.1]
      · simp only [State.netError, h.1]

end Sys2Proof.Machine
end

