-- ==== Sys2Proof/WellFormed.lean ====
section
/-! DEFINITION. Which commands are well formed: their operands name units that exist and lie within the ranges that the spec
gives them. `exec` is total without it; it says which terms stand for something that can happen to the block. -/

namespace Sys2Proof

/-- A network node id that R45 does not reserve. -/
def nodeValid (n : NodeId) : Bool :=
  let k := n.toNat
  decide (k < 0x1200) || decide (0x2000 ≤ k ∧ k < 0x2008) || decide (0x2010 ≤ k ∧ k ≤ 0x2041) || decide (0x2048 ≤ k ∧ k ≤ 0x2051)

/-- A packet's data and poison lie within its BYTES (R250, R286). -/
def Packet.wf (p : Packet) : Bool :=
  decide (p.payload < 2 ^ (8 * p.bytes.toNat) ∧ p.poisoned < 2 ^ p.bytes.toNat) && nodeValid p.dest && nodeValid p.src

/-- An OAP message's data lie within its bytes, and the largest message of any transport bounds them (R450, R466). -/
def OapMsg.wf (m : OapMsg) : Bool := decide (m.n ≤ 1392 ∧ m.data < 2 ^ (8 * m.n))

/-- A frame of a length that ISO 11898-1 gives (R457). -/
def CanFrame.wf (f : CanFrame) : Bool :=
  (if f.fd then decide (f.n ≤ 8) || [12, 16, 20, 24, 32, 48, 64].contains f.n else decide (f.n ≤ 8)) && decide (f.data < 2 ^ (8 * f.n))

/-- Data within its length, and a prefix length of IPv4 (R466, R468). -/
def EthFrame.wf (f : EthFrame) : Bool :=
  match f with
  | .echo _ n data => decide (data < 2 ^ (8 * n))
  | .lease _ l _ => decide (l ≤ 32)
  | _ => true

/-- The words that a link has marked lie within the largest payload of a packet (R250, R284). -/
def LinkErrors.wf (e : LinkErrors) : Bool := e.words.all (fun w => decide (w < 512))

/-- Isolated nodes that a reset's test names exist (R291). -/
def ResetScope.wf (x : ResetScope) : Bool :=
  match x with
  | .cluster _ failing => failing.all nodeValid
  | _ => true

/-- Findings name units that exist. -/
def BootFound.wf (f : BootFound) : Bool :=
  f.lanes.all (fun l => decide (l.1 < 2 ∧ l.2 < 264)) && f.tiles.all (fun t => decide (t < 4096))
    && f.slices.all (fun x => decide (x < 512)) && f.eyelets.all (fun e => decide (e ≤ 586)) && f.links.all (fun l => decide (l.1 < 8 ∧ l.2.1 < 16 ∧ l.2.2.1 < 32 ∧ l.2.2.2 < 7))
    && f.routers.all (fun r => decide (r.1 < 8 ∧ r.2.1 < 16 ∧ r.2.2 < 32)) && f.failedStacks.all (fun k => decide (k < 8))

/-- Findings name units that exist. -/
def TestFound.wf (f : TestFound) : Bool :=
  f.lanes.all (fun l => decide (l < 264)) && f.eyelets.all (fun e => decide (e.1 ≤ 586))
    && f.links.all (fun l => decide (l.1 < 8 ∧ l.2.1 < 16 ∧ l.2.2.1 < 32 ∧ l.2.2.2 < 7))

/-- A power of two from 128 on. -/
def pcieSize (hi n : Nat) : Bool := decide (n ≤ hi) && [128, 256, 512, 1024, 2048, 4096].contains n

/-- Settings within what the port offers (R364, R381, R382). -/
def ConfigRequest.wf (r : ConfigRequest) : Bool :=
  match r with
  | .sriov _ n _ => decide (n ≤ 63)
  | .bar4Size n => [1, 2, 4, 8, 16, 32, 64].contains n
  | .deviceControl _ p q => pcieSize 512 p && pcieSize 4096 q
  | _ => true

/-- The size of one memory write of the host to a register. -/
def writeSize (n : Nat) : Bool := [1, 2, 4, 8].contains n

/-- A command is well formed. -/
def Instr.wf (i : Instr) : Bool :=
  match i with
  | .laceKeyArrival _ x => decide (x.upset ≤ 2)
  | .laceResult _ x => decide (x.upset ≤ 2)
  | .tallySlotWrite pkt => Packet.wf pkt
  | .latchStart _ _ seq => decide (seq < 2 ^ 32)
  | .latchEnd _ _ seq => decide (seq < 2 ^ 32)
  | .completionWrite _ _ seq => decide (seq < 2 ^ 32)
  | .eyeletCombine _ _ eyelet upset => decide (eyelet ≤ 586) && decide (upset ≤ 2)
  | .routerHop _ errs _ => LinkErrors.wf errs
  | .requestIssue n => nodeValid n
  | .nocRead pkt => Packet.wf pkt
  | .nocWrite pkt => Packet.wf pkt
  | .writePull pkt => Packet.wf pkt
  | .pull pkt => Packet.wf pkt
  | .pullData pkt => Packet.wf pkt
  | .readResp pkt => Packet.wf pkt
  | .writeAck pkt => Packet.wf pkt
  | .slotAsk pkt => Packet.wf pkt
  | .slotGrant pkt => Packet.wf pkt
  | .slotReturn pkt => Packet.wf pkt
  | .tallyAdd pkt => Packet.wf pkt
  | .tallyWatch pkt => Packet.wf pkt
  | .tallyMet pkt => Packet.wf pkt
  | .wakeReq pkt => Packet.wf pkt
  | .isolateNote pkt => Packet.wf pkt
  | .isolateNoteSend n => nodeValid n
  | .intakeService n => nodeValid n
  | .intakeAged n src _ => nodeValid n && nodeValid src
  | .tagTimeout n _ target => nodeValid n && nodeValid target
  | .timeoutReport n => nodeValid n
  | .deadStall n => nodeValid n
  | .controlStateError n => nodeValid n
  | .porchArrival _ pkt => Packet.wf pkt
  | .scrubWord n => nodeValid n
  | .hbmEntryComplete _ src _ _ => nodeValid src
  | .copyActivate _ q => decide (q < 66)
  | .copyReport _ q => decide (q < 66)
  | .wake sid => decide (sid < 65536)
  | .idlePark sid => decide (sid < 65536)
  | .partitionReady x => x.failing.all nodeValid
  | .ringTail _ _ size _ => writeSize size
  | .cqHead _ size _ => writeSize size
  | .wakeDoorbell _ size _ => writeSize size
  | .hostNop _ _ seq => decide (seq < 2 ^ 32)
  | .run _ _ seq => decide (seq < 2 ^ 32)
  | .loadModel _ _ seq _ => decide (seq < 2 ^ 32)
  | .memCopy _ _ seq => decide (seq < 2 ^ 32)
  | .sessionWake _ _ seq => decide (seq < 2 ^ 32)
  | .sessionPark _ _ seq => decide (seq < 2 ^ 32)
  | .sessionClose _ _ seq => decide (seq < 2 ^ 32)
  | .fence _ _ seq => decide (seq < 2 ^ 32)
  | .dict _ _ seq _ => decide (seq < 2 ^ 32)
  | .digestRead _ _ seq => decide (seq < 2 ^ 32)
  | .registerWrite _ off size _ => writeSize size && decide (off < 0x4000000)
  | .hostCompletion tag _ => decide (tag < 1024)
  | .bar4Access _ _ size _ => decide (0 < size ∧ size ≤ 4096)
  | .oapRead _ msg => OapMsg.wf msg
  | .oapWrite _ msg => OapMsg.wf msg
  | .readBlock _ msg => OapMsg.wf msg
  | .writeBlock _ msg => OapMsg.wf msg
  | .blockContinuation _ msg => OapMsg.wf msg
  | .commit _ msg => OapMsg.wf msg
  | .schedule _ msg => OapMsg.wf msg
  | .notify _ msg => OapMsg.wf msg
  | .canFrameReceive frame => CanFrame.wf frame
  | .udpDatagram _ _ size _ => decide (size ≤ 65507)
  | .go _ len => decide (len < 2048)
  | .eventEntryWrite n => nodeValid n
  | .traceRecordCollect n _ => nodeValid n
  | .sensorRead clusters _ => decide (clusters.length = 8)
  | .deviceResetSequence scope => ResetScope.wf scope
  | .bootStageEnd found => BootFound.wf found
  | .lbDurationEnd found => TestFound.wf found
  | .configurationRequest req => ConfigRequest.wf req
  | .pcieLinkUp _ width _ _ => decide (1 ≤ width ∧ width ≤ 16)
  | .partResetComplete x => x.failing.all nodeValid
  | .fenceEpochTimeout _ _ seq => decide (seq < 2 ^ 32)
  | .ethernetFrame frame => EthFrame.wf frame
  | .nop _ _ | .endTask _ _ | .jmp _ _ | .br _ _ | .loop _ _ | .wait _ _ | .tinc _ _ | .twait _ _ | .movi _ _
  | .movhi _ _ | .add _ _ | .sub _ _ | .mul _ _ | .and _ _ | .or _ _ | .xor _ _ | .shl _ _ | .shr _ _ | .sra _ _
  | .min _ _ | .max _ _ | .minu _ _ | .maxu _ _ | .ld _ _ | .st _ _ | .vld _ _ | .vst _ _ | .get _ _ | .put _ _
  | .xfer _ _ | .mma _ _ | .drain _ _ | .vadd _ _ | .vsub _ _ | .vmul _ _ | .vfma _ _ | .vmax _ _ | .vmin _ _
  | .vexp2 _ _ | .vrcp _ _ | .vrsqrt _ _ | .viadd _ _ | .visub _ _ | .vimul _ _ | .vand _ _ | .vor _ _ | .vxor _ _
  | .vshl _ _ | .vshr _ _ | .vsra _ _ | .vcmp _ _ | .vsel _ _ | .vbcg _ _ | .vget _ _ | .vperm _ _ | .vred _ _
  | .vcvt _ _ | .mop _ _ | .vtkf _ _ | .vtkm _ _ | .srkey _ _ | .srq _ _ | .sradd _ _ | .srdq _ _ | .lace _ _
  | .dgst _ _ | .evt _ _ | .mmaStart _ | .mmaEnd _ | .drainStart _ | .drainRowWrite _ | .drainComplete _
  | .transferPieceIssue _ | .transferFaultReport _ | .insnFault _ | .programBeat _ _ | .taskFetch _ _ _
  | .taskReady _ _ _ | .taskDispatch _ _ | .taskDone _ _ _ | .epochWaitTimeout _ _ _ | .dutySlot | .commitApply _
  | .laceOpEnd _ _ | .laceTimeout _ _ | .domainEndMessage _ _ _ | .slotGrantSend _ | .domainOn _ | .wakeFail _
  | .routesRecomputed | .eccWriteback _ | .poisonMark _ | .hbmRefresh _ | .hbmRfm _ _ | .hbmTempRead _ _
  | .hbmPowerDown _ | .hbmDeepSleepEntry _ | .copyEnqueue | .copyRequestIssue _ _ | .engineIsolationDrain _
  | .pageMoveIssue | .pageMoveComplete _ | .frameZeroed _ _ | .clusterMapWrite _ _ _ | .partReset _
  | .fenceWrite _ _ _ _ | .fenceZeroingDone _ | .viReset _ | .viTileScrub _ | .viResetComplete _ | .viResetForce _
  | .entryFetch _ _ | .entryArrival _ _ _ | .ringEnable _ _ _ | .cqEnable _ _ | .regError _ | .fnEvents _ _
  | .ringFault _ _ _ | .perstN | .vfFlr _ | .pfFlr | .hotReset _ | .d3hotExit | .atsInvalidation _ _ _
  | .cxlMemRequest _ _ _ | .cxlSnoop _ | .imageGo _ | .codewordReceived _ _ | .alignmentCodeword _ | .frameSend _
  | .dataFrame _ _ | .idleFrame _ _ | .markFrame _ _ | .nakFrame _ _ | .helloFrame _ _ | .nakRepeat _
  | .replayTimeout _ | .markPeriod _ | .trainPhaseEnd _ _ _ _ _ | .trainPhaseTimeout _ | .trainRetry _
  | .retrainTime _ | .nearProxyForward _ _ | .portEnable _ _ _ | .blockSegmentTimeout _ | .commitTimeout _
  | .roundMarkSend | .roundLost | .windowOpen _ | .frameAttempt _ | .classicalGapTimeout _ | .persistWrite _
  | .accessLevel _ _ | .discardStaged _ _ | .persistRestore _ _ | .tileDisableMap _ _ | .queueFlush _ _ _
  | .progFlush _ _ _ | .isolate _ _ | .deviceReset _ _ | .vigilRequest _ _ | .resetPinMask _ _ | .lbStart _ _
  | .objectWrite _ _ _ _ _ | .watchdog _ | .freeze | .vigilSnapshot | .vigilDone | .almanacFrame | .align | .porN
  | .porRelease | .supplyFault | .pllLock _ _ | .pllUnlock | .resetN | .resetNRise | .resetPinStuck | .perstNRise
  | .trstN _ | .thermtripN | .dutyRaise | .bootStageTimeout | .computeDomainIdle _ | .sliceRetain _ | .newenDomainOff
  | .almanacReceiverCheck _ | .scrubBurst _ | .lbLock | .lbLockTimeout | .bypass | .idcode | .samplePreload | .extest
  | .clamp | .highz | .extestPulse | .extestTrain | .alignmentCodewordMissing _ | .supplyInTolerance
  | .formingTimeout _ _ | .backInvalidateResponse _ => true

end Sys2Proof
end

