-- ==== Sys2Proof/Laws/PerInstr.lean ====
section
/-! SUPPORT. Laws that hold of every command as syntax, one lemma for each constructor. -/

/-- A command that a program word spells is well formed (R153, R154). -/
def Sys2Proof.Laws.F.Statement (i : Sys2Proof.Instr) : Prop :=
  ∀ w, Sys2Proof.Machine.tileWord i = some w → Sys2Proof.Instr.wf i = true

theorem Sys2Proof.Laws.F.nop : ∀ t f, Statement (.nop t f) := by intros; exact fun _ _ => rfl
theorem Sys2Proof.Laws.F.endTask : ∀ t f, Statement (.endTask t f) := by intros; exact fun _ _ => rfl
theorem Sys2Proof.Laws.F.jmp : ∀ t f, Statement (.jmp t f) := by intros; exact fun _ _ => rfl
theorem Sys2Proof.Laws.F.br : ∀ t f, Statement (.br t f) := by intros; exact fun _ _ => rfl
theorem Sys2Proof.Laws.F.loop : ∀ t f, Statement (.loop t f) := by intros; exact fun _ _ => rfl
theorem Sys2Proof.Laws.F.wait : ∀ t f, Statement (.wait t f) := by intros; exact fun _ _ => rfl
theorem Sys2Proof.Laws.F.tinc : ∀ t f, Statement (.tinc t f) := by intros; exact fun _ _ => rfl
theorem Sys2Proof.Laws.F.twait : ∀ t f, Statement (.twait t f) := by intros; exact fun _ _ => rfl
theorem Sys2Proof.Laws.F.movi : ∀ t f, Statement (.movi t f) := by intros; exact fun _ _ => rfl
theorem Sys2Proof.Laws.F.movhi : ∀ t f, Statement (.movhi t f) := by intros; exact fun _ _ => rfl
theorem Sys2Proof.Laws.F.add : ∀ t f, Statement (.add t f) := by intros; exact fun _ _ => rfl
theorem Sys2Proof.Laws.F.sub : ∀ t f, Statement (.sub t f) := by intros; exact fun _ _ => rfl
theorem Sys2Proof.Laws.F.mul : ∀ t f, Statement (.mul t f) := by intros; exact fun _ _ => rfl
theorem Sys2Proof.Laws.F.and : ∀ t f, Statement (.and t f) := by intros; exact fun _ _ => rfl
theorem Sys2Proof.Laws.F.or : ∀ t f, Statement (.or t f) := by intros; exact fun _ _ => rfl
theorem Sys2Proof.Laws.F.xor : ∀ t f, Statement (.xor t f) := by intros; exact fun _ _ => rfl
theorem Sys2Proof.Laws.F.shl : ∀ t f, Statement (.shl t f) := by intros; exact fun _ _ => rfl
theorem Sys2Proof.Laws.F.shr : ∀ t f, Statement (.shr t f) := by intros; exact fun _ _ => rfl
theorem Sys2Proof.Laws.F.sra : ∀ t f, Statement (.sra t f) := by intros; exact fun _ _ => rfl
theorem Sys2Proof.Laws.F.min : ∀ t f, Statement (.min t f) := by intros; exact fun _ _ => rfl
theorem Sys2Proof.Laws.F.max : ∀ t f, Statement (.max t f) := by intros; exact fun _ _ => rfl
theorem Sys2Proof.Laws.F.minu : ∀ t f, Statement (.minu t f) := by intros; exact fun _ _ => rfl
theorem Sys2Proof.Laws.F.maxu : ∀ t f, Statement (.maxu t f) := by intros; exact fun _ _ => rfl
theorem Sys2Proof.Laws.F.ld : ∀ t f, Statement (.ld t f) := by intros; exact fun _ _ => rfl
theorem Sys2Proof.Laws.F.st : ∀ t f, Statement (.st t f) := by intros; exact fun _ _ => rfl
theorem Sys2Proof.Laws.F.vld : ∀ t f, Statement (.vld t f) := by intros; exact fun _ _ => rfl
theorem Sys2Proof.Laws.F.vst : ∀ t f, Statement (.vst t f) := by intros; exact fun _ _ => rfl
theorem Sys2Proof.Laws.F.get : ∀ t f, Statement (.get t f) := by intros; exact fun _ _ => rfl
theorem Sys2Proof.Laws.F.put : ∀ t f, Statement (.put t f) := by intros; exact fun _ _ => rfl
theorem Sys2Proof.Laws.F.xfer : ∀ t f, Statement (.xfer t f) := by intros; exact fun _ _ => rfl
theorem Sys2Proof.Laws.F.mma : ∀ t f, Statement (.mma t f) := by intros; exact fun _ _ => rfl
theorem Sys2Proof.Laws.F.drain : ∀ t f, Statement (.drain t f) := by intros; exact fun _ _ => rfl
theorem Sys2Proof.Laws.F.vadd : ∀ t f, Statement (.vadd t f) := by intros; exact fun _ _ => rfl
theorem Sys2Proof.Laws.F.vsub : ∀ t f, Statement (.vsub t f) := by intros; exact fun _ _ => rfl
theorem Sys2Proof.Laws.F.vmul : ∀ t f, Statement (.vmul t f) := by intros; exact fun _ _ => rfl
theorem Sys2Proof.Laws.F.vfma : ∀ t f, Statement (.vfma t f) := by intros; exact fun _ _ => rfl
theorem Sys2Proof.Laws.F.vmax : ∀ t f, Statement (.vmax t f) := by intros; exact fun _ _ => rfl
theorem Sys2Proof.Laws.F.vmin : ∀ t f, Statement (.vmin t f) := by intros; exact fun _ _ => rfl
theorem Sys2Proof.Laws.F.vexp2 : ∀ t f, Statement (.vexp2 t f) := by intros; exact fun _ _ => rfl
theorem Sys2Proof.Laws.F.vrcp : ∀ t f, Statement (.vrcp t f) := by intros; exact fun _ _ => rfl
theorem Sys2Proof.Laws.F.vrsqrt : ∀ t f, Statement (.vrsqrt t f) := by intros; exact fun _ _ => rfl
theorem Sys2Proof.Laws.F.viadd : ∀ t f, Statement (.viadd t f) := by intros; exact fun _ _ => rfl
theorem Sys2Proof.Laws.F.visub : ∀ t f, Statement (.visub t f) := by intros; exact fun _ _ => rfl
theorem Sys2Proof.Laws.F.vimul : ∀ t f, Statement (.vimul t f) := by intros; exact fun _ _ => rfl
theorem Sys2Proof.Laws.F.vand : ∀ t f, Statement (.vand t f) := by intros; exact fun _ _ => rfl
theorem Sys2Proof.Laws.F.vor : ∀ t f, Statement (.vor t f) := by intros; exact fun _ _ => rfl
theorem Sys2Proof.Laws.F.vxor : ∀ t f, Statement (.vxor t f) := by intros; exact fun _ _ => rfl
theorem Sys2Proof.Laws.F.vshl : ∀ t f, Statement (.vshl t f) := by intros; exact fun _ _ => rfl
theorem Sys2Proof.Laws.F.vshr : ∀ t f, Statement (.vshr t f) := by intros; exact fun _ _ => rfl
theorem Sys2Proof.Laws.F.vsra : ∀ t f, Statement (.vsra t f) := by intros; exact fun _ _ => rfl
theorem Sys2Proof.Laws.F.vcmp : ∀ t f, Statement (.vcmp t f) := by intros; exact fun _ _ => rfl
theorem Sys2Proof.Laws.F.vsel : ∀ t f, Statement (.vsel t f) := by intros; exact fun _ _ => rfl
theorem Sys2Proof.Laws.F.vbcg : ∀ t f, Statement (.vbcg t f) := by intros; exact fun _ _ => rfl
theorem Sys2Proof.Laws.F.vget : ∀ t f, Statement (.vget t f) := by intros; exact fun _ _ => rfl
theorem Sys2Proof.Laws.F.vperm : ∀ t f, Statement (.vperm t f) := by intros; exact fun _ _ => rfl
theorem Sys2Proof.Laws.F.vred : ∀ t f, Statement (.vred t f) := by intros; exact fun _ _ => rfl
theorem Sys2Proof.Laws.F.vcvt : ∀ t f, Statement (.vcvt t f) := by intros; exact fun _ _ => rfl
theorem Sys2Proof.Laws.F.mop : ∀ t f, Statement (.mop t f) := by intros; exact fun _ _ => rfl
theorem Sys2Proof.Laws.F.vtkf : ∀ t f, Statement (.vtkf t f) := by intros; exact fun _ _ => rfl
theorem Sys2Proof.Laws.F.vtkm : ∀ t f, Statement (.vtkm t f) := by intros; exact fun _ _ => rfl
theorem Sys2Proof.Laws.F.srkey : ∀ t f, Statement (.srkey t f) := by intros; exact fun _ _ => rfl
theorem Sys2Proof.Laws.F.srq : ∀ t f, Statement (.srq t f) := by intros; exact fun _ _ => rfl
theorem Sys2Proof.Laws.F.sradd : ∀ t f, Statement (.sradd t f) := by intros; exact fun _ _ => rfl
theorem Sys2Proof.Laws.F.srdq : ∀ t f, Statement (.srdq t f) := by intros; exact fun _ _ => rfl
theorem Sys2Proof.Laws.F.lace : ∀ t f, Statement (.lace t f) := by intros; exact fun _ _ => rfl
theorem Sys2Proof.Laws.F.dgst : ∀ t f, Statement (.dgst t f) := by intros; exact fun _ _ => rfl
theorem Sys2Proof.Laws.F.evt : ∀ t f, Statement (.evt t f) := by intros; exact fun _ _ => rfl
theorem Sys2Proof.Laws.F.mmaStart : ∀ t, Statement (.mmaStart t) := by intros; exact nofun
theorem Sys2Proof.Laws.F.mmaEnd : ∀ t, Statement (.mmaEnd t) := by intros; exact nofun
theorem Sys2Proof.Laws.F.drainStart : ∀ t, Statement (.drainStart t) := by intros; exact nofun
theorem Sys2Proof.Laws.F.drainRowWrite : ∀ t, Statement (.drainRowWrite t) := by intros; exact nofun
theorem Sys2Proof.Laws.F.drainComplete : ∀ t, Statement (.drainComplete t) := by intros; exact nofun
theorem Sys2Proof.Laws.F.transferPieceIssue : ∀ t, Statement (.transferPieceIssue t) := by intros; exact nofun
theorem Sys2Proof.Laws.F.transferFaultReport : ∀ t, Statement (.transferFaultReport t) := by intros; exact nofun
theorem Sys2Proof.Laws.F.insnFault : ∀ t, Statement (.insnFault t) := by intros; exact nofun
theorem Sys2Proof.Laws.F.programBeat : ∀ t bad, Statement (.programBeat t bad) := by intros; exact nofun
theorem Sys2Proof.Laws.F.laceKeyArrival : ∀ t x, Statement (.laceKeyArrival t x) := by intros; exact nofun
theorem Sys2Proof.Laws.F.laceResult : ∀ t x, Statement (.laceResult t x) := by intros; exact nofun
theorem Sys2Proof.Laws.F.taskFetch : ∀ c q host, Statement (.taskFetch c q host) := by intros; exact nofun
theorem Sys2Proof.Laws.F.taskReady : ∀ c q slot, Statement (.taskReady c q slot) := by intros; exact nofun
theorem Sys2Proof.Laws.F.taskDispatch : ∀ c host, Statement (.taskDispatch c host) := by intros; exact nofun
theorem Sys2Proof.Laws.F.taskDone : ∀ c q slot, Statement (.taskDone c q slot) := by intros; exact nofun
theorem Sys2Proof.Laws.F.epochWaitTimeout : ∀ c q slot, Statement (.epochWaitTimeout c q slot) := by intros; exact nofun
theorem Sys2Proof.Laws.F.dutySlot : Statement (.dutySlot) := nofun
theorem Sys2Proof.Laws.F.commitApply : ∀ c, Statement (.commitApply c) := by intros; exact nofun
theorem Sys2Proof.Laws.F.tallySlotWrite : ∀ pkt, Statement (.tallySlotWrite pkt) := by intros; exact nofun
theorem Sys2Proof.Laws.F.latchStart : ∀ v r seq, Statement (.latchStart v r seq) := by intros; exact nofun
theorem Sys2Proof.Laws.F.latchEnd : ∀ v r seq, Statement (.latchEnd v r seq) := by intros; exact nofun
theorem Sys2Proof.Laws.F.completionWrite : ∀ v r seq, Statement (.completionWrite v r seq) := by intros; exact nofun
theorem Sys2Proof.Laws.F.eyeletCombine : ∀ p ch eyelet upset, Statement (.eyeletCombine p ch eyelet upset) := by intros; exact nofun
theorem Sys2Proof.Laws.F.laceOpEnd : ∀ p ch, Statement (.laceOpEnd p ch) := by intros; exact nofun
theorem Sys2Proof.Laws.F.laceTimeout : ∀ p ch, Statement (.laceTimeout p ch) := by intros; exact nofun
theorem Sys2Proof.Laws.F.domainEndMessage : ∀ p ch n, Statement (.domainEndMessage p ch n) := by intros; exact nofun
theorem Sys2Proof.Laws.F.routerHop : ∀ router errs alt, Statement (.routerHop router errs alt) := by intros; exact nofun
theorem Sys2Proof.Laws.F.requestIssue : ∀ n, Statement (.requestIssue n) := by intros; exact nofun
theorem Sys2Proof.Laws.F.nocRead : ∀ pkt, Statement (.nocRead pkt) := by intros; exact nofun
theorem Sys2Proof.Laws.F.nocWrite : ∀ pkt, Statement (.nocWrite pkt) := by intros; exact nofun
theorem Sys2Proof.Laws.F.writePull : ∀ pkt, Statement (.writePull pkt) := by intros; exact nofun
theorem Sys2Proof.Laws.F.pull : ∀ pkt, Statement (.pull pkt) := by intros; exact nofun
theorem Sys2Proof.Laws.F.pullData : ∀ pkt, Statement (.pullData pkt) := by intros; exact nofun
theorem Sys2Proof.Laws.F.readResp : ∀ pkt, Statement (.readResp pkt) := by intros; exact nofun
theorem Sys2Proof.Laws.F.writeAck : ∀ pkt, Statement (.writeAck pkt) := by intros; exact nofun
theorem Sys2Proof.Laws.F.slotAsk : ∀ pkt, Statement (.slotAsk pkt) := by intros; exact nofun
theorem Sys2Proof.Laws.F.slotGrant : ∀ pkt, Statement (.slotGrant pkt) := by intros; exact nofun
theorem Sys2Proof.Laws.F.slotGrantSend : ∀ t, Statement (.slotGrantSend t) := by intros; exact nofun
theorem Sys2Proof.Laws.F.slotReturn : ∀ pkt, Statement (.slotReturn pkt) := by intros; exact nofun
theorem Sys2Proof.Laws.F.tallyAdd : ∀ pkt, Statement (.tallyAdd pkt) := by intros; exact nofun
theorem Sys2Proof.Laws.F.tallyWatch : ∀ pkt, Statement (.tallyWatch pkt) := by intros; exact nofun
theorem Sys2Proof.Laws.F.tallyMet : ∀ pkt, Statement (.tallyMet pkt) := by intros; exact nofun
theorem Sys2Proof.Laws.F.wakeReq : ∀ pkt, Statement (.wakeReq pkt) := by intros; exact nofun
theorem Sys2Proof.Laws.F.isolateNote : ∀ pkt, Statement (.isolateNote pkt) := by intros; exact nofun
theorem Sys2Proof.Laws.F.isolateNoteSend : ∀ n, Statement (.isolateNoteSend n) := by intros; exact nofun
theorem Sys2Proof.Laws.F.intakeService : ∀ n, Statement (.intakeService n) := by intros; exact nofun
theorem Sys2Proof.Laws.F.intakeAged : ∀ n src tag, Statement (.intakeAged n src tag) := by intros; exact nofun
theorem Sys2Proof.Laws.F.tagTimeout : ∀ n tag target, Statement (.tagTimeout n tag target) := by intros; exact nofun
theorem Sys2Proof.Laws.F.timeoutReport : ∀ n, Statement (.timeoutReport n) := by intros; exact nofun
theorem Sys2Proof.Laws.F.deadStall : ∀ n, Statement (.deadStall n) := by intros; exact nofun
theorem Sys2Proof.Laws.F.controlStateError : ∀ n, Statement (.controlStateError n) := by intros; exact nofun
theorem Sys2Proof.Laws.F.porchArrival : ∀ d pkt, Statement (.porchArrival d pkt) := by intros; exact nofun
theorem Sys2Proof.Laws.F.domainOn : ∀ d, Statement (.domainOn d) := by intros; exact nofun
theorem Sys2Proof.Laws.F.wakeFail : ∀ d, Statement (.wakeFail d) := by intros; exact nofun
theorem Sys2Proof.Laws.F.routesRecomputed : Statement (.routesRecomputed) := nofun
theorem Sys2Proof.Laws.F.scrubWord : ∀ n, Statement (.scrubWord n) := by intros; exact nofun
theorem Sys2Proof.Laws.F.eccWriteback : ∀ a, Statement (.eccWriteback a) := by intros; exact nofun
theorem Sys2Proof.Laws.F.poisonMark : ∀ a, Statement (.poisonMark a) := by intros; exact nofun
theorem Sys2Proof.Laws.F.hbmEntryComplete : ∀ p src tag ondie, Statement (.hbmEntryComplete p src tag ondie) := by intros; exact nofun
theorem Sys2Proof.Laws.F.hbmRefresh : ∀ p, Statement (.hbmRefresh p) := by intros; exact nofun
theorem Sys2Proof.Laws.F.hbmRfm : ∀ p bank, Statement (.hbmRfm p bank) := by intros; exact nofun
theorem Sys2Proof.Laws.F.hbmTempRead : ∀ st celsius, Statement (.hbmTempRead st celsius) := by intros; exact nofun
theorem Sys2Proof.Laws.F.hbmPowerDown : ∀ p, Statement (.hbmPowerDown p) := by intros; exact nofun
theorem Sys2Proof.Laws.F.hbmDeepSleepEntry : ∀ g, Statement (.hbmDeepSleepEntry g) := by intros; exact nofun
theorem Sys2Proof.Laws.F.copyEnqueue : Statement (.copyEnqueue) := nofun
theorem Sys2Proof.Laws.F.copyActivate : ∀ e q, Statement (.copyActivate e q) := by intros; exact nofun
theorem Sys2Proof.Laws.F.copyRequestIssue : ∀ e w, Statement (.copyRequestIssue e w) := by intros; exact nofun
theorem Sys2Proof.Laws.F.copyReport : ∀ e q, Statement (.copyReport e q) := by intros; exact nofun
theorem Sys2Proof.Laws.F.engineIsolationDrain : ∀ e, Statement (.engineIsolationDrain e) := by intros; exact nofun
theorem Sys2Proof.Laws.F.wake : ∀ sid, Statement (.wake sid) := by intros; exact nofun
theorem Sys2Proof.Laws.F.pageMoveIssue : Statement (.pageMoveIssue) := nofun
theorem Sys2Proof.Laws.F.pageMoveComplete : ∀ mv, Statement (.pageMoveComplete mv) := by intros; exact nofun
theorem Sys2Proof.Laws.F.frameZeroed : ∀ p fr, Statement (.frameZeroed p fr) := by intros; exact nofun
theorem Sys2Proof.Laws.F.idlePark : ∀ sid, Statement (.idlePark sid) := by intros; exact nofun
theorem Sys2Proof.Laws.F.clusterMapWrite : ∀ r p v, Statement (.clusterMapWrite r p v) := by intros; exact nofun
theorem Sys2Proof.Laws.F.partitionReady : ∀ x, Statement (.partitionReady x) := by intros; exact nofun
theorem Sys2Proof.Laws.F.partReset : ∀ p, Statement (.partReset p) := by intros; exact nofun
theorem Sys2Proof.Laws.F.fenceWrite : ∀ r p word v, Statement (.fenceWrite r p word v) := by intros; exact nofun
theorem Sys2Proof.Laws.F.fenceZeroingDone : ∀ p, Statement (.fenceZeroingDone p) := by intros; exact nofun
theorem Sys2Proof.Laws.F.viReset : ∀ v, Statement (.viReset v) := by intros; exact nofun
theorem Sys2Proof.Laws.F.viTileScrub : ∀ v, Statement (.viTileScrub v) := by intros; exact nofun
theorem Sys2Proof.Laws.F.viResetComplete : ∀ v, Statement (.viResetComplete v) := by intros; exact nofun
theorem Sys2Proof.Laws.F.viResetForce : ∀ v, Statement (.viResetForce v) := by intros; exact nofun
theorem Sys2Proof.Laws.F.ringTail : ∀ v r size val, Statement (.ringTail v r size val) := by intros; exact nofun
theorem Sys2Proof.Laws.F.cqHead : ∀ v size val, Statement (.cqHead v size val) := by intros; exact nofun
theorem Sys2Proof.Laws.F.wakeDoorbell : ∀ v size val, Statement (.wakeDoorbell v size val) := by intros; exact nofun
theorem Sys2Proof.Laws.F.entryFetch : ∀ v r, Statement (.entryFetch v r) := by intros; exact nofun
theorem Sys2Proof.Laws.F.entryArrival : ∀ v r host, Statement (.entryArrival v r host) := by intros; exact nofun
theorem Sys2Proof.Laws.F.hostNop : ∀ v r seq, Statement (.hostNop v r seq) := by intros; exact nofun
theorem Sys2Proof.Laws.F.run : ∀ v r seq, Statement (.run v r seq) := by intros; exact nofun
theorem Sys2Proof.Laws.F.loadModel : ∀ v r seq host, Statement (.loadModel v r seq host) := by intros; exact nofun
theorem Sys2Proof.Laws.F.memCopy : ∀ v r seq, Statement (.memCopy v r seq) := by intros; exact nofun
theorem Sys2Proof.Laws.F.sessionWake : ∀ v r seq, Statement (.sessionWake v r seq) := by intros; exact nofun
theorem Sys2Proof.Laws.F.sessionPark : ∀ v r seq, Statement (.sessionPark v r seq) := by intros; exact nofun
theorem Sys2Proof.Laws.F.sessionClose : ∀ v r seq, Statement (.sessionClose v r seq) := by intros; exact nofun
theorem Sys2Proof.Laws.F.fence : ∀ v r seq, Statement (.fence v r seq) := by intros; exact nofun
theorem Sys2Proof.Laws.F.dict : ∀ v r seq host, Statement (.dict v r seq host) := by intros; exact nofun
theorem Sys2Proof.Laws.F.digestRead : ∀ v r seq, Statement (.digestRead v r seq) := by intros; exact nofun
theorem Sys2Proof.Laws.F.ringEnable : ∀ v r val, Statement (.ringEnable v r val) := by intros; exact nofun
theorem Sys2Proof.Laws.F.cqEnable : ∀ v val, Statement (.cqEnable v val) := by intros; exact nofun
theorem Sys2Proof.Laws.F.regError : ∀ v, Statement (.regError v) := by intros; exact nofun
theorem Sys2Proof.Laws.F.fnEvents : ∀ v val, Statement (.fnEvents v val) := by intros; exact nofun
theorem Sys2Proof.Laws.F.ringFault : ∀ v r val, Statement (.ringFault v r val) := by intros; exact nofun
theorem Sys2Proof.Laws.F.registerWrite : ∀ box off size val, Statement (.registerWrite box off size val) := by intros; exact nofun
theorem Sys2Proof.Laws.F.hostCompletion : ∀ tag host, Statement (.hostCompletion tag host) := by intros; exact nofun
theorem Sys2Proof.Laws.F.perstN : Statement (.perstN) := nofun
theorem Sys2Proof.Laws.F.vfFlr : ∀ v, Statement (.vfFlr v) := by intros; exact nofun
theorem Sys2Proof.Laws.F.pfFlr : Statement (.pfFlr) := nofun
theorem Sys2Proof.Laws.F.hotReset : ∀ cause, Statement (.hotReset cause) := by intros; exact nofun
theorem Sys2Proof.Laws.F.d3hotExit : Statement (.d3hotExit) := nofun
theorem Sys2Proof.Laws.F.atsInvalidation : ∀ v a size, Statement (.atsInvalidation v a size) := by intros; exact nofun
theorem Sys2Proof.Laws.F.cxlMemRequest : ∀ write a data, Statement (.cxlMemRequest write a data) := by intros; exact nofun
theorem Sys2Proof.Laws.F.cxlSnoop : ∀ a, Statement (.cxlSnoop a) := by intros; exact nofun
theorem Sys2Proof.Laws.F.bar4Access : ∀ write off size data, Statement (.bar4Access write off size data) := by intros; exact nofun
theorem Sys2Proof.Laws.F.imageGo : ∀ host, Statement (.imageGo host) := by intros; exact nofun
theorem Sys2Proof.Laws.F.codewordReceived : ∀ n errs, Statement (.codewordReceived n errs) := by intros; exact nofun
theorem Sys2Proof.Laws.F.alignmentCodeword : ∀ n, Statement (.alignmentCodeword n) := by intros; exact nofun
theorem Sys2Proof.Laws.F.frameSend : ∀ n, Statement (.frameSend n) := by intros; exact nofun
theorem Sys2Proof.Laws.F.dataFrame : ∀ n fr, Statement (.dataFrame n fr) := by intros; exact nofun
theorem Sys2Proof.Laws.F.idleFrame : ∀ n fr, Statement (.idleFrame n fr) := by intros; exact nofun
theorem Sys2Proof.Laws.F.markFrame : ∀ n fr, Statement (.markFrame n fr) := by intros; exact nofun
theorem Sys2Proof.Laws.F.nakFrame : ∀ n fr, Statement (.nakFrame n fr) := by intros; exact nofun
theorem Sys2Proof.Laws.F.helloFrame : ∀ n fr, Statement (.helloFrame n fr) := by intros; exact nofun
theorem Sys2Proof.Laws.F.nakRepeat : ∀ n, Statement (.nakRepeat n) := by intros; exact nofun
theorem Sys2Proof.Laws.F.replayTimeout : ∀ n, Statement (.replayTimeout n) := by intros; exact nofun
theorem Sys2Proof.Laws.F.markPeriod : ∀ n, Statement (.markPeriod n) := by intros; exact nofun
theorem Sys2Proof.Laws.F.trainPhaseEnd : ∀ n peerGen peerMin good2 good1, Statement (.trainPhaseEnd n peerGen peerMin good2 good1) := by intros; exact nofun
theorem Sys2Proof.Laws.F.trainPhaseTimeout : ∀ n, Statement (.trainPhaseTimeout n) := by intros; exact nofun
theorem Sys2Proof.Laws.F.trainRetry : ∀ n, Statement (.trainRetry n) := by intros; exact nofun
theorem Sys2Proof.Laws.F.retrainTime : ∀ n, Statement (.retrainTime n) := by intros; exact nofun
theorem Sys2Proof.Laws.F.nearProxyForward : ∀ n lt, Statement (.nearProxyForward n lt) := by intros; exact nofun
theorem Sys2Proof.Laws.F.portEnable : ∀ r n v, Statement (.portEnable r n v) := by intros; exact nofun
theorem Sys2Proof.Laws.F.oapRead : ∀ r msg, Statement (.oapRead r msg) := by intros; exact nofun
theorem Sys2Proof.Laws.F.oapWrite : ∀ r msg, Statement (.oapWrite r msg) := by intros; exact nofun
theorem Sys2Proof.Laws.F.readBlock : ∀ r msg, Statement (.readBlock r msg) := by intros; exact nofun
theorem Sys2Proof.Laws.F.writeBlock : ∀ r msg, Statement (.writeBlock r msg) := by intros; exact nofun
theorem Sys2Proof.Laws.F.blockContinuation : ∀ r msg, Statement (.blockContinuation r msg) := by intros; exact nofun
theorem Sys2Proof.Laws.F.blockSegmentTimeout : ∀ r, Statement (.blockSegmentTimeout r) := by intros; exact nofun
theorem Sys2Proof.Laws.F.commit : ∀ r msg, Statement (.commit r msg) := by intros; exact nofun
theorem Sys2Proof.Laws.F.commitTimeout : ∀ no, Statement (.commitTimeout no) := by intros; exact nofun
theorem Sys2Proof.Laws.F.schedule : ∀ r msg, Statement (.schedule r msg) := by intros; exact nofun
theorem Sys2Proof.Laws.F.notify : ∀ r msg, Statement (.notify r msg) := by intros; exact nofun
theorem Sys2Proof.Laws.F.roundMarkSend : Statement (.roundMarkSend) := nofun
theorem Sys2Proof.Laws.F.roundLost : Statement (.roundLost) := nofun
theorem Sys2Proof.Laws.F.windowOpen : ∀ k, Statement (.windowOpen k) := by intros; exact nofun
theorem Sys2Proof.Laws.F.frameAttempt : ∀ won, Statement (.frameAttempt won) := by intros; exact nofun
theorem Sys2Proof.Laws.F.canFrameReceive : ∀ frame, Statement (.canFrameReceive frame) := by intros; exact nofun
theorem Sys2Proof.Laws.F.classicalGapTimeout : ∀ node, Statement (.classicalGapTimeout node) := by intros; exact nofun
theorem Sys2Proof.Laws.F.udpDatagram : ∀ address port size data, Statement (.udpDatagram address port size data) := by intros; exact nofun
theorem Sys2Proof.Laws.F.go : ∀ box len, Statement (.go box len) := by intros; exact nofun
theorem Sys2Proof.Laws.F.persistWrite : ∀ ok, Statement (.persistWrite ok) := by intros; exact nofun
theorem Sys2Proof.Laws.F.accessLevel : ∀ r v, Statement (.accessLevel r v) := by intros; exact nofun
theorem Sys2Proof.Laws.F.discardStaged : ∀ r v, Statement (.discardStaged r v) := by intros; exact nofun
theorem Sys2Proof.Laws.F.persistRestore : ∀ r v, Statement (.persistRestore r v) := by intros; exact nofun
theorem Sys2Proof.Laws.F.tileDisableMap : ∀ r v, Statement (.tileDisableMap r v) := by intros; exact nofun
theorem Sys2Proof.Laws.F.queueFlush : ∀ r c v, Statement (.queueFlush r c v) := by intros; exact nofun
theorem Sys2Proof.Laws.F.progFlush : ∀ r c v, Statement (.progFlush r c v) := by intros; exact nofun
theorem Sys2Proof.Laws.F.isolate : ∀ r v, Statement (.isolate r v) := by intros; exact nofun
theorem Sys2Proof.Laws.F.deviceReset : ∀ r v, Statement (.deviceReset r v) := by intros; exact nofun
theorem Sys2Proof.Laws.F.vigilRequest : ∀ r v, Statement (.vigilRequest r v) := by intros; exact nofun
theorem Sys2Proof.Laws.F.resetPinMask : ∀ r v, Statement (.resetPinMask r v) := by intros; exact nofun
theorem Sys2Proof.Laws.F.lbStart : ∀ r v, Statement (.lbStart r v) := by intros; exact nofun
theorem Sys2Proof.Laws.F.objectWrite : ∀ r index sub size v, Statement (.objectWrite r index sub size v) := by intros; exact nofun
theorem Sys2Proof.Laws.F.eventEntryWrite : ∀ n, Statement (.eventEntryWrite n) := by intros; exact nofun
theorem Sys2Proof.Laws.F.watchdog : ∀ c, Statement (.watchdog c) := by intros; exact nofun
theorem Sys2Proof.Laws.F.freeze : Statement (.freeze) := nofun
theorem Sys2Proof.Laws.F.vigilSnapshot : Statement (.vigilSnapshot) := nofun
theorem Sys2Proof.Laws.F.vigilDone : Statement (.vigilDone) := nofun
theorem Sys2Proof.Laws.F.almanacFrame : Statement (.almanacFrame) := nofun
theorem Sys2Proof.Laws.F.align : Statement (.align) := nofun
theorem Sys2Proof.Laws.F.traceRecordCollect : ∀ n mark, Statement (.traceRecordCollect n mark) := by intros; exact nofun
theorem Sys2Proof.Laws.F.porN : Statement (.porN) := nofun
theorem Sys2Proof.Laws.F.porRelease : Statement (.porRelease) := nofun
theorem Sys2Proof.Laws.F.supplyFault : Statement (.supplyFault) := nofun
theorem Sys2Proof.Laws.F.pllLock : ∀ bootSel nodeSel, Statement (.pllLock bootSel nodeSel) := by intros; exact nofun
theorem Sys2Proof.Laws.F.pllUnlock : Statement (.pllUnlock) := nofun
theorem Sys2Proof.Laws.F.resetN : Statement (.resetN) := nofun
theorem Sys2Proof.Laws.F.resetNRise : Statement (.resetNRise) := nofun
theorem Sys2Proof.Laws.F.resetPinStuck : Statement (.resetPinStuck) := nofun
theorem Sys2Proof.Laws.F.perstNRise : Statement (.perstNRise) := nofun
theorem Sys2Proof.Laws.F.trstN : ∀ low, Statement (.trstN low) := by intros; exact nofun
theorem Sys2Proof.Laws.F.thermtripN : Statement (.thermtripN) := nofun
theorem Sys2Proof.Laws.F.sensorRead : ∀ clusters other, Statement (.sensorRead clusters other) := by intros; exact nofun
theorem Sys2Proof.Laws.F.dutyRaise : Statement (.dutyRaise) := nofun
theorem Sys2Proof.Laws.F.deviceResetSequence : ∀ scope, Statement (.deviceResetSequence scope) := by intros; exact nofun
theorem Sys2Proof.Laws.F.bootStageEnd : ∀ found, Statement (.bootStageEnd found) := by intros; exact nofun
theorem Sys2Proof.Laws.F.bootStageTimeout : Statement (.bootStageTimeout) := nofun
theorem Sys2Proof.Laws.F.computeDomainIdle : ∀ c, Statement (.computeDomainIdle c) := by intros; exact nofun
theorem Sys2Proof.Laws.F.sliceRetain : ∀ c, Statement (.sliceRetain c) := by intros; exact nofun
theorem Sys2Proof.Laws.F.newenDomainOff : Statement (.newenDomainOff) := nofun
theorem Sys2Proof.Laws.F.almanacReceiverCheck : ∀ present, Statement (.almanacReceiverCheck present) := by intros; exact nofun
theorem Sys2Proof.Laws.F.scrubBurst : ∀ d, Statement (.scrubBurst d) := by intros; exact nofun
theorem Sys2Proof.Laws.F.lbLock : Statement (.lbLock) := nofun
theorem Sys2Proof.Laws.F.lbLockTimeout : Statement (.lbLockTimeout) := nofun
theorem Sys2Proof.Laws.F.lbDurationEnd : ∀ found, Statement (.lbDurationEnd found) := by intros; exact nofun
theorem Sys2Proof.Laws.F.bypass : Statement (.bypass) := nofun
theorem Sys2Proof.Laws.F.idcode : Statement (.idcode) := nofun
theorem Sys2Proof.Laws.F.samplePreload : Statement (.samplePreload) := nofun
theorem Sys2Proof.Laws.F.extest : Statement (.extest) := nofun
theorem Sys2Proof.Laws.F.clamp : Statement (.clamp) := nofun
theorem Sys2Proof.Laws.F.highz : Statement (.highz) := nofun
theorem Sys2Proof.Laws.F.extestPulse : Statement (.extestPulse) := nofun
theorem Sys2Proof.Laws.F.extestTrain : Statement (.extestTrain) := nofun
theorem Sys2Proof.Laws.F.configurationRequest : ∀ req, Statement (.configurationRequest req) := by intros; exact nofun
theorem Sys2Proof.Laws.F.pcieLinkUp : ∀ speed width flit cxl, Statement (.pcieLinkUp speed width flit cxl) := by intros; exact nofun
theorem Sys2Proof.Laws.F.alignmentCodewordMissing : ∀ n, Statement (.alignmentCodewordMissing n) := by intros; exact nofun
theorem Sys2Proof.Laws.F.supplyInTolerance : Statement (.supplyInTolerance) := nofun
theorem Sys2Proof.Laws.F.formingTimeout : ∀ p failing, Statement (.formingTimeout p failing) := by intros; exact nofun
theorem Sys2Proof.Laws.F.partResetComplete : ∀ x, Statement (.partResetComplete x) := by intros; exact nofun
theorem Sys2Proof.Laws.F.fenceEpochTimeout : ∀ v r seq, Statement (.fenceEpochTimeout v r seq) := by intros; exact nofun
theorem Sys2Proof.Laws.F.backInvalidateResponse : ∀ a, Statement (.backInvalidateResponse a) := by intros; exact nofun
theorem Sys2Proof.Laws.F.ethernetFrame : ∀ frame, Statement (.ethernetFrame frame) := by intros; exact nofun
end

