-- ==== Sys2Proof/Laws/Vector.lean ====
section
/-! SUPPORT. Operands and destinations of lane-wise instructions (R155, R157, R599). -/

namespace Sys2Proof.Machine

theorem VReg.bits_toNat (v : VReg) (l : Nat) : (v.bits l).toNat = v.lane l := by
  unfold VReg.bits VReg.lane laneNat
  rw [BitVec.extractLsb'_toNat]

theorem VReg.bits_eq (v : VReg) (l n : Nat) (h : v.lane l = n) : v.bits l = BitVec.ofNat 32 n := by
  apply BitVec.eq_of_toNat_eq
  rw [VReg.bits_toNat, h, BitVec.toNat_ofNat, Nat.mod_eq_of_lt (h ▸ VReg.lane_lt v l)]

theorem mskLegal_iff (m : BitVec 3) : mskLegal m = true ↔ (m.getLsbD 2 = false → m = 0) := by
  revert m; decide

theorem Tile.active_bit (x : Tile) (m : BitVec 3) {l : Nat} (hl : l < 32) : (x.active m).1.getLsbD l = x.laneActive m l ∧ (x.active m).2.getLsbD l = x.laneTainted m l := by
  unfold Tile.active Tile.laneActive Tile.laneTainted
  cases m.getLsbD 2
  · simp only [Bool.false_eq_true, if_false, BitVec.getLsbD_allOnes]; simpa using hl
  · exact ⟨rfl, rfl⟩

theorem Tile.lanesWritten_update (x : Tile) (d : BitVec 4) (m : BitVec 3) (res : Nat → Nat) (bad : Nat → Bool) (res' : Nat → BitVec 32) (bad' : Nat → Bool)
    (h1 : ∀ l < 32, BitVec.ofNat 32 (res l) = res' l) (h2 : ∀ l < 32, bad l = bad' l) :
    x.lanesWritten d m res' bad' ((x.vreg d).update (x.active m) res bad) := by
  intro l hl
  obtain ⟨a1, a2⟩ := Tile.active_bit x m hl
  refine ⟨?_, ?_⟩
  · have := VReg.lane_update (x.vreg d) (x.active m) res bad hl
    rw [a1] at this
    rw [VReg.bits_eq _ _ _ this]
    split
    · rw [← h1 l hl]
      apply BitVec.eq_of_toNat_eq; simp
    · rw [VReg.bits_eq _ _ _ rfl]
  · rw [VReg.lanePoison_update _ _ _ _ hl, a1, a2, h2 l hl]

theorem legalTwo_iff (f : FmtR) : legalR f true true true false true true false false false = true ↔ f.maskedTwo := by
  unfold legalR FmtR.maskedTwo
  simp only [Bool.and_eq_true, mskLegal_iff, if_true]
  cases f.i <;> simp [and_assoc] <;> tauto

theorem Tile.vectorB_lane (x : Tile) (f : FmtR) {l : Nat} (hl : l < 32) : (x.vectorB f).lane l = (if f.i then f.imm else (x.vreg f.b).bits l).toNat ∧
    (x.vectorB f).lanePoison l = (!f.i && (x.vreg f.b).lanePoison l) := by
  unfold Tile.vectorB
  cases hi : f.i
  · simp [VReg.bits_toNat]
  · have h1 := VReg.lane_ofLanes (List.replicate 32 f.imm.toNat) [] (by simp) l
    unfold VReg.ofLanes at h1
    simp only [if_true]
    refine ⟨?_, by simp [VReg.lanePoison]⟩
    have h2 : (List.replicate 32 f.imm.toNat).getD l 0 = f.imm.toNat := by
      rw [List.getD_eq_getElem _ _ (by simpa using hl), List.getElem_replicate]
    rw [h2, Nat.mod_eq_of_lt f.imm.isLt] at h1
    exact h1

end Sys2Proof.Machine
end

