-- ==== Sys2Proof/Tests/Slice0.lean ====
section
/-! SUPPORT. Tests: the well-formedness smoke, words that decode, results taken from the spec, and for every statement with
hypotheses a named witness that meets them. -/

namespace Sys2Proof.Tests

set_option Elab.async false

open Sys2Proof Sys2Proof.Machine

/-- A tile that runs a task of VI 0 in partition 0 with a program of 8 words. -/
def busy : Tile := { task := some ⟨0, 0, 0, 0, 0, 0⟩, progLen := 64 }

/-- Reset, with tile 0 as given. -/
def on (x : Tile) : State := State.reset.setTile 0 x

/-- Format R, every field zero. -/
def r0 : FmtR := ⟨0, 0, 0, 0, false, 0, false, 0, 0⟩
/-- Format J, every field zero. -/
def j0 : FmtJ := ⟨0, 0, 0, false, 0, 0⟩
/-- Format W, every field zero. -/
def wt0 : FmtW := ⟨false, false, false, false, 0, 0⟩
/-- Format Y, every field zero. -/
def y0 : FmtY := ⟨0, false, 0, 0, 0⟩
/-- Format M, every field zero. -/
def m0 : FmtM := ⟨0, 0, 0, 0, 0, false, false, 0⟩
/-- Format T, every field zero. -/
def t0 : FmtT := ⟨0, 0, 0, 0, 0⟩
/-- Format X: INT8 by INT8, one pass. -/
def x0 : FmtX := ⟨false, false, false, false, false, false, 0, 0, 0, 0, 0, 0, 0, 0, 0⟩
/-- Format L, every field zero. -/
def l0 : FmtL := ⟨0, 0, 0, 0, 0, false, 0⟩
/-- Format G, every field zero. -/
def g0 : FmtG := ⟨0, 0, 0, false, false, 0⟩
/-- A packet of node 0 to node 1 with nothing in it. -/
def pk0 : Packet := mkPacket 0x01 0 1 0 0 8 0 0 0 0 0 0 0
/-- A transfer of one piece of 8 bytes from address 0. -/
def tr0 : Transfer := ⟨0, 0, false, 0, 0, 0, 0, 0, 0, 8, [⟨0, 0, 8⟩], 0, [], [], [], none⟩
/-- A part that runs: stage RUN, power-on reset released. -/
def awake (s : State) : State := { s with power := { s.power with porHeld := false, stage := 0xFF } }
/-- An MMA in its queue. -/
def op0 : MmaOp := { seq := 0, f := x0, a := 0, b := 0, k := 1 }
/-- Partition 0 READY with cluster 0. -/
def part0 (s : State) : State := s.setPartition 0 { s.partition 0 with clusters := 1, state := .ready }

/-! ### Witnesses: what each statement assumes can be met -/

/-- Tile 0 runs an MMA of two steps. -/
def running0 : State := { on { busy with mmaRun := some { op0 with k := 2 } } with power := { porHeld := false } }

theorem witness_IdleStepCountsOneCycle : State.reset.pending = [] ∧ State.reset.power.porHeld = true ∧ running0.pending = [] ∧ running0.power.porHeld = false
    ∧ running0.tiles.filter (fun e => e.2.mmaRun.isSome) = [(0, running0.tile 0)] ∧ (running0.tile 0).mmaRun = some { op0 with k := 2 } ∧ (mmaCombo x0).isSome = true
    ∧ op0.steps < 2 := by decide +kernel

theorem witness_IdleStep_of_tiles_at_rest : (∀ t : TileId, (State.reset.tile t).mmaRun = none) ∧ (awake State.reset).power.porHeld = false := ⟨fun _ => rfl, rfl⟩

theorem witness_ScalarOperationsFollowTheirRule : (on busy).tileReady 0 = true ∧ r0.twoOperand
    ∧ ({ r0 with i := true, imm := 0xFFFFFFFF } : FmtR).twoOperand ∧ ¬ ({ r0 with imm := 1 } : FmtR).twoOperand := by decide +kernel

theorem witness_BranchesReachTheirTarget : (on { busy with pc := 7 }).tileReady 0 = true
    ∧ (on { busy with g := [(0, ⟨0, true⟩)] }).tileReady 0 = true := by decide +kernel

theorem witness_MovesAndEndFollowTheOpcodeTable : (on busy).tileReady 0 = true ∧ r0.blank ∧ ¬ ({ r0 with sub := 7 } : FmtR).blank := by decide +kernel

theorem witness_LoopFollowsItsRule : let s := on { busy with pc := 7, loops := [⟨2, 7, 1⟩, ⟨0, 6, 2⟩] }
    s.tileReady 0 = true ∧ r0.blank ∧ (s.tile 0).loops = [⟨2, 7, 1⟩, ⟨0, 6, 2⟩] ∧ (s.tile 0).pc = 7 ∧ (∀ m ∈ [(⟨0, 6, 2⟩ : LoopState)], m.last ≠ 7)
    ∧ (on { busy with pc := 7, loops := [⟨2, 7, 2⟩] }).tileReady 0 = true := by decide +kernel

theorem witness_WaitFollowsItsRule : (on { busy with xfers := [tr0] }).tileReady 0 = true ∧ (on { busy with laces := [⟨0, 0, 0, 0, 0, 0⟩] }).tileReady 0 = true := by decide +kernel

theorem witness_TallyInstructionsFollowTheirRule : let s := (on busy).setObj 0x4010 0 255 0
    s.tileReady 0 = true ∧ (s.tile 0).task = some ⟨0, 0, 0, 0, 0, 0⟩ ∧ s.obj 0x4010 0 255 = 0 ∧ (on busy).obj 0x4010 15 255 ≠ 0
    ∧ (s.tile 0).tincs = [] ∧ (s.tile 0).watch = none ∧ ((s.tile 0).xfers.filter (·.isPut)) = []
    ∧ (on { busy with watch := some ⟨0, 0, true⟩, xfers := [{ tr0 with isPut := true }] }).tileReady 0 = true := by decide +kernel

theorem witness_MemoryReadsWhatWasWritten : Memory.wf State.reset.mem.cells ∧ Memory.wf [(0, 1), (0x7FFFFFFFFFFF, 0xFF)] := by decide +kernel

theorem witness_LdAndStMoveTheirBytes : let s := on { busy with g := [(1, ⟨0x17FF8, false⟩)] }
    s.tileReady 0 = true ∧ ((s.tile 0).greg 1).poison = false ∧ ((s.tile 0).greg 1).val.toNat + 8 ≤ 0x18000
    ∧ s.condsIn (tileAddr 0 0x17FF8) 8 = [] ∧ (s.tile 0).progLen ≤ 0x17FF8 := by decide +kernel

theorem witness_VldAndVstMoveTheirLanes : let s := on { busy with g := [(1, ⟨0x17F80, false⟩)] }
    s.tileReady 0 = true ∧ (s.tile 0).awaitsLace [0] = false ∧ ((s.tile 0).mreg 3).poison = 0
    ∧ ((s.tile 0).greg 1).val.toNat + 128 ≤ 0x18000 ∧ s.condsIn (tileAddr 0 0x17F80) 128 = [] ∧ (s.tile 0).progLen ≤ 0x17F80 := by decide +kernel

theorem witness_LocalAccessesFaultAsStated : let s := on { busy with g := [(0, ⟨0x1DFF8, false⟩), (1, ⟨0x17FFC, false⟩), (2, ⟨0, true⟩)] }
    s.tileReady 0 = true ∧ (s.tile 0).awaitsLace [0] = false ∧ ((s.tile 0).greg 2).poison = true
    ∧ (∀ r ∈ localRows, ¬ (r.1 ≤ 0x17FFC ∧ 0x17FFC + 8 ≤ r.2)) ∧ 0x1C000 ≤ 0x1DFF8 ∧ 0x1DFF8 + 8 ≤ 0x1E000 ∧ 56 < (s.tile 0).progLen := by decide +kernel

theorem witness_vector : (on busy).vectorReady 0 [0, 1, 2, 3, 4, 5, 14, 15] = true ∧ r0.maskedTwo ∧ r0.maskedOne ∧ r0.maskedRegs
    ∧ ({ r0 with msk := 7, i := true, imm := 31 } : FmtR).maskedTwo ∧ ¬ ({ r0 with msk := 1 } : FmtR).maskedTwo
    ∧ ¬ ({ r0 with imm := 1 } : FmtR).maskedOne ∧ ({ r0 with msk := 4 } : FmtR).msk.getLsbD 2 = true := by decide +kernel

theorem witness_ConversionAndSumrInstructionsFollowTheirRules : vcvtOpts { r0 with c := 3 } = none ∧ (vcvtOpts { r0 with c := 11, b := 11 }).isSome = true
    ∧ ({ r0 with d := 13, a := 13 } : FmtR).d.toNat ≤ 13 := by decide +kernel

theorem witness_SumrDoesNotDependOnOrder : [0x3F800000, 0x7F800000].Perm [0x7F800000, 0x3F800000] := by decide +kernel

theorem witness_GetAndPutEnterTheNetworkInterface : let s := on { busy with g := [(1, ⟨0x100, false⟩), (2, ⟨98304, false⟩), (3, ⟨98305, false⟩), (4, ⟨0, true⟩)] }
    s.tileReady 0 = true ∧ (s.tile 0).task = some ⟨0, 0, 0, 0, 0, 0⟩ ∧ ((s.tile 0).greg 4).poison = true ∧ ((s.tile 0).greg 0).val = 0
    ∧ (convMode 0 (s.convEntry 0 0 0)).bind (fun m => convBytes m 98304) = some 98304
    ∧ (convMode 255 0xFFFF).bind (fun m => convBytes m 8) = none ∧ ¬ (64 ≤ 0 ∧ 0 + 98304 ≤ 0x18000) ∧ (s.tile 0).xfers.length < 8
    ∧ (on { busy with xfers := List.replicate 8 tr0 }).tileReady 0 = true := by decide +kernel

theorem witness_XferEntersItsRows : let d : Nat := 1 + 2 ^ 48 + 2 ^ 64 * 8 + 2 ^ 128 * (8 + 16 * 2 ^ 32) + 2 ^ 192 * (0x100 + 2 * 2 ^ 48)
    let s := { on { busy with g := [(1, ⟨0x200, false⟩), (2, ⟨0x210, false⟩), (3, ⟨0, true⟩)] } with mem := { cells := memWrite [] (tileAddr 0 0x200) 32 d } }
    s.tileReady 0 = true ∧ (s.tile 0).task = some ⟨0, 0, 0, 0, 0, 0⟩ ∧ ((s.tile 0).greg 1).val.toNat % 32 = 0 ∧ 0x210 % 32 ≠ 0
    ∧ s.condsIn (tileAddr 0 0x200) 32 = [] ∧ memNat s.mem.cells (tileAddr 0 0x200) 32 = d ∧ ((s.tile 0).greg 3).poison = true
    ∧ (convMode 0 (s.convEntry 0 0 0)).bind (fun m => convBytes m 8) = some 8 ∧ d / 2 ^ 192 / 2 ^ 48 = 2 := by decide +kernel

theorem witness_TransferPiecesAndFaultsFollowTheirRules : let s := part0 (awake (on { busy with xfers := [tr0] }))
    (s.tile 0).xfers = [tr0] ∧ tr0.todo = [⟨0, 0, 8⟩] ∧ (s.nodeOfAddr 0 0) = some 0x2020 ∧ s.routesLoaded = true ∧ (s.routeTo 0 0x2020).isSome = true ∧ (s.routeBack 0 0x2020).isSome = true
    ∧ (s.tagNow 0 { pk0 with dest := 0x2020 }).isSome = true ∧ s.nodeOfAddr 0 0x3FFFFFFFFFFF = none
    ∧ (on { busy with asyncFaults := [(1, 0, .outOfRange), (0, 0, .aborted)] }).tile 0 = { busy with asyncFaults := [(1, 0, .outOfRange), (0, 0, .aborted)] }
    ∧ busy.task.isSome = true ∧ busy.stopped = false ∧ busy.fault = none := by decide +kernel

/-- An MMA that expands INT4 through table 0 to LF8. -/
def xt : FmtX := { x0 with mode := true, afmt := 7 }

theorem witness_MmaAndDrainEnterTheirQueues : (on busy).tileReady 0 = true ∧ (mmaCombo x0).isSome = true ∧ mmaCombo { x0 with afmt := 15 } = none
    ∧ (on { busy with role := .v }).tileReady 0 = true ∧ (mmaCombo { x0 with afmt := 9, bfmt := 9, strict := true }).isSome = true
    ∧ ((mmaCombo xt).map (·.b)) = some (.table .lf8) ∧ memNat [(tileAddr 0 0x1A001, 1)] (tileAddr 0 0x1A000) 32 / 2 ^ (16 * 0 + 8) % 2 ^ 8 ≠ 0
    ∧ ((on { busy with g := [(0, ⟨0x100000000, false⟩)] }).tile 0).greg 0 = ⟨0x100000000, false⟩
    ∧ ((on { busy with g := [(0, ⟨0x17FE0, false⟩)] }).tile 0).greg 0 = ⟨0x17FE0, false⟩ ∧ 0x17FE0 % 32 = 0 ∧ 0x17FE0 + 32 ≤ 0x18000 ∧ 0x18000 < 0x17FE1 + 32
    ∧ (on busy).condsIn (tileAddr 0 0x17FE0) 32 = [] ∧ WordCond.bad .marked = true ∧ checkFinish busy .fp 0 0 0 0 = .ok ∧ checkFinish busy .fp (2 ^ 64 - 1) 0 0 0 ≠ .ok := by decide +kernel

/-- A drain of no row; of one row and one column of INT4 into the tile store; and of the same to address 0. -/
def dr0 : DrainOp := { seq := 0, acc := false, w0 := 0, w1 := 0, w2 := 0, w3 := 0, kind := .fp, early := false, index := 0 }
def dr1 : DrainOp := { dr0 with w0 := BitVec.ofNat 64 (2 ^ 30 + 2 ^ 24) }
def dr2 : DrainOp := { dr0 with w0 := BitVec.ofNat 64 (2 ^ 30 + 2 ^ 24 + 2 ^ 37) }

theorem witness_ArrayAndFinishingStageRun : let s := on { busy with mmaQueue := some op0 }
    (s.tile 0).mmaRun = none ∧ (s.tile 0).mmaQueue = some op0 ∧ (s.tile 0).drainBefore s.calends 0 false = false ∧ s.accAsked 0 false = false
    ∧ ((on { busy with mmaRun := some op0 }).tile 0).mmaRun = some op0 ∧ (mmaCombo op0.f).isSome = true ∧ op0.steps < op0.k ∧ ({ op0 with k := 0 } : MmaOp).f.accum = false
    ∧ (on { busy with drainQueue := some dr0 }).tile 0 = { busy with drainQueue := some dr0 } ∧ (s.tile 0).mmaBefore 0 true = false ∧ (s.tile 0).mmaBefore 1 false = true
    ∧ (State.setTarget s 0 { intake := [{ pkt := { pk0 with address := BitVec.ofNat 48 (tileAddr 0 0x18000) }, arrival := 0 }] }).accAsked 0 false = true
    ∧ ((on { busy with drainRun := some dr0 }).tile 0).drainRun = some dr0 ∧ (dr0.desc.rows = 0 ∨ dr0.desc.cols = 0) ∧ dr0.desc.rows ≤ dr0.row ∧ dr0.unacked = 0
    ∧ dr1.desc.fmt = some .int4 ∧ 0 < dr1.desc.rows ∧ 0 < dr1.desc.cols ∧ dr1.desc.dest = false ∧ dr1.part = 0 ∧ dr2.desc.dest = true ∧ dr2.desc.fmt = some .int4 ∧ dr2.row < dr2.desc.rows
    ∧ (on { busy with drainRun := some dr2 }).tile 0 = { busy with drainRun := some dr2 } := by decide +kernel

/-- The row of `dr2` leaves as one request. -/
theorem witness_DrainRowLeaves : (match (part0 (awake (on { busy with drainRun := some dr2 }))).issueAt 0 0 { pk0 with cmd := 0x02, bytes := 1 } (.drainRow 0) with | .sent _ => true | _ => false) = true := by decide +kernel

theorem witness_LaceDgstAndEvtFollowTheirRules : let s := (part0 (on busy)).setObjOf 0 0x5021 0 0 1
    s.tileReady 0 = true ∧ s.partOfTile 0 = some 0 ∧ (s.tile 0).awaitsLace [0, 0] = false ∧ s.member 0 0 0 = true
    ∧ (s.ctx 0 0).active = false ∧ (s.tile 0).laces = [] ∧ NumFmt.ofCode 1 = some .int8 ∧ NumFmt.int8.isExpansionOnly = false
    ∧ (part0 (on busy)).member 0 0 0 = false ∧ (0xE0#8).toNat = 0xE0 ∧ (0xFFFFFF#32).toNat < 2 ^ 24 := by decide +kernel

/-- An open SUM.R operation on channel 0 of partition 0, at its second sweep and with its result. -/
def ctx0 : LaceCtx := { active := true, expected := [0], arrived := [(0, some { op := 1, k := 0 })], sweep := 2, key := some [0], result := some { op := 1, k := 0 } }

theorem witness_WhatReachesATile : let s := (part0 (on { busy with laces := [⟨0, 0, 0, 1, 0, 15⟩] })).setCtx 0 0 ctx0
    s.partOfTile 0 = some 0 ∧ (s.ctx 0 0).key = some [0] ∧ (Sparse.get none (s.ctx 0 0).arrived 0).isSome = true ∧ (s.ctx 0 0).sweep = 2
    ∧ (s.ctx 0 0).result.isSome = true ∧ (s.tile 0).laces.find? (fun l => l.ch = 0) = some ⟨0, 0, 0, 1, 0, 15⟩ ∧ (s.ctx 0 0).delivered.contains 0 = false
    ∧ (s.ctx 0 0).expected.contains 0 = true ∧ Sparse.get none (s.ctx 0 0).quantised 0 = none ∧ Sparse.get none (s.ctx 0 0).heldNext 0 = none
    ∧ ({ op := 2, k := 0, data := List.replicate 8 0 } : LaceMsg).data.length = 8 ∧ (on { busy with fault := some (3, .aborted) }).reservedWord 0 = false
    ∧ ((on { busy with bcast := some ⟨[], 33, 1⟩ }).tile 0).bcast = some ⟨[], 33, 1⟩ ∧ 32 * 1 < 33
    ∧ (on { busy with fault := some (3, .aborted) }).tileQuiet 0 = true ∧ (on { busy with fault := some (3, .aborted) }).task 0 0 0 = none
    ∧ ({ on { busy with xfers := [tr0] } with mem := { cells := [(tileAddr 0 7, 0xFF)] } } : State).reservedWord 0 = true
    ∧ (on { busy with xfers := [tr0] }).tileQuiet 0 = false := by decide +kernel

theorem witness_TileWordsAndInstructionsCorrespond : tileWord (.nop 0 r0) = some 0 ∧ tileDecode 4095 0 = some (.nop 4095 r0) := by decide +kernel

theorem witness_TileThatMayNotIssueIsLeftAlone : tileDecode 0 0 = some (.nop 0 r0) ∧ ((on { busy with pc := 8 }).tile 0).progLen / 8 ≤ 8
    ∧ (on busy).hungCluster 0 = false ∧ ((on busy).tile 0).canIssue = true ∧ (({ on busy with mem := { cond := [(tileAddr 0 0 / 8, .marked)] } } : State).condAt (tileAddr 0 0)).bad = true ∧ (on busy).offSlot 0 = false
    ∧ ((on busy).setSeq 0 { duty := 1 }).hungCluster 0 = false := by decide +kernel

theorem witness_TileInstructionsKeepPcAndLoops : let x := ((on { busy with loops := [⟨0, 7, 1⟩] }).tile 0)
    x.pc ≤ x.progLen / 8 ∧ x.loops.length ≤ 4 ∧ (∀ l ∈ x.loops, l.first ≤ l.last ∧ l.last < x.progLen / 8 ∧ 1 ≤ l.left ∧ l.first ≤ x.pc ∧ x.pc ≤ l.last)
    ∧ x.loops.Pairwise (fun a b => b.first ≤ a.first ∧ a.last ≤ b.last) ∧ tileDecode 0 0 = some (.nop 0 r0)
    ∧ safeStep { on { busy with loops := [⟨0, 7, 1⟩] } with pending := [.nop 0 r0] } = true := by decide +kernel

/-! ### Witnesses: sequencers, host commands, Lacing -/

/-- A RUN of VI 0, ring 0 with one item for cluster 0 at host address 0. -/
def run0 : Cmd := { key := ⟨0, 0, 0⟩, entry := 1, part := 0, phase := .running, tA := 0, begun := true, blockReady := true, reserved := true, items := [(0, hostBase, 0)], queues := [(0, 0)] }
/-- A task descriptor: one wait for tally 0 to reach 0, tile 0 alone, no program. -/
def desc0 : Nat := 2 ^ 64 * 2 ^ 8 + 2 ^ (8 * 0x50)
/-- The task in slot 0 of queue 0. -/
def task0 : Task := { slot := 0, desc := desc0, cmd := ⟨0, 0, 0⟩, pos := 0, phase := .pending }
/-- VI 0 bound to partition 0, READY, with a queue of cluster 0, a bus-mastering function and the RUN. -/
def runs : State :=
  let s := ((part0 State.reset).setObj 0x4010 0 255 0).setObj 0x5809 0 255 0
  let s := s.setVi 0 { busMaster := true, cqEnable := true, cqBase := hostBase, cqSize := 2 }
  { s with host := { s.host with cmds := [run0], linkState := 2 } }

theorem witness_TasksAreFetchedAndBecomeReady : runs.nextItem 0 0 = some (run0, hostBase, 0) ∧ runs.queue 0 0 = []
    ∧ (runs.deviceRead 0x2000 0 0 0 hostBase 256 ⟨desc0, .ok⟩).st = .ok ∧ (runs.deviceRead 0x2000 0 0 0 hostBase 256 ⟨desc0, .ok⟩).val = desc0
    ∧ runs.checkTask 0 0 none desc0 = .ok ∧ 0 < taskNwait desc0
    ∧ (runs.setQueue 0 0 [task0]).task 0 0 0 = some task0 ∧ (∀ w ∈ taskWaits desc0, reaches (Sparse.get 0 (runs.seq 0).tallies w.1) (BitVec.ofNat 32 w.2) = true)
    ∧ runs.objIn 0 0x4013 2 100000 ≠ 0
    ∧ runs.epochReached 0 (2 ^ 9 + 2 ^ 128) = false := by decide +kernel

theorem witness_TasksStartAndEndOnTheirTiles : let s := runs.setQueue 0 0 [{ task0 with phase := .ready }]
    (s.seq 0).lastDispatch = none ∧ s.nextDispatch 0 = some (0, { task0 with phase := .ready }) ∧ s.domain 0 = .off
    ∧ (s.setDomain 0 .on).domain 0 = .on ∧ taskTiles 0 desc0 = [0] ∧ taskProgLen desc0 = 0
    ∧ ((runs.setQueue 0 0 [{ task0 with phase := .dispatched }]).task 0 0 0) = some { task0 with phase := .dispatched }
    ∧ ((on { busy with ended := true }).tile 0).ended = true ∧ (on { busy with ended := true }).tileQuiet 0 = true := by decide +kernel

theorem witness_CommandsAreLatchedAndCompleted : runs.cmd ⟨0, 0, 0⟩ = some run0 ∧ (runs.vi 0).resetting = none ∧ run0.start = none ∧ run0.refused = false
    ∧ entryW run0.entry 1 = 0 ∧ entryW (1 + 2 ^ 64 * hostBase) 1 % 2 ^ 48 = hostBase ∧ run0.block.elements = 0
    ∧ (runs.vi 0).cqEnable = true ∧ 0 < (runs.vi 0).cqSize ∧ ((runs.vi 0).cqTail + 2 ^ 32 - (runs.vi 0).cqHead) % 2 ^ 32 ≠ (runs.vi 0).cqSize := by decide +kernel

/-- An open MAX of tile 0 on channel 0 of partition 0. -/
def open0 : State := ((part0 (on { busy with laces := [⟨0, 0, 0, 2, 0, 0⟩] })).setObjOf 0 0x5021 0 0 1).setCtx 0 0 { active := true, expected := [0], arrived := [(0, some { op := 2, k := 0, data := List.replicate 8 0 })] }

/-- The same operation after eyelets 0 and 512 have passed its message up; under domain scope with port 0 as the parent and up to the device root; and a device without a member there. -/
def up0msg : LaceMsg := { op := 2, k := 0, data := List.replicate 8 0 }
def passed0 (l : List Nat) : State := open0.setCtx 0 0 { open0.ctx 0 0 with passed := l.map (fun e => (e, some up0msg)), timed := true }
def domain0 (s : State) : State := (s.setObj 0x5020 2 0 1).setObj 0x3200 1 255 0

theorem witness_LacingOperationsCombineAndEnd : (open0.partition 0).state ≠ .hung ∧ (open0.ctx 0 0).active = true ∧ (open0.ctx 0 0).result = none
    ∧ Sparse.get none (open0.ctx 0 0).passed 0 = none ∧ eyeletLevel 0 < eyeletLevel (open0.apex 0 0) ∧ (open0.ctx 0 0).expected.any (belowEyelet 0) = true
    ∧ open0.childMessages 0 0 0 = some [up0msg] ∧ open0.domainScope 0 0 = false ∧ up0msg.op ≠ 15 ∧ up0msg.err = none
    ∧ (passed0 [0, 512]).apex 0 0 = 576 ∧ (passed0 [0, 512]).childMessages 0 0 576 = some [up0msg] ∧ (passed0 [0, 512]).eyeletWorks 0 0 576 = true
    ∧ (domain0 (passed0 [0, 512, 576, 584])).apex 0 0 = 586 ∧ (domain0 (passed0 [0, 512, 576, 584])).childMessages 0 0 586 = some [up0msg]
    ∧ (domain0 (passed0 [])).domainScope 0 0 = true ∧ (domain0 (passed0 [])).obj 0x3200 1 255 ≠ 255 ∧ (domain0 (passed0 [])).linked 0 = false
    ∧ ((domain0 (passed0 [])).setPort 0 { link := .up }).linked 0 = true ∧ (domain0 (part0 State.reset)).passesIdentity 0 0 = true
    ∧ open0.eyeletWorks 0 0 585 = false ∧ ((passed0 []).ctx 0 0).timed = true ∧ ((domain0 (part0 State.reset)).ctx 0 0).active = false ∧ open0.laceAwaits 0 0 0 = true
    ∧ open0.laceAllDelivered 0 0 = false ∧ ((open0.setCtx 0 0 { open0.ctx 0 0 with delivered := [0], result := some { op := 2, k := 0 } }).laceAllDelivered 0 0) = true
    ∧ ((open0.setCtx 0 0 { open0.ctx 0 0 with delivered := [0] }).laceAwaits 0 0 0) = false ∧ (open0.ctx 0 0).heldNext = []
    ∧ (open0.ctx 0 0).expected.Nodup ∧ (open0.tile 0).laces.find? (fun l => l.ch = 0) = some ⟨0, 0, 0, 2, 0, 0⟩ := by decide +kernel

/-! ### Witnesses: the network -/

/-- A READ of tile 0 at HBM port 0, whose domain is on. -/
def rd0 : Packet := Packet.seal (mkPacket 0x01 0 0x2020 0 0 8 0 0 0 0 0 0 0)
def net0 : State := (awake (part0 State.reset)).setDomain 16 .on |>.setDomain 0 .on |>.setDomain 8 .on
/-- A message with that command, from one node to another. -/
def mesg (cmd src dst status : Nat) : Packet := Packet.seal (mkPacket cmd src dst 0 0 8 0 0 0 0 status 0 0)

theorem witness_PacketsAreCheckedWhereTheyArrive : net0.getsThrough rd0 = true ∧ Packet.arriving rd0 0x01 = rd0 ∧ Packet.crosses rd0 = false ∧ Packet.illegal rd0 = false
    ∧ ({ rd0 with crc := rd0.crc + 1 } : Packet).crcOk = false ∧ net0.getsThrough (mesg 0x02 0 0x2020 0) = true ∧ net0.getsThrough (Packet.seal (mkPacket 0x03 0 0x2020 0 0 64 0 0 0 0 0 0 0)) = true
    ∧ (let p := Packet.seal (mkPacket 0x01 0 0x2020 0 2047 2 0 0 0 0 0 0 0); Packet.crosses p = true ∧ Packet.illegal p = false)
    ∧ (let p := Packet.seal { rd0 with rsv := 1 }; p.crcOk = true ∧ Packet.illegal p = true ∧ isRequest p.cmd.toNat = true)
    ∧ (let p := Packet.seal { rd0 with cmd := 0x3F }; Packet.arriving p 0x01 = p ∧ p.crcOk = true ∧ Packet.illegal p = true ∧ cmdVc p.cmd.toNat p.bulk = none ∧ p.vc = 1)
    ∧ (let p := Packet.seal { rd0 with cmd := 0x3F, vc := 2 }; Packet.illegal p = true ∧ cmdVc p.cmd.toNat p.bulk = none ∧ p.vc ≠ 1)
    ∧ Packet.illegal (mesg 0x10 0 0x2020 0x15) = true ∧ (mesg 0x10 0 0x2020 0x15).crcOk = true
    ∧ State.reset.porchBlocks 0x2020 = some 16 ∧ ¬ 64 ≤ (State.reset.porch 16).packets.length ∧ net0.porchBlocks 0x2020 = none ∧ (net0.declareDead 0x2020 3).shimActive 0x2020 = true
    ∧ net0.shimActive 0x2020 = false ∧ (net0.target 0x2020).intake = [] ∧ (net0.target 0x2020).pullUsed + 2048 ≤ pullRoom 0x2020 := by decide +kernel

/-- An intake entry of `rd0`, one that is being pulled, and a tally write to slot 0 of cluster 0. -/
def ent0 : IntakeEntry := { pkt := rd0, arrival := 0 }
def tallyPk : Packet := Packet.seal (mkPacket 0x02 0x2040 0x2000 0 (controlBase + 0x1000) 4 0 0 0 0 0 1 0)
def talEnt : IntakeEntry := { pkt := tallyPk, arrival := 0 }

theorem witness_MessagesChangeTheirTargets :
    (∀ c ∈ [0x04, 0x20, 0x21, 0x22, 0x23, 0x24, 0x26, 0x27], net0.getsThrough (Packet.arriving (mesg c 0 (if c = 0x24 then 1 else if c = 0x22 ∨ c = 0x23 then 0x2000 else 0x2020) 0) c) = true)
    ∧ net0.getsThrough (mesg 0x04 0 0x2020 2) = true
    ∧ ((net0.setTarget 0x2020 { intake := [{ ent0 with phase := .pulling }] }).target 0x2020).intake.find? (fun e => e.pkt.src = 0 && e.pkt.tag = 0 && e.phase = .pulling) = some { ent0 with phase := .pulling }
    ∧ slotIndex 0 0 = some 0 ∧ nodeKind 0x2000 = some (.sequencer 0) ∧ ((net0.setTarget 0 { asks := [{ idx := 5, tag := 0 }] }).target 0).asks = [{ idx := 5, tag := 0 }] ∧ net0.shimActive 0 = false
    ∧ net0.routesLoaded = true ∧ (net0.target 0).lent.length < 16 ∧ (net0.setTarget 0x2000 { intake := [talEnt] }).entryOf tallyPk = some talEnt ∧ Packet.arriving tallyPk 0x02 = tallyPk
    ∧ talEnt ∈ ((net0.setTarget 0x2000 { intake := [talEnt] }).target 0x2000).intake ∧ (net0.setTarget 0x2000 { intake := [talEnt] }).servable 0x2000 talEnt = true
    ∧ ((net0.setTarget 0x2000 { intake := [talEnt] }).target 0x2000).intake = [talEnt] ∧ net0.entryOf tallyPk = none
    ∧ 0x1000 ≤ (tallyPk.address.toNat - controlBase) % 0x1000000 ∧ net0.partOfCluster 0 = some 0 ∧ (runs.obj 0x4010 0 255) = 0 ∧ net0.obj 0x4010 0 255 ≠ 0
    ∧ domainOf 0x1000 = some 8 ∧ (let p := mesg 0x25 0x1000 0x2040 0; p.crcOk = true ∧ Packet.illegal p = false ∧ Packet.arriving p 0x25 = p ∧ Packet.illegal (Packet.seal { p with rsv := 1 }) = true)
    ∧ ent0.urgent = false ∧ ((net0.setTarget 0 { notes := [(0, 0)] }).target 0).notes = [(0, 0)]
    ∧ ((on { busy with watch := some ⟨0, 0, false⟩ }).tile 0).watch = some ⟨0, 0, false⟩ := by decide +kernel

/-- An outstanding READ of tile 0. -/
def rq0 : Req := ⟨0, rd0, .other, true, 0, 1000⟩
def out0 : State := net0.setInitiator 0 { out := [rq0], held := [(0x2020, 1)] }

theorem witness_RequestsEndAsTheirAnswersSay : out0.outstanding 0 0x2020 0 = some rq0 ∧ out0.outstanding 0 0x2020 1 = none ∧ (0x2020, 1) ∈ (out0.initiator 0).held
    ∧ (0x2020, 2) ∉ (out0.initiator 0).held ∧ (∀ c ∈ [0x10, 0x11, 0x12], out0.getsThrough (Packet.arriving (mesg c 0x2020 0 0) c) = true)
    ∧ (∀ st ∈ [0, 0x03, 0x02], out0.getsThrough (mesg 0x21 0x2020 0 st) = true) ∧ out0.getsThrough (mesg 0x26 0x2020 0 0x03) = true
    ∧ rq0.sent = true ∧ rq0.pkt.cmd = 0x01 ∧ rq0.pkt.cmd ≠ 0x03 ∧ Status.ofCode 2 = some .timeout ∧ nodeKind 0x2020 ≠ none ∧ Status.ofCode 0 = some .ok ∧ (nodeKind 0).isSome = true ∧ nodeKind 0x1200 = none
    ∧ ((on { busy with xfers := [tr0] }).tile 0).xfers.find? (fun x => x.seq = 0) = some tr0 := by decide +kernel

theorem witness_RequestsLeaveAndAreServed : let p := mkPacket 0x01 0x2041 0 0 0 8 0 0 0 0 0 0 0
    let s := net0.setInitiator 0x2041 { waiting := [(p, .other)] }
    let at_ := fun (n : Nat) (e : IntakeEntry) => net0.setTarget n { intake := [e] }
    (s.initiator 0x2041).waiting = [(p, .other)] ∧ s.nodeOfAddr 0 0 = some 0x2020 ∧ s.routesLoaded = true ∧ (s.routeTo 0x2041 0x2020).isSome = true ∧ (s.routeBack 0x2041 0x2020).isSome = true
    ∧ (s.tagNow 0x2041 { p with dest := 0x2020 }).isSome = true ∧ s.nodeOfAddr 0 0x3FFFFFFFFFFF = none ∧ State.reset.routesLoaded = false ∧ (({ s with selfTestFail := [0] } : State).routeTo 0x2041 0) = none
    ∧ (at_ 0x2020 ent0).servable 0x2020 ent0 = true ∧ ((at_ 0x2020 ent0).target 0x2020).intake = [ent0]
    ∧ (at_ 0x1000 ent0).servable 0x1000 ent0 = true ∧ ((at_ 0x1000 ent0).target 0x1000).intake = [ent0] ∧ (at_ 0 ent0).servable 0 ent0 = true ∧ ((at_ 0 ent0).target 0).intake = [ent0]
    ∧ net0.partOfCluster 0 = some 0 ∧ net0.condsIn 0x008000000000 8 = []
    ∧ net0.fencePasses 0 0 8 false true = true ∧ net0.fencePasses 0 0 8 false false = false ∧ (hbmTarget 0).1 = 0 := by decide +kernel

theorem witness_PacketsTakeTheirHops : let f := fun (pl : Place) (p : Packet) => ({ net0 with net := { flights := [⟨pl, p⟩] } } : State)
    let fl := fun (pl : Place) (p : Packet) => (⟨pl, p⟩ : Flight)
    let gate := { rd0 with route := 6 }
    let bulk := { rd0 with vc := 3, route := 6, dest := 33 }
    (f (.router 0 0 0 .out (.node 0)) rd0).net.flights[0]? = some (fl (.router 0 0 0 .out (.node 0)) rd0) ∧ (f (.router 0 0 0 .out (.node 0)) rd0).headOfQueue 0 (fl (.router 0 0 0 .out (.node 0)) rd0) = true
    ∧ (f (.router 0 0 0 .out (.node 0)) rd0).domain 0 = .on ∧ State.reset.domain 0 ≠ .on ∧ rd0.route.toNat % 8 = 0 ∧ gate.route.toNat % 8 = 6
    ∧ (f (.router 0 0 0 .out (.node 0)) gate).hasRoom (.switch 0 (.gate 0 0)) 1 = true ∧ (⟨0, 0, 0, 6⟩ : LinkId) ∉ net0.net.failedLinks
    ∧ meshHop 0 0 2 = some (0, 1) ∧ meshHop 0 0 1 = none ∧ meshHop 15 0 3 = none ∧ meshHop 3 0 4 = none
    ∧ (f (.router 0 0 1 .inward (.gate 0 0)) bulk).headOfQueue 0 (fl (.router 0 0 1 .inward (.gate 0 0)) bulk) = true ∧ tilePos 33 = (1, 1) ∧ (f (.router 0 0 1 .inward (.gate 0 0)) bulk).adaptiveCodes 0 0 1 1 1 ≠ []
    ∧ (f (.switch 0 (.node 0)) rd0).headOfQueue 0 (fl (.switch 0 (.node 0)) rd0) = true ∧ net0.porchBlocks 0x2020 = none ∧ State.reset.porchBlocks 0x2020 = some 16
    ∧ switchOf 0x2020 < 8 ∧ weltCrossing 0 1 = none ∧ weltCrossing 1 4 = some (0, 0) ∧ nextSwitch 1 5 = 4 ∧ nextSwitch 0 1 = 1 ∧ (net0.freeLane 0 0).isSome = true ∧ net0.gateChoices 0 1 1 ≠ []
    ∧ (domainOf 0x2020).any net0.porchOut = false ∧ (fl (.node 0 false) rd0).place = .node 0 false := by decide +kernel

/-- A header word in error leaves no packet; a payload word in error poisons its bytes. -/
theorem test_link_errors : (net0.receive rd0 (.switch 0 (.link 1)) ⟨0, true, []⟩).2 = none
    ∧ ((net0.receive { rd0 with bytes := 16 } (.switch 0 (.link 1)) ⟨0, false, [1]⟩).2.map (·.poisoned)) = some 0xFF00 := by decide +kernel

theorem witness_PorchesHoldAndReleasePackets : let r := awake State.reset
    let held := r.setPorch 16 { packets := [(rd0, false)], wakeSent := true }
    domainOf 0x2020 = some 16 ∧ domainOf 0x2050 = some 19 ∧ domainOf 0 = some 0 ∧ domainOf 0x2020 ≠ some 17 ∧ net0.domain 16 = .on ∧ net0.porch 16 = {} ∧ net0.shimActive 0x2020 = false
    ∧ r.domain 16 = .off ∧ (r.porch 16).wakeSent = false ∧ ¬ 64 ≤ (r.porch 16).packets.length ∧ r.shimActive 0x2020 = false ∧ r.partOfCluster 0 = none ∧ (net0.partOfCluster 0).isSome = true
    ∧ 64 ≤ ((r.setPorch 16 { packets := List.replicate 64 (rd0, false) }).porch 16).packets.length ∧ (r.declareDead 0x2020 3).shimActive 0x2020 = true
    ∧ (held.porch 16).packets = [(rd0, false)] ∧ (held.porch 16).wakeSent = true ∧ held.domain 16 ≠ .on ∧ (r.setDomain 18 .waking).domain 18 = .waking
    ∧ ((net0.setObj 0x6100 0 0 1).portEnabled 0) = true ∧ (net0.port 0).link = .down := by decide +kernel

theorem witness_NodesAreIsolatedByTheirTriggers : (nodeKind 0).isSome = true ∧ (net0.target 0).shim = false ∧ nodeKind 0x3FFF = none ∧ nodeKind 0x2048 = some (.newen 0) ∧ (net0.port 0).link ≠ .up
    ∧ ((net0.setPort 0 { link := .up }).port 0).link = .up ∧ nodeKind 0x2000 = some (.sequencer 0) ∧ (net0.declareDead 0 3).target 0 ≠ {} ∧ ((net0.declareDead 0 3).target 0).shim = true
    ∧ ((net0.setTarget 0 { intake := [ent0] }).target 0).intake ≠ [] ∧ (net0.target 0).intake = [] ∧ net0.obj 0x3103 1 1 = 1 ∧ (net0.setObj 0x3103 2 16 1).obj 0x3103 2 16 ≤ 0 + (if 0 < net0.obj 0x3103 3 1000 * 2000 then 1 else 0)
    ∧ 1 < net0.obj 0x3103 2 16 ∧ (net0.setObj 0x3103 1 1 0).obj 0x3103 1 1 ≠ 1 ∧ net0.partOfCluster 0 = some 0 := by decide +kernel

/-! ### Witnesses: memory, copies, the Shelf -/

theorem witness_MemoryUpkeepFollowsItsRules : let s := net0.setTarget 0x2020 { intake := [{ ent0 with phase := .inService }, { ent0 with pkt := { rd0 with src := 1 }, phase := .inService }] }
    let c := { net0 with host := { cxl := 3, hostLines := [0] } }
    s.inService 0 = [] ++ { ent0 with phase := .inService } :: [{ ent0 with pkt := { rd0 with src := 1 }, phase := .inService }] ∧ s.condsIn 0 8 = [] ∧ 0 < ent0.pkt.bytes.toNat
    ∧ c.heldLines 0 8 ≠ [] ∧ c.host.cxl = 3 ∧ s.host.cxl ≠ 3 ∧ ¬ (0 < 0 / 64 ∨ (0 + 8 - 1) / 64 < 0)
    ∧ (s.scrubSpace 0x2020).isSome = true ∧ (s.scrubSpace 0x1000).isSome = true ∧ (s.scrubSpace 0).isSome = true ∧ s.obj 0x3300 2 1 ≠ 0 ∧ s.domain 16 = .on
    ∧ ((s.setObj 0x3300 2 1 0).obj 0x3300 2 1) = 0 ∧ s.domain 1 ≠ .on ∧ s.domain 17 ≠ .on ∧ (s.partOfCluster 0).isSome = true ∧ State.reset.domain 0 ≠ .on ∧ (part0 State.reset).partOfCluster 0 = some 0
    ∧ (net0.target 0x2020).intake = [] ∧ (s.target 0x2020).intake ≠ [] ∧ (∀ i < 16, (net0.target (0x2020 + i)).intake = []) ∧ ({ test := { looping := some 0 } } : State).test.looping = some 0
    ∧ ((s.setObj 0x9031 0 0 1).obj 0x9031 0 0) = 1 ∧ s.obj 0x9031 0 0 ≠ 1 ∧ ({ s with mem := { writebacks := [0], marks := [1] } } : State).mem.writebacks = [0] := by decide +kernel

/-- A copy of 8 bytes in HBM by any engine, of VI 0 in partition 0. -/
def copy0 : CopyDesc := { id := 0, owner := .memCopy ⟨0, 0, 0⟩, vi := 0, part := 0, words := ofLanes 64 [0, 64, 8 + 2 ^ 32 + 2 ^ 48, 0, 0, 0, 31 * 256, 0] }

/-- The copy stands in its queue of engine 0, runs there, and has ended there. -/
def copying (d : CopyDesc) : State := net0.setEngine 0 { queues := [(2, [d])] }
def full0 : CopyDesc := { copy0 with words := copy0.words - 2 ^ 384 * 31 * 256 }

theorem witness_CopyEnginesFollowTheirRules : let s := copying { copy0 with active := true }
    net0.placeFor copy0 = some 0 ∧ copy0.owner.queue 0 = 2 ∧ net0.ceIsolated 0 = false ∧ (net0.declareDead 0x2010 3).ceIsolated 0 = true ∧ ({ net0 with copyWait := [] ++ copy0 :: [] } : State).copyWait = [copy0]
    ∧ ((copying copy0).engine 0).queue 2 = [] ++ copy0 :: [] ∧ copy0.active = false ∧ copy0.done = none ∧ (copyFields copy0.words).x = 8 ∧ (copyFields copy0.words).y ≠ 0 ∧ (copyFields copy0.words).z ≠ 0
    ∧ (convMode (copyFields copy0.words).conv 0).bind (fun m => convBytes m 8) = some 8 ∧ (copyFields 0).x = 0
    ∧ (s.engine 0).queue 2 = [{ copy0 with active := true }] ∧ (s.engine 0).queue 0 = [] ∧ (s.engine 0).queue 1 = [] ∧ s.vigil.hung = false ∧ (s.partition 0).state ≠ .hung
    ∧ ({ copy0 with active := true } : CopyDesc).readPos < copy0.total ∧ 0 ∉ copy0.readAhead ∧ copy0.first = none ∧ copy0.voided = false ∧ (copyFields copy0.words).side = 0 ∧ (copyFields copy0.words).srcAt 0 = 0
    ∧ s.nodeOfAddr 0 0 = some 0x2020 ∧ s.routesLoaded = true ∧ (s.routeTo 0x2010 0x2020).isSome = true ∧ (s.routeBack 0x2010 0x2020).isSome = true ∧ s.stagingRoom 0 8 false = true
    ∧ (s.tagNow 0x2010 (mkPacket 0x01 0x2010 0x2020 0 0 8 0 0 0 2 0 0 0)).isSome = true ∧ ((copying { copy0 with done := some .ok }).engine 0).queue 2 = [{ copy0 with done := some .ok }]
    ∧ Sparse.wf [] ((copying copy0).engine 0).queues ∧ ((((copying copy0).engine 0).queue 2).map (·.id)).Nodup
    ∧ (net0.setEngine 0 { queues := [(2, List.replicate 8 full0)] }).placeFor full0 = none := by decide +kernel

/-- A WARM session of one layer whose page 0 stands in T1, and the WAKE that promotes it. -/
def sess0 : Session := { state := .warm, layers := 1, pMax := 8, maxTokens := 1024, tokens := 1, rowBytes := 4096, pages := [(0, some ⟨.t1, false, false, 0⟩)] }
def wake0 : ShelfOp := { id := 0, kind := .wake 0, sid := 0, cmd := none, tW := 0 }
def shelf0 : State := { net0 with shelf := { sessions := [(0, sess0)], cache := [0], promotions := [wake0], ready := true } }

/-- The same WAKE after its reservation, with page 0 to move into frame 0; that move in flight; and the session LIVE and idle. -/
def shelf1 : State := { shelf0 with shelf := { shelf0.shelf with promotions := [{ wake0 with started := true, todo := [0], frames := [0] }] } }
def mv0 (r : Option Status) (again : Bool) : PageMove := { id := 0, op := 0, sid := 0, entry := 0, target := ⟨.t0, false, false, 0⟩, result := r, again := again }
def moving0 (r : Option Status) (again : Bool) : State := { shelf0 with shelf := { shelf0.shelf with moves := [mv0 r again] } }
def idle0 : State := { net0 with shelf := { sessions := [(0, { sess0 with state := .live })], cache := [0] } }

theorem witness_SessionShelfFollowsItsRules : shelf0.shelf.promotions = wake0 :: [] ∧ wake0.sid = 0 ∧ wake0.started = false ∧ shelf0.movesIn 0 = [] ∧ 0 ∈ shelf0.shelf.cache ∧ shelf0.mem.cond = []
    ∧ wake0.kind = .wake 0 ∧ wake0.status = .ok ∧ wake0.begun = false ∧ (shelf0.session 0).state ≠ .closed ∧ (net0.session 0).state = .closed ∧ (shelf0.session 0).broken = false ∧ (shelf0.partition 0).state ≠ .hung
    ∧ (shelf0.session 0).tokens + 0 ≤ (shelf0.session 0).maxTokens ∧ (shelf0.session 0).maxTokens < (shelf0.session 0).tokens + 1024
    ∧ shelf0.hotMissing (shelf0.session 0) ≠ [] ∧ (shelf0.hotMissing sess0).length + (sess0.appendMissing 0).length ≤ (shelf0.setObj 0x5030 2 0 1).freeFrameCount 0
    ∧ net0.shelf.promotions = [] ∧ (moving0 none false).movesIn 0 ≠ []
    ∧ shelf1.vigil.hung = false ∧ shelf1.shelfEngine.isSome = true ∧ (∀ y ∈ shelf1.shelf.promotions ++ shelf1.shelf.demotions, (shelf1.partition (shelf1.session y.sid).part).state ≠ .hung)
    ∧ (shelf1.shelf.promotions.find? (fun o => o.started && !o.todo.isEmpty && shelf1.mayMove o)).map (fun o => (o.todo, o.frames)) = some ([0], [0])
    ∧ (shelf0.session 0).page 0 = some ⟨.t1, false, false, 0⟩ ∧ Tier.t1 ≠ .t0 ∧ (shelf0.session 0).closing = false
    ∧ (moving0 (some .ok) false).shelf.moves.find? (fun m => m.id = 0) = some (mv0 (some .ok) false) ∧ (moving0 (some .timeout) true).shelf.moves.find? (fun m => m.id = 0) = some (mv0 (some .timeout) true)
    ∧ (mv0 (some .targetIsolated) false).again = false
    ∧ ((net0.setPartition 0 { net0.partition 0 with framesZeroing := [0] }).partition 0).framesZeroing = [0]
    ∧ (idle0.session 0).state = .live ∧ (idle0.session 0).pin = false ∧ idle0.active 0 = false ∧ (idle0.session 0).promoting = false ∧ (idle0.session 0).demoting = false ∧ (idle0.session 0).closing = false
    ∧ idle0.shelf.promotions = [] ∧ idle0.shelf.demotions = [] := by decide +kernel


/-! ### Witnesses: objects, partitions, the host -/

/-- The row's write passes, as a computation. -/
def passes (s : State) (i : Instr) : Bool :=
  match objectRow i with
  | some (r, idx, sub, n, v) => s.answers r && decide (v < 2 ^ (8 * n)) && (match s.checkWrite r idx sub n v with | .ok _ => true | .error _ => false)
  | none => false

theorem writePasses_of_passes {s : State} {i : Instr} (h : passes s i = true) : s.writePasses i := by
  unfold passes at h
  split at h
  · rename_i r idx sub n v e
    simp only [Bool.and_eq_true, decide_eq_true_eq] at h
    obtain ⟨⟨a, b⟩, c⟩ := h
    split at c
    · exact ⟨r, idx, sub, n, v, _, e, a, b, by assumption⟩
    · cases c
  · cases h

/-- A part whose boot has completed, with the CAN node 1 at level EXPERT. -/
def lit : State := { State.reset with power := { porHeld := false, locked := true, stage := 0xFF, bootState := 1, pinStuck := true, resetLow := true }, dict := { expert := [.can 1] } }

/-- The rows that write objects, each with a value that passes in `lit`. -/
def litRows : List Instr := [.accessLevel (.can 1) 1, .discardStaged (.can 1) 1, .persistRestore (.can 1) 1, .tileDisableMap (.can 1) 1, .queueFlush (.can 1) 0 1, .progFlush (.can 1) 0 1,
  .isolate (.can 1) 0x2020, .deviceReset (.can 1) 1, .vigilRequest (.can 1) 8, .resetPinMask (.can 1) 1, .clusterMapWrite (.can 1) 0 1, .fenceWrite (.can 1) 0 0 0x20000, .portEnable (.can 1) 0 1,
  .lbStart (.can 1) 1, .objectWrite (.can 1) 0x3103 3 4 5, .objectWrite (.can 1) 0x4010 0 1 1]

theorem witness_rows : ∀ i ∈ litRows, lit.writePasses i := fun i h => writePasses_of_passes (List.all_eq_true.mp (by decide +kernel : litRows.all (passes lit) = true) i h)

/-- The change class of a write that passes. -/
def changeOf (e : Except Status ObjDesc) : Option ObjChange :=
  match e with
  | .ok d => some d.change
  | .error _ => none

theorem witness_ObjectWritesAreCheckedAndApplied : State.reset.answers (.can 1) = false ∧ lit.answers (.can 1) = true
    ∧ lit.mayWriteFrom (.udp 0 0) = false ∧ lit.mayWriteFrom (.can 1) = true ∧ lit.objDesc 0xA000 0 = none ∧ ((lit.objDesc 0x1000 0).map (·.acc)) = some .ro
    ∧ mailboxMay (.mailbox 1) 0x3103 = false ∧ ((lit.objDesc 0x3103 0).map (·.expert)) = some true ∧ Requester.can 2 ∉ lit.dict.expert
    ∧ changeOf (lit.checkWrite (.can 1) 0x4012 0 1 1) = some .boundary
    ∧ changeOf (lit.checkWrite (.can 1) 0x3103 3 4 5) = some .live ∧ lit.dict.staged.length < 4096 ∧ lit.stagedBytes + 1 ≤ 262144
    ∧ (changeOf (lit.checkWrite (.can 1) 0x4012 0 1 1)).isSome = true ∧ lit.heldInReset 0x4012 = false ∧ lit.dict.dirty = [] ∧ ({ lit with dict := { dirty := [0x310303] } } : State).dict.dirty ≠ [] := by decide +kernel

/-- Partition 0 being formed of cluster 0, whose domains are on. -/
def form0 : State := ((lit.setPartition 0 { clusters := 1, state := .forming }).setDomain 0 .on).setDomain 8 .on

theorem witness_PartitionsFollowTheirRules : lit.test.state ≠ 1 ∧ (lit.partition 0).state ≠ .hung ∧ lit.power.bootSel ≠ 3 ∧ (∀ q < 8, (lit.partition q).clusters &&& 1#8 = 0)
    ∧ (form0.partition 1).clusters &&& 1#8 = 0 ∧ (form0.partition 0).clusters ≠ 0 ∧ passes form0 (.clusterMapWrite (.can 1) 0 0) = true ∧ passes form0 (.clusterMapWrite (.can 1) 1 1) = true
    ∧ form0.shelf.retired = [] ∧ form0.power.porHeld = false ∧ form0.power.holds = [] ∧ ({ form0.power with holds := [.perst] } : Power).holds ≠ []
    ∧ (form0.partition 0).state = .forming ∧ form0.domain 0 = .on ∧ form0.domain 8 = .on ∧ (form0.partition 0).clusters.getLsbD 0 = true
    ∧ form0.vigil.hung = false ∧ form0.freezing 0 = false ∧ ({ form0 with vigil := { freezes := [⟨1, 1, 0, 0, 0, none⟩] } } : State).freezing 0 = true
    ∧ ((form0.setPartition 0 { clusters := 1, state := .resetting }).partition 0).state = .resetting ∧ (∀ v < 64, (form0.vi v).resetting = none)
    ∧ passes lit (.fenceWrite (.can 1) 0 0 1) = true ∧ 0x20000 + 0 ≤ lit.descBase ∧ (lit.partition 0).models = [] ∧ (∀ j < 7, lit.obj 0x5030 j 0 = 0)
    ∧ (∀ q < 8, (lit.partition q).zeroing = []) ∧ (∀ q < 8, ∀ f ∈ lit.fences q, f.2 = 0)
    ∧ ((lit.setPartition 0 { zeroing := [(0, 8)] }).partition 0).zeroing = [(0, 8)] := by decide +kernel

theorem witness_ViResetsFollowTheirSteps : let s := runs.setVi 0 { runs.vi 0 with resetting := some 5 }
    (awake runs).power.porHeld = false ∧ (awake runs).power.holds = [] ∧ runs.viPart 0 = some 0 ∧ (runs.partition 0).state ≠ .resetting ∧ runs.power.porHeld = true ∧
    (runs.vi 0).resetting = none ∧ (s.vi 0).resetting.isSome = true ∧ runs.freezing ((runs.viPart 0).getD 8) = false
    ∧ ({ runs with vigil := { freezes := [⟨1, 1, 0, 0, 0, none⟩] } } : State).freezing ((runs.viPart 0).getD 8) = true
    ∧ s.viRequests 0 = [] ∧ s.viDispatched 0 = false ∧ (s.setQueue 0 0 [{ task0 with phase := .dispatched }]).viDispatched 0 = true
    ∧ (s.setQueue 0 0 [{ task0 with phase := .dispatched }]).queue 0 0 = [{ task0 with phase := .dispatched }] ∧ task0.cmd.vi = 0 := by decide +kernel

/-- VI 0 of `runs` with MSI-X on, event 3 unmasked and ring 0 enabled with one entry to fetch at host address 0. -/
def vi0 : Vi := { runs.vi 0 with mask := 0, msixEnable := true, rings := [(0, { base := hostBase, size := 4, tail := 1, enable := true })] }
def ringed : State := let s := runs.setVi 0 vi0
  { s with host := { s.host with cmds := [] } }

theorem witness_RegistersAndDoorbells : (ringed.vi 0).mask.getLsbD 3 = false ∧ (ringed.vi 0).msixEnable = true ∧ (ringed.vi 0).functionMask = false ∧ ((ringed.vi 0).msixWord 31 3).testBit 0 = true
    ∧ ((ringed.setVi 0 { vi0 with msix := [(127, 1)] }).vi 0 |>.msixWord 31 3) = 0 ∧ (runs.vi 0).mask.getLsbD 3 = true
    ∧ ringed.viState 0 = 2 ∧ ((ringed.vi 0).ring 0).size = 2 ^ 2 ∧ ((ringed.vi 0).ring 0).base % 4096 = 0 ∧ ((ringed.vi 0).ring 0).base + 512 ≤ 2 ^ 48 ∧ ringed.viState 1 ≠ 2
    ∧ ((ringed.vi 0).ring 1).size = 0 ∧ (∃ c ∈ runs.host.cmds, c.key.vi = 0) ∧ ringed.host.cmds = [] ∧ (ringed.vi 0).cqSize = 2 ^ 1 ∧ (ringed.vi 0).cqBase % 4096 = 0
    ∧ ¬ (0 = 0 ∧ ringed.bootLoad = true) ∧ ringed.obj 0x5030 0 0 = 0 ∧ (ringed.session 0).state = .closed
    ∧ (let s := ringed.setObj 0x5030 1 0 4; s.obj 0x5030 1 0 = 4 ∧ ringed.viPart 0 = some 0) := by decide +kernel

/-- A NOP entry with tag 0, its record at address 0, and vector 0. -/
def nopEntry : Nat := 2 ^ 8

/-- `ringed` with the fetch of that entry out. -/
def fetched : State := ringed.setRing 0 0 { (ringed.vi 0).ring 0 with fetch := some (0, 1) }

theorem witness_EntriesAreFetchedAndValidated : (ringed.vi 0).cqEnable = true ∧ ((ringed.vi 0).ring 0).fetch = none ∧ ((ringed.vi 0).ring 0).tail ≠ ((ringed.vi 0).ring 0).head
    ∧ ringed.vigil.hung = false ∧ (ringed.vi 0).busMaster = true ∧ fetched.host.linkState = 2 ∧ ((fetched.vi 0).ring 0).enable = true ∧ fetched.viState 0 = 2 ∧ fetched.host.cmds = []
    ∧ hostBase ≤ ((fetched.vi 0).ring 0).base + 128 * (0 % ((fetched.vi 0).ring 0).size) ∧ entryOp nopEntry ≠ 1 ∧ ringed.viState 1 ≠ 2
    ∧ (∀ w < 64, ringed.viState w = 2 → w = 0) ∧ (∀ q < 4, ((ringed.vi 0).ring q).enable = true → q = 0)
    ∧ ((fetched.vi 0).ring 0).fetch = some (0, 1) ∧ fetched.validate 0 0 nopEntry = .ok ∧ fetched.validate 0 0 (2 ^ 8 + 31 * 2 ^ 16) = .outOfRange ∧ fetched.pauses 0 0 nopEntry = false
    ∧ ({ fetched with host := { fetched.host with cmds := [{ run0 with entry := 7 }] } } : State).pauses 0 0 nopEntry = true
    ∧ ringed.addressOk 0 256 256 = false ∧ ringed.addressOk 0 hostBase 256 = true ∧ (ringed.partition 0).state = .ready := by decide +kernel

/-- A command of VI 0, ring 0 that has just been accepted: its words. -/
def cmdOf (ws : List Nat) : Cmd := { key := ⟨0, 0, 0⟩, entry := ofLanes 64 ws, part := 0, phase := .running, tA := 0 }
/-- `runs` with that command alone, sessions 0 to 3 for partition 0, and a model with one list of one item for cluster 0. -/
def cmds (ws : List Nat) : State :=
  let s := (((net0.setObj 0x5809 0 255 0).setObj 0x5030 1 0 4).setVi 0 { runs.vi 0 with cqSize := 2 }).setPartition 0 { net0.partition 0 with models := [(0, some ⟨0, [[(0, hostBase)]], [], [], []⟩)] }
  { s with host := { s.host with cmds := [cmdOf ws], linkState := 2 } }
/-- Partition 0 HUNG. -/
def hung0 (s : State) : State := s.setPartition 0 { s.partition 0 with state := .hung }
/-- Session 0 as given. -/
def withSession (s : State) (x : Session) : State := { s with shelf := { s.shelf with sessions := [(0, x)] } }

theorem witness_HostCommandsFollowTheirRules : (∀ op < 10, (cmds [op]).cmd ⟨0, 0, 0⟩ = some (cmdOf [op]) ∧ entryOp (cmdOf [op]).entry = op) ∧ ((cmds [1]).vi 0).resetting = none
    ∧ (cmds [1]).modelOf 0 0 = some ⟨0, [[(0, hostBase)]], [], [], []⟩ ∧ runSession (ofLanes 64 [1, 0, 0, 0, 2 ^ 48]) = none
    ∧ (cmdOf [1]).items = [] ∧ (cmdOf [1]).live = 0 ∧ (cmdOf [1]).failure = none ∧ (cmdOf [1]).cancelled = none ∧ ({ cmdOf [1] with reserved := true } : Cmd).reserved = true
    ∧ (cmds [1]).host.linkState = 2 ∧ (cmds [1]).shelf.demotions = [] ∧ (cmds [1]).mem.cond = []
    ∧ runItems (ofLanes 64 [1, 0, 0, 0, 2 ^ 48]) ⟨0, [[(0, hostBase)]], [], [], []⟩ ≠ [] ∧ runItems (ofLanes 64 [1]) ⟨0, [[(0, hostBase)]], [], [], []⟩ = []
    ∧ ((cmds [1]).deviceWrite pcieNode 0 0 0 stripedBase 64 0).1 = .ok ∧ ((cmds [1]).deviceWrite pcieNode 0 0 0 0 64 0).1 ≠ .ok
    ∧ runSession (ofLanes 64 [1, 0, 0, 0, 2 ^ 16]) = some 0 ∧ (cmds [4]).namesSession 0 0 = true ∧ (cmds [4]).namesSession 0 9 = false ∧ ((hung0 (cmds [4])).partition 0).state = .hung
    ∧ ((cmds [4]).session 0).state = .closed ∧ ((cmds [4]).session 0).closing = false ∧ (cmds [4]).profile 0 0 0 = 0 ∧ ((withSession (cmds [4]) sess0).session 0).state ≠ .closed
    ∧ (withSession (cmds [5]) sess0).active 0 = false ∧ (withSession (cmds [1, 0, 0, 0, 2 ^ 16]) sess0).active 0 = true ∧ sess0.broken = false ∧ sess0.pin = false
    ∧ ((withSession (cmds [5]) { sess0 with state := .live }).session 0).state = .live ∧ (cmds [5]).shelf.moves = [] ∧ (cmds [5]).shelf.promotions = []
    ∧ ((cmds [7]).host.cmds.takeWhile (fun x => x.key ≠ ⟨0, 0, 0⟩)) = [] ∧ (entryW (ofLanes 64 [7]) 0).testBit 9 = false ∧ (entryW (ofLanes 64 [7 + 2 ^ 9]) 0).testBit 9 = true
    ∧ 2 ^ 31 ≤ (((cmds [7]).seq 0).epoch - 1).toNat ∧ 0 ∈ (cmds [7]).clustersOf 0
    ∧ bitsAt (entryW (ofLanes 64 [8, 0, 0, hostBase, 16]) 4) 0 16 = 16 ∧ bitsAt (entryW (ofLanes 64 [8, 0, 0, hostBase, 16]) 3) 0 48 = hostBase ∧ hostBase < 0x800000000000
    ∧ ((cmds [8]).vi 0).busMaster = true ∧ bitsAt (entryW (ofLanes 64 [9]) 4) 0 12 = 0
    ∧ (((cmds [9]).begin ⟨0, 0, 0⟩).deviceAccess (devicePacket pcieNode 0 0 0 (tileAddr 0 0x1C200) 128 0 0) false).st = .ok
    ∧ (((cmds [9]).begin ⟨0, 0, 0⟩).deviceAccess (devicePacket pcieNode 0 0 0 (tileAddr 512 0x1C200) 128 0 0) false).st ≠ .ok := by decide +kernel

/-- A RUN of list 0 on cluster 0 that names session 0, with append count `a`, before a ring that has fetched it. -/
def runEntry (a : Nat) : Nat := ofLanes 64 [1 + 2 ^ 8, 0, 0, 0, 2 ^ 48 + 2 ^ 16, 2 ^ 32 + a]
def runFetched (x : Session) : State :=
  let s := ((withSession (cmds [1]) x).setObj 0x4010 0 255 0).setVi 0 { vi0 with rings := [(0, { base := hostBase, size := 4, tail := 1, enable := true, fetch := some (0, 1) })] }
  { s with host := { s.host with cmds := [] } }

theorem witness_EntriesAreFetchedAndValidated_run : let s := runFetched { sess0 with state := .live }
    runSession (runEntry 0) = some 0 ∧ entryOp (runEntry 0) = 1 ∧ s.validate 0 0 (runEntry 0) = .ok ∧ s.pauses 0 0 (runEntry 0) = false ∧ (s.session 0).broken = false ∧ s.mem.cond = []
    ∧ s.shelf.demotions = [] ∧ s.needsReservation 0 0 = false ∧ s.needsReservation 0 1 = true ∧ (runFetched sess0).needsReservation 0 0 = true := by decide +kernel

/-- A LOAD_MODEL whose manifest lies at host address 0, over a fence of 128 MiB that holds a segment entry: 64 bytes from 0x1000. -/
def load0 : State :=
  let s := ((cmds [2, 0, 0, hostBase, 0]).setObj 0x5001 4 0 0x8000000).setPartition 0 (net0.partition 0)
  { s with mem := { s.mem with cells := [(1, 16), (8, 64)] } }

/-- The manifest with `n` segments. -/
def manifest (n : Nat) : Nat := n

theorem witness_LoadModelFollowsItsRules : load0.cmd ⟨0, 0, 0⟩ = some (cmdOf [2, 0, 0, hostBase, 0]) ∧ (load0.readManifest 0 0 (manifest 0)).st = .ok ∧ (load0.readManifest 0 0 (manifest 1)).st = .ok
    ∧ (load0.readManifest 0 0 (2 ^ 32)).st = .illegalEncoding ∧ (load0.readManifest 0 0 1025).st = .outOfRange ∧ load0.modelOf 0 1 = none ∧ ((cmds [2]).modelOf 0 0).isSome = true
    ∧ (Sparse.get none (load0.partition 0).models 0).isSome = false ∧ load0.loads = []
    ∧ (let m := load0.readManifest 0 0 (manifest 1); let r := placeAll (m.s.pools 0 (m.s.arenaFrames 0)) false m.segs; r.beyond = [] ∧ r.placed.flatMap (m.s.segmentCopies 0) ≠ [])
    ∧ (let m := load0.readManifest 0 0 (manifest 0); let r := placeAll (m.s.pools 0 (m.s.arenaFrames 0)) false m.segs; r.beyond = [] ∧ r.placed.flatMap (m.s.segmentCopies 0) = [])
    ∧ (let s := { load0 with mem := { load0.mem with cells := [(1, 16), (11, 4)] } }; let m := s.readManifest 0 0 (manifest 1); m.st = .ok ∧ (placeAll (m.s.pools 0 (m.s.arenaFrames 0)) false m.segs).beyond ≠ [])
    ∧ load0.obj 0x5040 0 0 = 0 ∧ (load0.vi 0).busMaster = true ∧ load0.host.linkState = 2 ∧ (load0.vi 0).resetting = none := by decide +kernel

/-- A link that is up in a part that serves the host. -/
def linked : State := { lit with host := { linkState := 2, ready := true, perstLow := false } }

theorem witness_PortResetsAndConfiguration : linked.vigil.freezes = [] ∧ linked.viState 0 ≠ 0 ∧ linked.viState 1 = 0 ∧ ((linked.setVi 1 { vf := true }).viState 1) ≠ 0
    ∧ ((linked.setVi 0 { d3hot := true }).vi 0).d3hot = true ∧ linked.host.linkState = 2 ∧ lit.host.linkState ≠ 2 ∧ State.reset.power.porHeld = true ∧ linked.power.porHeld = false
    ∧ linked.obj 0x6000 6 0 = 0 ∧ ((linked.setObj 0x6000 6 0 1).obj 0x6000 6 0) ≠ 0 ∧ linked.power.early = false ∧ linked.power.strapped = false ∧ linked.power.bootSel < 2 ∧ linked.power.stage ≠ 2
    ∧ (let s := { lit with power := { lit.power with holds := [.perst], stage := 0 } }; s.power.holds = [.perst] ∧ s.host.linkState = 0 ∧ s.power.stage = 0)
    ∧ linked.host.ready = true ∧ linked.test.state ≠ 1 ∧ (linked.vi 0).pba = 0 ∧ linked.host.bifurcation = 0 ∧ (∀ v < 64, (linked.vi v).vf = false)
    ∧ (let s := { lit with host := { linkState := 1 } }; s.host.linkState = 1 ∧ 0xB < s.power.stage)
    ∧ (let s := { lit with power := { lit.power with bootSel := 1, stage := 4 } }; s.power.bootSel = 1 ∧ s.power.stage = 4 ∧ s.power.imageDone = false) := by decide +kernel

/-- An image of 64 bytes with nothing in its body: its CRC word is that of the empty string. -/
def image0 : Nat := ofLanes 64 [0x46384C47 + 64 * 2 ^ 32, 0, 0, 0, 0, 0, 0, crc32 0 64 64]

theorem witness_ImageGo : laneNat image0 64 0 % 2 ^ 32 = 0x46384C47 ∧ laneNat image0 64 0 / 2 ^ 32 = 64 ∧ laneNat image0 64 1 < 2 ^ 32 ∧ (∀ i < 7, 2 ≤ i → laneNat image0 64 i = 0)
    ∧ laneNat image0 64 7 < 2 ^ 32 ∧ laneNat image0 64 7 = crc32 image0 64 64 ∧ imageValid image0 = true := by decide +kernel

/-- Node 0's read of host address 0, in service at the port, and the request it became. -/
def toHost0 : IntakeEntry := { pkt := mkPacket 0x01 0 0x2010 0 hostBase 8 0 0 0 0 0 0 0, arrival := 0, phase := .inService }
def asked0 : HostReq := { tag := 5, src := 0, rtag := 0, off := 0, len := 8, vi := 0, a := 0, xlate := false, start := 0 }
def hosts : State :=
  let s := linked.setTarget pcieNode { intake := [toHost0] }
  { s with host := { s.host with reqs := [asked0] } }

theorem witness_HostTransactions : hosts.host.reqs.find? (fun r => r.tag = 5) = some asked0 ∧ hosts.host.invalidations = [] ∧ (∀ r ∈ hosts.host.reqs, r.tag ≠ 6) ∧ hosts.host.atc.length < 4096
    ∧ (hosts.target pcieNode).intake.find? (fun e => e.pkt.src.toNat = asked0.src && e.pkt.tag.toNat = asked0.rtag && e.phase = .inService) = some toHost0 ∧ toHost0.pkt.payload = 0 ∧ toHost0.pkt.poisoned = 0
    ∧ toHost0.pkt.status = 0 ∧ hosts.host.reqs.erase asked0 = []
    ∧ ({ asked0 with xlate := true } : HostReq).xlate = true ∧ ((hosts.setVi 0 { ats := true }).vi 0).ats = true ∧ (hosts.vi 0).ats = false
    ∧ hosts.host.reqs.filter (fun r => r.vi = 0 && decide (r.a < 0 + 8) && decide (0 < r.a + max r.len 1)) ≠ [] ∧ linked.host.reqs = []
    ∧ hosts.host.cxl = 0 ∧ ({ hosts.host with cxl := 1 } : HostPort).cxl ≠ 0 ∧ linked.obj 0x6000 8 0 ≤ 0 ∧ 0 + 64 ≤ hbmBytes linked ∧ (linked.viPart 0).getD 255 = 255
    ∧ ((linked.setObj 0x5809 0 255 0).viPart 0).getD 255 < 8 ∧ ((linked.setObj 0x6000 10 255 0).obj 0x6000 10 255) < 8
    ∧ (0 : Nat) ∈ ({ hosts.host with snoops := [0] } : HostPort).snoops ∧ (0 : Nat) ∉ hosts.host.snoops
    ∧ (hosts.target pcieNode).intake.filter (fun e => e.toHost && e.ready && e.pkt.vi.toNat = 0 && (e.pkt.address.toNat - hostBase) / 4096 = 0) = [] := by decide +kernel

/-! ### Witnesses: Newen, the dictionary's networks, Vigil, power, tests -/

/-- Newen port 0 as given. -/
def newen (x : NewenPort) : State := lit.setPort 0 x
/-- A frame of a type with nothing in it, and a DATA frame of one slot of VC1 with that SEQ; their CRC is good. -/
def frame (t : Nat) : Frame := mkFrame t 0 0xFFFF (0, 0, 0) [] none 0 0
def data (seq : Nat) : Frame := mkFrame 1 seq 0xFFFF (0, 0, 0) [(1, ⟨0, 0⟩)] none 0 0
/-- A request of two flits (R424). -/
def req2 : Packet := { mkPacket 0x01 0 0x2048 0 0 8 0 0 0 0 0 0 0 with ext := some { device := 1, node := 0, responder := 0 } }
def up0 : NewenPort := { link := .up }

/-- A bad CRC. -/
def badFrame : Frame := { frame 0 with bits := (frame 0).bits ^^^ 1#2048 }

set_option maxRecDepth 100000 in
theorem witness_NewenFrames : (newen up0).port 0 = up0 ∧ ((newen { up0 with badRun := 7 }).port 0).badRun = 7 ∧ (State.reset.port 0).link ≠ .up ∧ 40960 * (0 + 1) ≤ ({ up0 with sent := 40960 } : NewenPort).sent
    ∧ up0.sent < 40960 * (up0.aligned + 1) ∧ up0.laceBeat = 0 ∧ (newen up0).lacing.toPorts = [] ∧ up0.laceOut = [] ∧ up0.sent % 5 = 0 ∧ ({ up0 with resend := [frame 1] } : NewenPort).resend = [frame 1]
    ∧ 1024 ≤ ({ up0 with replay := List.replicate 1024 badFrame } : NewenPort).replay.length ∧ 0 < ({ up0 with buffers := (9, 9, 9), rspOut := [req2] } : NewenPort).credits.2.1
    ∧ linkFlits req2 = 2 ∧ 2 ≤ ({ up0 with buffers := (9, 9, 9), reqOut := [req2] } : NewenPort).credits.1 ∧ up0.reqFlit = 0
    ∧ (let x : NewenPort := { up0 with buffers := (9, 9, 9), laceOut := [(3, up0msg)] }; x.laceNext = some (3, up0msg) ∧ x.replay.length + (up0msg.beats 3 2).length ≤ 1024 ∧ (up0msg.beats 3 2).length ≤ x.credits.2.2) := by decide +kernel

set_option maxRecDepth 100000 in
theorem witness_NewenFrames_received : (frame 0).crcOk = true ∧ (frame 0).ftype = 0 ∧ badFrame.crcOk = false ∧ (data 3).ftype = 1 ∧ (data 3).seq = 3 ∧ (data 0).seq = up0.expect ∧ (data 0).lace = none ∧ (data 0).slots = [(1, ⟨0, 0⟩)]
    ∧ up0.reqIn = [] ∧ linkFlits (packetOf [⟨0, 0⟩]) ≠ 0 ∧ up0.protocolError (frame 0) = false ∧ up0.protocolError (frame 5) = true ∧ (frame 5).crcOk = true ∧ up0.frames ∉ up0.badFrames ∧ (∀ g ∈ up0.replay, g.seq ≠ (frame 0).ack)
    ∧ (mkFrame 1 0xFFFF 0 (0, 0, 0) [] none 0 0).seq = (frame 0).ack ∧ ({ up0 with replay := [mkFrame 1 0xFFFF 0 (0, 0, 0) [] none 0 0] } : NewenPort).protocolError (frame 0) = false
    ∧ up0.protocolError (data 0) = false ∧ up0.protocolError (data 3) = false ∧ up0.protocolError (frame 3) = false ∧ up0.protocolError (frame 2) = false ∧ up0.protocolError (frame 4) = false
    ∧ up0.replayAt ≠ some (newen up0).calends ∧ up0.replays + 1 < (newen up0).obj 0x6100 4 8 ∧ (newen up0).obj 0x6100 4 8 ≤ 7 + 1 := by decide +kernel

set_option maxRecDepth 100000 in
/-- A frame of two slots and a lace beat reads back as it was formed (R414, R415). -/
theorem test_frame_fields : let f := mkFrame 1 0x1234 0x5678 (1, 2, 3) [(1, ⟨7, 1⟩), (2, ⟨9, 0⟩)] (some { tag := 0xABCD, data := 5 }) 2 0
    f.crcOk = true ∧ f.seq = 0x1234 ∧ f.ack = 0x5678 ∧ f.slots = [(1, ⟨7, 1⟩), (2, ⟨9, 0⟩)] ∧ f.lace = some { tag := 0xABCD, data := 5 } ∧ f.byte 242 1 = 2 := by decide +kernel

/-- An intake entry of a request for another device. -/
def away0 : IntakeEntry := { ent0 with pkt := req2 }

theorem witness_NewenPortsTrainAndForward : (∀ k < 5, (newen { link := .training, phase := k }).port 0 = { link := .training, phase := k }) ∧ (newen up0).obj 0x6100 1 2 = 2 ∧ (newen up0).obj 0x6100 2 4 = 4
    ∧ (0xF0#8 &&& 0xF0 = 0xF0) ∧ ({ link := .training, phase := 4, measured := some 100, helloSeen := true } : NewenPort).helloDue = false
    ∧ ((newen { link := .retraining }).target (newenNode 0)).intake = [] ∧ (newen up0).obj 0x3200 1 255 ≠ 0 ∧ passes (newen up0) (.portEnable (.can 1) 0 0) = true ∧ passes lit (.portEnable (.can 1) 0 1) = true
    ∧ lit.test.state ≠ 1 ∧ (lit.port 0).link = .down ∧ lit.domain 18 = .off ∧ (lit.setDomain 18 .on).domain 18 = .on ∧ ((newen up0).setObj 0x6100 0 0 1).obj 0x6100 0 0 = 1
    ∧ (((newen up0).setTarget (newenNode 0) { intake := [away0] }).target (newenNode 0)).intake = [away0] ∧ away0.pkt.ext.isSome = true ∧ away0.phase = .waiting ∧ away0.pkt.cmd ≠ 0x03
    ∧ ({ away0 with pkt := { away0.pkt with cmd := 0x03 } } : IntakeEntry).pkt.cmd = 0x03 ∧ (newen up0).vigil.hung = false := by decide +kernel

/-- A message of `n` bytes of data. -/
def msg (t : BitVec 4) (len n data : Nat) : OapMsg := { type := t, tid := 7, index := 0x1000, sub := 0, length := BitVec.ofNat 16 len, n := n, data := data }
/-- `lit` with every IPv6 address allowed to write. -/
def udp : State := lit.setObj 0x1151 0 1 (withLength 17 0)

/-- A block write of the CAN node 1 that is arriving: 80 of 100 bytes are to come. -/
def block0 : BlockXfer := { req := .can 1, tid := 7, index := 0x1151, sub := 0, total := 100, got := 20, data := 0, next := 1, cal := 0 }
/-- The response kept for the CAN node 1's message 7. -/
def kept0 : LastResponse := { req := .can 1, tid := 7, type := 1, index := 0x1000, sub := 0, msgs := [], cal := 0 }

theorem witness_ObjectAccessMessages : lit.answers (.can 1) = true ∧ State.reset.answers (.can 1) = false ∧ (msg 1 0 0 0).version = 1 ∧ (msg 1 0 0 0).rsp = false ∧ lit.dict.repeats = []
    ∧ (((lit.heard (.can 1)).oapStat 2 1).readObject (.can 1) 0x1000 0).isOk = true
    ∧ (((lit.heard (.can 1)).oapStat 2 1).readObject (.can 1) 0xA000 0).isOk = false
    ∧ ({ lit with dict := { lit.dict with repeats := [kept0] } } : State).dict.repeats.find? (fun x => x.req = Requester.can 1 && x.tid = (msg 1 0 0 0).tid && x.type = 1 && x.index = (msg 1 0 0 0).index && x.sub = (msg 1 0 0 0).sub && decide (lit.calends < x.cal + 4000000000)) = some kept0
    ∧ (lit.abandon (.can 1)).transfers < 16 ∧ segmentBytes (.can 1) < (msg 4 100 56 0).length.toNat ∧ (msg 4 100 56 0).n = segmentBytes (.can 1)
    ∧ lit.mayWriteFrom (.udp 0 0) = false ∧ udp.mayWriteFrom (.udp 0 0) = true ∧ 16 ≤ ({ lit with dict := { lit.dict with blocks := List.replicate 16 block0 } } : State).transfers
    ∧ block0.got < block0.total ∧ (msg 4 1 56 0).length.toNat = block0.next ∧ block0.got + min (block0.total - block0.got) (segmentBytes (.can 1)) < block0.total
    ∧ ({ block0 with got := 80 } : BlockXfer).total ≤ 80 + min (100 - 80) (segmentBytes (.can 1)) ∧ lit.dict.more = []
    ∧ (lit.mailbox (.mailbox 0)).state = 0 ∧ (({ lit with host := { vis := [(0, { mailbox := { state := 3 } })] } } : State).mailbox (.mailbox 0)).state = 3
    ∧ linked.answers (.mailbox 0) = true ∧ bitsAt (memNat (linked.mailbox (.mailbox 0)).request 0 8) 0 4 ≠ 5 ∧ linked.host.bifurcation = 0
    ∧ (lit.setObj 0x1110 0 0 1).obj 0x1110 0 0 = 1 ∧ lit.obj 0x1110 0 0 ≠ 1 ∧ (msg 7 8 8 0).length = 8 := by decide +kernel

/-- A commit of the channels' class of queue 0 for cluster 0, asked for by UDP. -/
def commit0 : Commit := { no := 1, values := [(0x4012 * 256, 3)], scope := 1, force := false, deadline := 0, reply := .requester (.udp 0 0), tid := 7 }
def commits0 : State := { udp with dict := { udp.dict with commits := [commit0] } }

theorem witness_Commits : udp.answers (.udp 0 0) = true ∧ (udp.heard (.udp 0 0)).mayWriteFrom (.udp 0 0) = true ∧ lit.mayWriteFrom (.udp 0 0) = false ∧ (msg 5 8 8 0).n = (msg 5 8 8 0).length.toNat
    ∧ udp.dict.repeats = [] ∧ udp.dict.commits.length < 16 ∧ udp.firstBad = none
    ∧ ({ udp with dict := { udp.dict with staged := [(0x4012 * 256, some 9)] } } : State).firstBad = some (0x4012 * 256, .outOfRange)
    ∧ ({ udp with dict := { udp.dict with staged := [(0x4012 * 256, some 3)] } } : State).firstBad = none ∧ udp.commitScope [(0x4012 * 256, 3)] ≠ 0
    ∧ commits0.atBoundary 0 = true ∧ (runs.setQueue 0 0 [{ task0 with phase := .dispatched }]).atBoundary 0 = false ∧ commit0.scope.getLsbD 0 = true ∧ commit0.applied.getLsbD 0 = false
    ∧ (commits0.objDesc 0x4012 0).isSome = true ∧ (commits0.affects (0x4012 * 256)).getLsbD 0 = true ∧ commit0.applied ||| (1#8 <<< 0) = commit0.scope
    ∧ ({ commit0 with scope := 3 } : Commit).applied ||| (1#8 <<< 0) ≠ 3 ∧ ({ commit0 with values := [] } : Commit).applied ≠ commit0.scope ∧ (0x4012 * 256 : Nat) < 2 ^ 24 := by decide +kernel

/-- `lit` on CAN as node 5, in round 0 of two windows, and with Ethernet enabled by default. -/
def can5 : State :=
  let s := ((lit.setObj 0x1100 1 1 1).setObj 0x1110 2 0 2).setObj 0x1112 0 0 1000
  { s with dict := { s.dict with canNode := 5, roundAt := some 0 } }
/-- A CAN frame of node 1 for node 5 with 8 bytes: an OAP message of a type with `len` data bytes. -/
def canTo5 (t len : Nat) : CanFrame := { extended := true, id := BitVec.ofNat 29 (2 ^ 16 + 5 * 2 ^ 8 + 1), fd := true, n := 8, data := 1 * 2 ^ 6 + t + len * 2 ^ 48 }
def waits0 : CanOut := { prio := 3, dest := 1, msg := msg 1 0 0 0 }

theorem witness_FieldNetworks : can5.obj 0x1100 1 1 = 1 ∧ can5.dict.canNode ≠ 0 ∧ can5.power.porHeld = false ∧ lit.dict.canNode = 0 ∧ (canTo5 1 0).id.toNat / 2 ^ 8 % 2 ^ 8 = can5.dict.canNode
    ∧ (canTo5 1 0).id.toNat / 2 ^ 16 % 2 ^ 8 = 1 ∧ can5.obj 0x1100 2 0 ≠ 1 ∧ ((can5.setObj 0x1100 2 0 1).obj 0x1100 2 0) = 1 ∧ can5.dict.canParts = []
    ∧ can5.dataBytes (.can 1) (oapParse 8 (canTo5 1 0).data) = 0 ∧ can5.dataBytes (.can 1) (oapParse 8 (canTo5 2 4).data) = 4 ∧ 56 < can5.dataBytes (.can 1) (oapParse 8 (canTo5 2 60).data)
    ∧ (can5.setObj 0x1110 0 0 1).obj 0x1110 0 0 = 1 ∧ can5.obj 0x1110 0 0 = 0 ∧ can5.dict.roundLost = false ∧ 0 < can5.obj 0x1110 2 0 ∧ can5.dict.roundAt.isSome = true ∧ can5.dict.canQueue = []
    ∧ waits0.record = none ∧ waits0.mark = false ∧ (can5.recValue 0).isOk = false ∧ ((can5.setObj 0x1120 1 0 (0x1000 * 256)).recValue 0).isOk = true ∧ 0 < can5.messageTime false 8
    ∧ (can5.window 0).1 = 0 ∧ 0 < (can5.window 0).2 ∧ can5.messageTime false 8 ≤ 2000 * ((can5.window 0).1 + (can5.window 0).2) ∧ can5.recField 0 2 = 0
    ∧ can5.obj 0x1150 0 1 = 1 ∧ ((can5.setObj 0x1150 0 1 0).obj 0x1150 0 1) ≠ 1 ∧ can5.obj 0x1150 1 1 = 1 ∧ ((can5.setObj 0x1150 1 1 0).obj 0x1150 1 1) = 0
    ∧ ((can5.setObj 0x1150 2 0 5).obj 0x1150 2 0) = 5 := by decide +kernel

/-- A freeze of partition 0 taken up, and a snapshot of it. -/
def frozen0 : State := { runs with vigil := { triggers := [(1, 0, 0)], freezes := [⟨1, 1, 0, 0, 0, none⟩], state := 1, scope := 0, count := 1 } }
/-- Almanac collecting, with a mark on its way, one buffered and a dump of 300 bytes. -/
def almanac0 : State :=
  let s := runs.setDomain 19 .on
  { s with almanac := { coming := [⟨2, 0, 0x2048, [0]⟩], marks := [⟨2, 0, 0, [0]⟩], streams := [(0, 300, 0)] } }

theorem witness_VigilAndAlmanac : (runs.setQueue 0 0 [{ task0 with phase := .dispatched }]).partOfCluster 0 = some 0 ∧ ((runs.setQueue 0 0 [{ task0 with phase := .dispatched }]).partition 0).state = .ready
    ∧ (∃ q ∈ ((runs.setQueue 0 0 [{ task0 with phase := .dispatched }]).seq 0).queues, ∃ t ∈ q.2, t.phase = .dispatched) ∧ State.reset.partOfCluster 0 = none
    ∧ ({ runs with vigil := { triggers := [(1, 0, 0)] } } : State).vigil.freezes = [] ∧ (∃ f ∈ frozen0.vigil.freezes, f.scope = 0) ∧ runs.vigil.triggers = [] ∧ runs.vigil.hung = false
    ∧ ({ frozen0 with vigil := { frozen0.vigil with freezes := [⟨1, 1, 0, 0, 0, some 5⟩] } } : State).vigil.waitingParts = [] ∧ 4096 + 0 ≤ 0x4000000
    ∧ nodeKind 0x3FFF = none ∧ nodeKind 0x2048 ≠ none
    ∧ ({ waiting := [5] } : EventRing).lastWrite ≠ some 0 ∧ ({ waiting := [5], lastWrite := some 0 } : EventRing).lastWrite = some 0
    ∧ almanac0.almanac.coming.find? (fun r => r.node = 0x2048) = some ⟨2, 0, 0x2048, [0]⟩ ∧ almanac0.domain 19 = .on ∧ runs.domain 19 ≠ .on ∧ almanac0.almanac.marks.length < 64
    ∧ 0 < ((on { busy with ring := { written := 1 } }).tile 0).ring.written
    ∧ (∀ r ∈ almanac0.almanac.marks, (almanac0.calends + 2 ^ 32 - r.cal % 2 ^ 32) % 2 ^ 32 < 2 ^ 30) ∧ almanac0.almanac.sinceAlign < 1024 ∧ almanac0.almanac.traceLast = false
    ∧ ¬ ({ almanac0.almanac with marks := List.replicate 64 ⟨2, 0, 0, [0]⟩ } : Almanac).marks.length < 64 ∧ almanac0.almanac.test = false ∧ ({ test := true } : Almanac).test = true
    ∧ almanac0.almanac.marks ≠ [] ∧ 1024 ≤ ({ sinceAlign := 1024 } : Almanac).sinceAlign := by decide +kernel

/-- A part in boot stage `n`. -/
def stage (n : Nat) : State := { State.reset with power := { porHeld := false, stage := n } }

theorem witness_PowerAndReset : State.reset.power.porHeld = true ∧ lit.power.porHeld = false ∧ State.reset.power.holds = [] ∧ ({ State.reset.power with stage := 1, resetLow := true } : Power).stage = 1
    ∧ ({ State.reset.power with stage := 1, thermTrip := true } : Power).porHeld = true ∧ State.reset.power.thermTrip = false
    ∧ lit.power.pinMask = false ∧ lit.power.resetHeld = false ∧ lit.power.stage ≠ 1 ∧ lit.power.stage ≠ 2 ∧ lit.power.stage ≠ 4 ∧ lit.power.thermTrip = false ∧ lit.power.asked = false
    ∧ ({ lit.power with asked := true } : Power).asked = true ∧ ({ lit.power with holds := [.resetPin], resetHeld := true, stage := 0 } : Power).holds = [.resetPin]
    ∧ ([30, 50] : List Int).foldl max 40 < 125 ∧ 125 ≤ ([130] : List Int).foldl max 40 ∧ ({ lit.power with aboveSince := some 0, thermalDuty := 7 } : Power).tripping = false
    ∧ (∀ n < 14, (stage n).power.stage = n ∧ (stage n).power.bootState = 0) ∧ (stage 2).power.bootSel < 4 ∧ (stage 4).power.bootSel ≠ 1 ∧ (stage 4).power.imageDone = false
    ∧ ({ lit.power with holds := [.thermal] } : Power).holds ≠ [] ∧ lit.partOfCluster 0 = none ∧ net0.power.holds = [] ∧ ((net0.setPartition 0 { net0.partition 0 with state := .resetting }).partition 0).state = .resetting
    ∧ ({ dict := { storeOk := true, storeOldOk := true } } : State).dict.storeOldOk = true ∧ imageValid image0 = true ∧ imageValid 0 = false ∧ (stage 8).power.coldBoot = true
    ∧ net0.partOfCluster 0 = some 0 ∧ (net0.partition 0).state = .ready ∧ net0.domain 0 = .on ∧ net0.computeIdle 0 = true ∧ (on busy).computeIdle 0 = false ∧ net0.domain 8 = .on
    ∧ (∀ i < 64, (net0.target (sliceNode i)).intake = []) ∧ (net0.porch 8).packets = [] ∧ (net0.setDomain 18 .on).domain 18 = .on ∧ (∀ n < 8, net0.portEnabled n = false) ∧ (net0.porch 18).packets = []
    ∧ net0.domain 19 = .off ∧ (net0.setDomain 19 .on).domain 19 = .on ∧ net0.almanac.streams = [] := by decide +kernel

/-- `lit` with a test chosen. -/
def testOf (target inst depth : Nat) : State := (((lit.setObj 0x8000 0 0 target).setObj 0x8000 1 0 inst).setObj 0x8000 2 1 depth)

/-- A part in BOOT_SEL 3 with TRST_N high and an instruction in the test port. -/
def scanned (code : BitVec 8) : State := { lit with power := { lit.power with bootSel := 3 }, tap := { trstLow := false, code := code } }

theorem witness_TestsAndTheTestPort : passes lit (.lbStart (.can 1) 1) = true ∧ lit.test.state ≠ 1 ∧ (testOf 0 5 1).testListed (testOf 0 5 1).testSet = false ∧ (testOf 6 0 1).testListed (testOf 6 0 1).testSet = true
    ∧ (testOf 6 0 1).testHolds (testOf 6 0 1).testSet = true ∧ (testOf 3 0 1).testListed (testOf 3 0 1).testSet = true ∧ (testOf 3 0 1).testHolds (testOf 3 0 1).testSet = false
    ∧ ((testOf 3 0 1).setObj 0x1100 1 1 0).testHolds (testOf 3 0 1).testSet = true ∧ (testOf 0 0 4).host.linkState ≠ 2
    ∧ ({ testOf 6 0 1 with test := { state := 1 } } : State).test.locked = none ∧ (testOf 1 8 4).testSet.target = 1 ∧ (testOf 1 8 4).testSet.inst = 8 ∧ ({ testOf 6 0 1 with test := { state := 1, locked := some 0 } } : State).test.locked.isSome = true
    ∧ (testOf 6 0 1).idleLanes 0 ≠ [] ∧ (testOf 9 0 1).testSet.target = 9 ∧ lit.tap.trstLow = true ∧ ({ trstLow := false } : Tap).trstLow = false
    ∧ (testOf 6 0 1).test.locked = none ∧ lit.power.bootSel ≠ 3 ∧ ({ lit.power with bootSel := 3 } : Power).bootSel = 3 ∧ (scanned 5).tapSelects = 5 ∧ (scanned 2).tapSelects = 2
    ∧ lit.tapSelects.toNat ∉ [3, 4, 5, 6, 7] ∧ lit.power.opened = false ∧ State.reset.power.porHeld = true ∧ lit.power.porHeld = false ∧ ({ lit.power with bootSel := 2, opened := true } : Power).bootSel = 2 := by decide +kernel

/-! ### Ill-formed terms, one for each check of `Instr.wf` -/

theorem smoke_node_reserved : (Instr.requestIssue 0x3FFF).wf = false ∧ (Instr.requestIssue 0x2020).wf = true := by decide +kernel
theorem smoke_packet_data : (Instr.nocRead { rd0 with payload := 2 ^ 64 }).wf = false ∧ (Instr.nocRead { rd0 with poisoned := 256 }).wf = false ∧ (Instr.nocRead { rd0 with dest := 0x1200 }).wf = false
    ∧ (Instr.nocRead { rd0 with src := 0x2008 }).wf = false ∧ (Instr.nocRead rd0).wf = true := by decide +kernel
theorem smoke_oap : (Instr.oapRead (.can 1) (msg 1 0 1393 0)).wf = false ∧ (Instr.oapRead (.can 1) (msg 1 0 1 256)).wf = false ∧ (Instr.oapRead (.can 1) (msg 1 0 0 0)).wf = true := by decide +kernel
theorem smoke_can : (Instr.canFrameReceive ⟨true, 0, true, 9, 0⟩).wf = false ∧ (Instr.canFrameReceive ⟨true, 0, false, 12, 0⟩).wf = false ∧ (Instr.canFrameReceive ⟨true, 0, true, 1, 256⟩).wf = false
    ∧ (Instr.canFrameReceive (canTo5 1 0)).wf = true := by decide +kernel
theorem smoke_ethernet : (Instr.ethernetFrame (.echo 0 1 256)).wf = false ∧ (Instr.ethernetFrame (.lease 0 33 0)).wf = false ∧ (Instr.ethernetFrame .other).wf = true := by decide +kernel
theorem smoke_link_errors : (Instr.routerHop 0 ⟨0, false, [512]⟩ 0).wf = false ∧ (Instr.routerHop 0 ⟨0, false, [511]⟩ 0).wf = true := by decide +kernel
theorem smoke_upset : (Instr.laceKeyArrival 0 ⟨0, 3⟩).wf = false ∧ (Instr.laceResult 0 ⟨0, 3⟩).wf = false ∧ (Instr.laceResult 0 ⟨0, 2⟩).wf = true := by decide +kernel
theorem smoke_failing : (Instr.deviceResetSequence (.cluster 0 [0x3FFF])).wf = false ∧ (Instr.partitionReady ⟨0, [0x3FFF]⟩).wf = false ∧ (Instr.partResetComplete ⟨0, [0x3FFF]⟩).wf = false
    ∧ (Instr.partitionReady ⟨0, [0x2000]⟩).wf = true := by decide +kernel
theorem smoke_boot_found : (Instr.bootStageEnd { lanes := [(2, 0)] }).wf = false ∧ (Instr.bootStageEnd { lanes := [(0, 264)] }).wf = false ∧ (Instr.bootStageEnd { tiles := [4096] }).wf = false
    ∧ (Instr.bootStageEnd { slices := [512] }).wf = false ∧ (Instr.bootStageEnd { eyelets := [587] }).wf = false ∧ (Instr.bootStageEnd { routers := [(0, 16, 0)] }).wf = false ∧ (Instr.bootStageEnd { links := [(8, 0, 0, 0)] }).wf = false ∧ (Instr.bootStageEnd { failedStacks := [8] }).wf = false
    ∧ (Instr.bootStageEnd {}).wf = true := by decide +kernel
theorem smoke_test_found : (Instr.lbDurationEnd { lanes := [264] }).wf = false ∧ (Instr.lbDurationEnd { eyelets := [(587, 0)] }).wf = false ∧ (Instr.lbDurationEnd { links := [(0, 16, 0, 0)] }).wf = false
    ∧ (Instr.lbDurationEnd {}).wf = true := by decide +kernel
theorem smoke_configuration : (Instr.configurationRequest (.sriov 0 64 true)).wf = false ∧ (Instr.configurationRequest (.deviceControl 0 100 512)).wf = false
    ∧ (Instr.configurationRequest (.deviceControl 0 1024 512)).wf = false ∧ (Instr.configurationRequest (.bar4Size 3)).wf = false ∧ (Instr.configurationRequest (.deviceControl 0 512 8192)).wf = false ∧ (Instr.configurationRequest (.deviceControl 0 512 4096)).wf = true := by decide +kernel
theorem smoke_sizes : (Instr.ringTail 0 0 3 0).wf = false ∧ (Instr.registerWrite none 0x4000000 4 0).wf = false ∧ (Instr.registerWrite none 0 5 0).wf = false ∧ (Instr.registerWrite none 0 4 0).wf = true
    ∧ (Instr.bar4Access false 0 0 0).wf = false ∧ (Instr.bar4Access false 0 4097 0).wf = false ∧ (Instr.udpDatagram 0 0 65508 0).wf = false ∧ (Instr.go none 2048).wf = false := by decide +kernel
theorem smoke_numbers : (Instr.latchStart 0 0 (2 ^ 32)).wf = false ∧ (Instr.run 0 0 (2 ^ 32)).wf = false ∧ (Instr.eyeletCombine 0 0 587 0).wf = false ∧ (Instr.eyeletCombine 0 0 0 3).wf = false
    ∧ (Instr.copyActivate 0 66).wf = false ∧ (Instr.wake 65536).wf = false ∧ (Instr.hostCompletion 1024 ⟨0, .ok⟩).wf = false ∧ (Instr.sensorRead [] 0).wf = false
    ∧ (Instr.pcieLinkUp 1 0 false 0).wf = false ∧ (Instr.pcieLinkUp 1 17 false 0).wf = false ∧ (Instr.pcieLinkUp 1 16 false 0).wf = true := by decide +kernel

/-! ### Words and values of the spec's worked cases -/

/-- Words of the program of spec/06_tile_programs.md, "one projection chunk as a program". -/
theorem test_worked_program_words : tileDecode 0 0x1010000000004000#64 = some (.movi 0 ⟨1, 0, 0x4000⟩) ∧ tileDecode 0 0x2451700000000000#64 = some (.get 0 ⟨5, 1, 7, 0, 0⟩)
    ∧ tileDecode 0 0x0580000000000000#64 = some (.wait 0 ⟨true, false, false, false, 0, 0⟩) ∧ tileDecode 0 0x3104000000000000#64 = some (.drain 0 ⟨false, 0, 4, 0⟩)
    ∧ tileDecode 0 0x0520000000000000#64 = some (.wait 0 ⟨false, false, true, false, 0, 0⟩) ∧ tileDecode 0 0x0100000000000000#64 = some (.endTask 0 r0) := by decide +kernel

/-- The MMA word of the same program, field by field as the spec reads it. -/
theorem test_worked_mma_word : tileDecode 0 0x3020502123010010#64 = some (.mma 0 ⟨false, false, true, false, false, false, 0, 5, 0, 2, 1, 2, 3, 16, 16⟩) := by decide +kernel

/-- Unused opcodes name no instruction. -/
theorem test_reserved_opcodes : tileDecode 0 0x0800000000000000#64 = none ∧ tileDecode 0 0xFF00000000000000#64 = none := by decide +kernel

/-- A word per family, from the formats of R156. -/
theorem test_family_words : tileDecode 0 0x0400100300000009#64 = some (.loop 0 ⟨0, 0, 0, true, 3, 9⟩) := by decide +kernel

/-- The code a conversion of the worked table of spec/03_number_formats.md gives, unscaled. -/
def conv (src dst : NumFmt) (rnd : Rounding) (ovf : Overflow) (strict : Bool) (c : Nat) : Nat := (convertCode ⟨src, dst, rnd, ovf, strict, 0⟩ c).1.code

theorem test_worked_conversions : conv .fp32 .e4m3 .rne .sat false 0x3BE00000 = 0x04 ∧ conv .fp32 .e4m3 .rtz .sat false 0x3BE00000 = 0x03 ∧ conv .bf16 .e4m3 .rne .sat false 0x43EB = 0x7E
    ∧ conv .bf16 .e4m3 .rne .special false 0x43EB = 0x7F ∧ conv .bf16 .e4m3 .rtz .special false 0x43EB = 0x7E ∧ conv .fp32 .lf8 .rne .sat false 0xC0400000 = 0xCD
    ∧ conv .fp32 .lf8 .rtz .sat false 0xC0400000 = 0xCC ∧ conv .fp32 .lf8 .rne .sat false 0xC3660000 = 0xFE ∧ conv .fp32 .lf8 .rne .special false 0xC3660000 = 0xFF
    ∧ conv .fp32 .lf4 .rne .sat false 0x3E99999A = 0x2 ∧ conv .int32 .bf16 .rne .sat false 0x80000000 = 0x7FC0 ∧ conv .int32 .int8 .rne .sat false 0x80000000 = 0x80
    ∧ conv .fp16 .fp32 .rne .special true 0x8000 = 0x80000000 ∧ conv .fp16 .fp32 .rne .special false 0x8000 = 0 := by decide +kernel

/-- "Lorfa products" of the same chapter. -/
theorem test_worked_lorfa : rne32 (lorfaProduct 0xA1 0x33) = 0xBCB50000 ∧ rne32 (lorfaProduct (lf4ToLf8 0xB) 0x4D) = 0xBFC56000 := by decide +kernel

/-- "Compensation at work", "A subnormal" and "Integer overflow" of spec/04_the_dot_product_contract.md. -/
theorem test_worked_folds :
    (let p := (decode .bf16 0x3980).mul (decode .bf16 0x3980)
     let a := foldFp 0 0 ((decode .bf16 0x3F80).mul (decode .bf16 0x3F80))
     let a := foldFp a.1 a.2 p
     let a := foldFp a.1 a.2 p
     let a := foldFp a.1 a.2 p
     a.1 = 0x3F800000 ∧ drainFp a.1 a.2 = 0x3F800002)
    ∧ (let p := (decode .bf16 0x1A00).mul (decode .bf16 0x1A00)
       let a := foldFp 0 0 ((decode .bf16 0x1C80).mul (decode .bf16 0x1C80))
       let a := foldFp a.1 a.2 p
       let a := foldFp a.1 a.2 p
       a = (0x200, 0) ∧ drainFp a.1 a.2 = 0x200)
    ∧ foldInt 0x7FFFC000 16129 = 0x7FFFFF01 ∧ foldInt 0x7FFFFF01 16129 = 0x80000000 ∧ foldInt 0x80000000 (-16256) = 0x80000000 := by decide +kernel

/-- "Merging two top-k lists" of spec/05_the_tile.md. -/
theorem test_worked_top_k : topK 4 ([(0x40A00000, 10), (0x40400000, 2), (0x40400000, 7), (0x7FC00000, 1)] ++ [(0x40800000, 40), (0x40400000, 5), (0xFF800000, 3)])
    = [(0x40A00000, 10), (0x40800000, 40), (0x40400000, 2), (0x40400000, 5)] ++ List.replicate 12 (0x7FC00000, 0xFFFFFFFF) := by decide +kernel

/-- SUM.R of spec/08_the_lacing_tree.md: keys and the total of lane 0. -/
theorem test_worked_sumr : keyOf 0x3F800000 = 0x7F ∧ keyOf 0x33800000 = 0x67 ∧ keyMerge (keyOf 0x7F800000) (keyMerge (keyOf 0xFF800000) (keyOf 0x40A00000)) = 0x60000081
    ∧ quantise 0x3F800000 0x7F = 2 ^ 70 ∧ quantise 0x33800000 0x7F = 2 ^ 46 ∧ sumrResult (2 ^ 70 + 2 ^ 47) 0x7F = 0x3F800001 := by decide +kernel

/-- "The striped address" of spec/02_die_floorplan_identities.md: partition 3 of clusters 2, 3 and 6. -/
theorem test_worked_striped : (State.reset.setPartition 3 { clusters := 0x4C }).striped 3 0x03456789 = some (406, 0x45789) ∧ sliceAddr 406 0x45789 = 0x0080130C5789 := by decide +kernel

/-- ADD wraps at 2^64, and a source may be the destination (R177). -/
theorem test_add_wraps : (match exec (.add 0 { r0 with d := 1, a := 1, i := true, imm := 1 }) (on { busy with g := [(1, ⟨0xFFFFFFFFFFFFFFFF#64, false⟩)] }) with
    | .next u => ((u.tile 0).greg 1).val == 0 | _ => false) = true := by decide +kernel

/-- SRA keeps the sign; a shift uses its low six bits (R177). -/
theorem test_sra_sign : (match exec (.sra 0 { r0 with d := 2, a := 1, i := true, imm := 4 }) (on { busy with g := [(1, ⟨0x8000000000000000#64, false⟩)] }) with
    | .next u => ((u.tile 0).greg 2).val == 0xF800000000000000#64 | _ => false) = true := by decide +kernel

/-- A step takes the front command alone. -/
theorem test_step_takes_front : (match step { State.reset with pending := [.trstN false, .align] } with
    | .next u => u.pending == [.align] && !u.tap.trstLow | _ => false) = true := by decide +kernel

/-- The published check values of CRC-16/IBM-3740 (R251) and CRC-32 (R414) over the bytes "123456789". -/
theorem test_crc_check_values : [0x31, 0x32, 0x33, 0x34, 0x35, 0x36, 0x37, 0x38, 0x39].foldl (crcByte 16 0x1021) 0xFFFF = 0x29B1
    ∧ crc32 0x393837363534333231 0 9 = 0xCBF43926 := by decide +kernel

/-- The seven ones that PRBS7 starts from, and its next bit, 1 xor 1 (R561). -/
theorem test_prbs7_begins : (patternTake 0 8 (patternSeed 0)).1 = 0x7F := by decide +kernel

end Sys2Proof.Tests
end

/-! Reading memory as a number (R9): the bytes of a range are the lanes of width 8 of the number it reads as, and with
that O9, on the laws of a byte after a write and after a zeroing. -/

namespace Sys2Proof.Machine

theorem memNat_eq_sum (m : List Host.Cell) (a n : Nat) :
    memNat m a n = ((memSlice m a n).map (fun c => c.2.toNat * 2 ^ (8 * (c.1 - a)))).sum := by
  rw [memNat, List.sum_eq_foldl, List.foldl_map]

@[simp] theorem memNat_nil (a n : Nat) : memNat [] a n = 0 := rfl

@[simp] theorem memNat_zero_length (m : List Host.Cell) (a : Nat) : memNat m a 0 = 0 := by
  have hslice : memSlice m a 0 = [] := List.filter_eq_nil_iff.2 fun c _ => by simp
  simp [memNat, hslice]

theorem memNat_cons (j : Nat) (v : BitVec 8) (r : List Host.Cell) (a n : Nat) :
    memNat ((j, v) :: r) a n = (if a ≤ j ∧ j < a + n then v.toNat * 2 ^ (8 * (j - a)) else 0) + memNat r a n := by
  simp only [memNat_eq_sum, memSlice, List.filter_cons, Bool.and_eq_true, decide_eq_true_eq]
  split <;> simp

theorem memByte_cons (j : Nat) (v : BitVec 8) (r : List Host.Cell) (b : Nat) :
    memByte ((j, v) :: r) b = if j = b then v else memByte r b := rfl

/-- Little-endian (R9): the lowest address gives the lowest byte. Rising addresses are needed, so that no cell is counted
twice. -/
theorem memNat_succ {m : List Host.Cell} (h : m.Pairwise (fun x y => x.1 < y.1)) (a n : Nat) :
    memNat m a (n + 1) = (memByte m a).toNat + memNat m (a + 1) n * 2 ^ 8 := by
  induction m with
  | nil => simp [memByte]
  | cons c r ih =>
    obtain ⟨j, v⟩ := c
    obtain ⟨hj, hr⟩ := List.pairwise_cons.1 h
    rw [memNat_cons, memNat_cons, memByte_cons, ih hr]
    rcases Nat.lt_trichotomy j a with hlt | rfl | hgt
    · rw [if_neg (by omega), if_neg (by omega), if_neg (by omega)]
      omega
    · have hnone : memByte r j = 0 := Sparse.get_of_not_mem 0 fun x hx => (hj x hx).ne'
      rw [if_pos (by omega), if_pos rfl, if_neg (by omega), hnone]
      simp
    · have hpow : 2 ^ (8 * (j - a)) = 2 ^ (8 * (j - (a + 1))) * 2 ^ 8 := by
        rw [← Nat.pow_add]
        congr 1
        omega
      have hrange : (a ≤ j ∧ j < a + (n + 1)) ↔ (a + 1 ≤ j ∧ j < a + 1 + n) := by omega
      rw [if_neg (Nat.ne_of_gt hgt)]
      simp only [hrange, hpow]
      split
      · ring
      · omega

/-- The number read is made of the bytes read, the first lowest. -/
theorem memNat_eq_ofLanes {m : List Host.Cell} (h : Memory.wf m) (a n : Nat) :
    memNat m a n = ofLanes 8 ((List.range n).map fun i => (memByte m (a + i)).toNat) := by
  induction n generalizing a with
  | zero => simp [ofLanes]
  | succ n ih =>
    have hshift : (fun i => (memByte m (a + 1 + i)).toNat) = (fun i => (memByte m (a + i)).toNat) ∘ Nat.succ := by
      funext i
      simp [Nat.add_assoc, Nat.add_comm 1 i]
    rw [memNat_succ h.1, ih, hshift, List.range_succ_eq_map, List.map_cons, List.map_map]
    simp only [ofLanes, List.foldr_cons, Nat.add_zero, Nat.mod_eq_of_lt (memByte m a).isLt]

theorem memNat_lt {m : List Host.Cell} (h : Memory.wf m) (a n : Nat) : memNat m a n < 2 ^ (8 * n) := by
  rw [memNat_eq_ofLanes h]
  simpa using ofLanes_lt 8 ((List.range n).map fun i => (memByte m (a + i)).toNat)

theorem laneNat_memNat {m : List Host.Cell} (h : Memory.wf m) (a : Nat) {n i : Nat} (hi : i < n) :
    laneNat (memNat m a n) 8 i = (memByte m (a + i)).toNat := by
  rw [memNat_eq_ofLanes h, laneNat_ofLanes, getD_map_range _ _ hi, Nat.mod_eq_of_lt (memByte m (a + i)).isLt]

/-- A range whose bytes are those of `v` reads as `v`, as far as it reaches. -/
theorem memNat_eq_mod_of_bytes {m : List Host.Cell} (h : Memory.wf m) {a n v : Nat}
    (hb : ∀ i < n, memByte m (a + i) = BitVec.ofNat 8 (v >>> (8 * i))) : memNat m a n = v % 2 ^ (8 * n) := by
  induction n generalizing a v with
  | zero => simp [Nat.mod_one]
  | succ n ih =>
    have hlow : (memByte m a).toNat = v % 2 ^ 8 := by simpa using congrArg BitVec.toNat (hb 0 (by omega))
    have hrest : memNat m (a + 1) n = (v >>> 8) % 2 ^ (8 * n) := ih fun i hi => by
      rw [Nat.add_assoc, Nat.add_comm 1 i, hb (i + 1) (by omega), ← Nat.shiftRight_add, Nat.mul_succ, Nat.add_comm 8]
    calc memNat m a (n + 1)
        = v % 2 ^ 8 + 2 ^ 8 * (v / 2 ^ 8 % 2 ^ (8 * n)) := by
          rw [memNat_succ h.1, hlow, hrest, Nat.shiftRight_eq_div_pow, Nat.mul_comm (2 ^ 8)]
      _ = v % 2 ^ (8 * (n + 1)) := by rw [← Nat.mod_mul, ← Nat.pow_add, Nat.mul_succ, Nat.add_comm 8]

theorem memNat_memWrite {m : List Host.Cell} (h : Memory.wf m) (a n v : Nat) :
    memNat (memWrite m a n v) a n = v % 2 ^ (8 * n) :=
  memNat_eq_mod_of_bytes (Memory.wf_memWrite h a n v) fun _ hi => memByte_memWrite_inside m a n v _ hi

theorem memNat_memZero {m : List Host.Cell} (h : Memory.wf m) (a n : Nat) : memNat (memZero m a n) a n = 0 := by
  have hzero := memNat_eq_mod_of_bytes (Memory.wf_memZero h a n) (a := a) (n := n) (v := 0) fun i hi => by
    rw [memByte_memZero_inside (by omega) (by omega)]
    simp
  simpa using hzero

/-- Settles O9: a range reads as the number whose byte lanes are its bytes, so the laws of single bytes after a write and
after a zeroing carry over to the number. -/
theorem memoryReadsWhatWasWritten : Obligations.MemoryReadsWhatWasWritten := by
  unfold Obligations.MemoryReadsWhatWasWritten
  intro m a n v h
  refine ⟨⟨memNat_lt h a n, fun i hi => laneNat_memNat h a hi⟩, ⟨?_, ?_, ?_⟩, ?_, ?_, ?_⟩
  · exact Memory.wf_memWrite h a n v
  · exact memNat_memWrite h a n v
  · exact fun b hb => memByte_memWrite_outside hb
  · exact Memory.wf_memZero h a n
  · exact memNat_memZero h a n
  · exact fun b hb => memByte_memZero_outside hb

end Sys2Proof.Machine

/-! What the part holds at reset (O29): every sparse map of the state is empty there, so each unit reads as its default. -/

namespace Sys2Proof.Machine

theorem State.tile_reset (t : TileId) : State.reset.tile t = {} := Sparse.get_nil _ _

theorem State.seq_reset (c : Nat) : State.reset.seq c = {} := Sparse.get_nil _ _

theorem State.queue_reset (c q : Nat) : State.reset.queue c q = [] := by
  rw [State.queue, State.seq_reset, Sparse.get_nil]

theorem State.partition_reset (p : Nat) : State.reset.partition p = {} := Sparse.get_nil _ _

theorem State.ctx_reset (p ch : Nat) : State.reset.ctx p ch = {} := Sparse.get_nil _ _

theorem State.domain_reset (d : Nat) : State.reset.domain d = .off := Sparse.get_nil _ _

theorem State.memByte_reset (a : Nat) : memByte State.reset.mem.cells a = 0 := Sparse.get_nil _ _

theorem State.condAt_reset (a : Nat) : State.reset.condAt a = .clean := Sparse.get_nil _ _

/-- Settles O29: at reset each unit is the default one of its kind, and the fields asked for are that default's. That VQ registers
read 0 then is log entry 8's choice, as zeroed memory is log entry 5's. -/
theorem resetLeavesTheStatedValues : Obligations.ResetLeavesTheStatedValues := by
  unfold Obligations.ResetLeavesTheStatedValues
  refine ⟨rfl, rfl, fun t => ?tile, fun a => ⟨State.memByte_reset a, State.condAt_reset a⟩, Memory.wf_reset, fun c q n => ?seq,
    fun p => ?partition, rfl, rfl, fun p ch => ?ctx, State.domain_reset, rfl, rfl, rfl, rfl, rfl, rfl⟩
  case tile =>
    rw [State.tile_reset]
    exact ⟨rfl, rfl, rfl, rfl, rfl, rfl, rfl, rfl, rfl, rfl, fun n => Sparse.get_nil _ _⟩
  case seq =>
    rw [State.seq_reset]
    exact ⟨State.queue_reset c q, Sparse.get_nil _ _, rfl⟩
  case partition =>
    rw [State.partition_reset]
    exact ⟨rfl, rfl⟩
  case ctx =>
    rw [State.ctx_reset]
    exact ⟨rfl, rfl⟩

end Sys2Proof.Machine

/-! What an access of memory leaves as it was (R303 to R306): a read or a write touches memory with its word conditions, the
counts of errors and the rings of the service nodes, and nothing else. -/

namespace Sys2Proof.Machine

/-- A relation that every step of a fold meets holds between its ends. -/
theorem foldl_related {σ α : Type} {R : σ → σ → Prop} (hrefl : ∀ s, R s s) (htrans : ∀ {s u v}, R s u → R u v → R s v)
    {f : σ → α → σ} (hf : ∀ s e, R s (f s e)) (l : List α) (s : σ) : R s (l.foldl f s) := by
  induction l generalizing s with
  | nil => exact hrefl s
  | cons e r ih => exact htrans (hf s e) (ih (f s e))

/-- The state with memory and the records of its errors as another state has them. -/
def State.withMemoryOf (u s : State) : State :=
  { u with mem := s.mem, light := s.light, rings := s.rings, hbmCounts := s.hbmCounts, memEcc := s.memEcc }

/-- Two states that differ in memory and the records of its errors alone. -/
def State.SameButMemory (s u : State) : Prop := u.withMemoryOf s = s

theorem State.SameButMemory.refl (s : State) : s.SameButMemory s := rfl

theorem State.SameButMemory.trans {s u v : State} (h : s.SameButMemory u) (k : u.SameButMemory v) : s.SameButMemory v :=
  (congrArg (·.withMemoryOf s) k : (v.withMemoryOf u).withMemoryOf s = u.withMemoryOf s).trans h

theorem State.SameButMemory.tiles {s u : State} (h : s.SameButMemory u) : u.tiles = s.tiles :=
  (congrArg State.tiles (show u.withMemoryOf s = s from h) :)

theorem State.SameButMemory.calends {s u : State} (h : s.SameButMemory u) : u.calends = s.calends :=
  (congrArg State.calends (show u.withMemoryOf s = s from h) :)

theorem State.SameButMemory.tile {s u : State} (h : s.SameButMemory u) (t : TileId) : u.tile t = s.tile t := by
  rw [State.tile, State.tile, h.tiles]

theorem State.sameButMemory_countUncorrected (s : State) (a f : Nat) : s.SameButMemory (s.countUncorrected a f) := by
  unfold State.countUncorrected
  dsimp only
  split <;> rfl

theorem State.sameButMemory_countCorrected (s : State) (a : Nat) : s.SameButMemory (s.countCorrected a) := by
  unfold State.countCorrected
  split <;> rfl

theorem State.sameButMemory_readWord (s : State) (w : Nat) (c : WordCond) : s.SameButMemory (s.readWord w c) := by
  unfold State.readWord
  split
  · split
    · rfl
    · exact State.SameButMemory.trans (u := { s with mem := { s.mem with writebacks := s.mem.writebacks ++ [w] } }) rfl
        (State.sameButMemory_countCorrected _ _)
  · split
    · rfl
    · exact State.SameButMemory.trans (u := { s with mem := { s.mem with marks := s.mem.marks ++ [w] } }) rfl
        (State.sameButMemory_countUncorrected _ _ _)
  · rfl

theorem State.sameButMemory_load (s : State) (a n : Nat) : s.SameButMemory (s.load a n).2 :=
  foldl_related (f := fun (s : State) (e : Nat × WordCond) => s.readWord e.1 e.2) .refl .trans
    (fun s e => State.sameButMemory_readWord s e.1 e.2) (s.condsIn a n) s

theorem State.sameButMemory_storeWord (s : State) (a n p w : Nat) : s.SameButMemory (s.storeWord a n p w) := by
  unfold State.storeWord
  dsimp only
  split
  · exact (State.sameButMemory_countUncorrected s _ _).trans rfl
  · rfl

theorem State.sameButMemory_store (s : State) (a n v p : Nat) : s.SameButMemory (s.store a n v p) := by
  unfold State.store
  split
  · rfl
  · dsimp only
    split
    · rfl
    · exact (foldl_related .refl .trans (fun s w => State.sameButMemory_storeWord s a n p w) _ s).trans rfl

/-! ### Reading a part of what was written -/

theorem memSlice_append (l m : List Host.Cell) (b k : Nat) : memSlice (l ++ m) b k = memSlice l b k ++ memSlice m b k :=
  List.filter_append ..

theorem memSlice_eq_nil {m : List Host.Cell} {b k : Nat} (h : ∀ c ∈ m, c.1 < b ∨ b + k ≤ c.1) : memSlice m b k = [] :=
  List.filter_eq_nil_iff.2 fun c hc => by
    have := h c hc
    simp only [Bool.and_eq_true, decide_eq_true_eq]
    omega

theorem memSlice_filter {m : List Host.Cell} {b k : Nat} {p : Host.Cell → Bool} (h : ∀ c, b ≤ c.1 → c.1 < b + k → p c = true) :
    memSlice (m.filter p) b k = memSlice m b k := by
  rw [memSlice, memSlice, List.filter_filter]
  refine List.filter_congr fun c _ => ?_
  by_cases hc : b ≤ c.1 ∧ c.1 < b + k
  · simp [hc, h c hc.1 hc.2]
  · rw [← Bool.decide_and, decide_eq_false hc, Bool.false_and]

/-- Of a range inside one that was written the write alone is read. -/
theorem memSlice_memWrite_inside (m : List Host.Cell) {a n v b k : Nat} (hlo : a ≤ b) (hhi : b + k ≤ a + n) :
    memSlice (memWrite m a n v) b k = memSlice (cellsOf a n v) b k := by
  have hbelow : memSlice (m.filter (fun c => decide (c.1 < a))) b k = [] := memSlice_eq_nil fun c hc => by
    have := of_decide_eq_true (List.mem_filter.1 hc).2
    omega
  have habove : memSlice (m.filter (fun c => decide (a + n ≤ c.1))) b k = [] := memSlice_eq_nil fun c hc => by
    have := of_decide_eq_true (List.mem_filter.1 hc).2
    omega
  rw [memWrite, memSlice_append, memSlice_append, hbelow, habove, List.nil_append, List.append_nil]

/-- Of a range apart from the one that was written nothing of the write is read. -/
theorem memSlice_memWrite_outside (m : List Host.Cell) {a n v b k : Nat} (h : b + k ≤ a ∨ a + n ≤ b) :
    memSlice (memWrite m a n v) b k = memSlice m b k := by
  have hwritten : memSlice (cellsOf a n v) b k = [] := memSlice_eq_nil fun c hc => by
    obtain ⟨hlo, hhi, -⟩ := mem_cellsOf hc
    omega
  rw [memWrite, memSlice_append, memSlice_append, hwritten, List.append_nil]
  rcases h with hbelow | habove
  · have hrest : memSlice (m.filter (fun c => decide (a + n ≤ c.1))) b k = [] := memSlice_eq_nil fun c hc => by
      have := of_decide_eq_true (List.mem_filter.1 hc).2
      omega
    rw [hrest, List.append_nil, memSlice_filter fun c _ hc => decide_eq_true (by omega)]
  · have hrest : memSlice (m.filter (fun c => decide (c.1 < a))) b k = [] := memSlice_eq_nil fun c hc => by
      have := of_decide_eq_true (List.mem_filter.1 hc).2
      omega
    rw [hrest, List.nil_append, memSlice_filter fun c hc _ => decide_eq_true (by omega)]

theorem wf_cellsOf (a n v : Nat) : Memory.wf (cellsOf a n v) :=
  ⟨pairwise_cellsOf a n v, fun _ hc => (mem_cellsOf hc).2.2⟩

theorem memNat_memWrite_inside (m : List Host.Cell) {a n v d k : Nat} (h : d + k ≤ n) :
    memNat (memWrite m a n v) (a + d) k = (v >>> (8 * d)) % 2 ^ (8 * k) := by
  have hbytes : ∀ i < k, memByte (cellsOf a n v) (a + d + i) = BitVec.ofNat 8 ((v >>> (8 * d)) >>> (8 * i)) := fun i hi => by
    rw [Nat.add_assoc, ← Nat.shiftRight_add, ← Nat.mul_add]
    exact get_cellsOf a n v (d + i) (by omega)
  rw [← memNat_eq_mod_of_bytes (wf_cellsOf a n v) hbytes, memNat, memNat,
    memSlice_memWrite_inside m (Nat.le_add_right a d) (by omega)]

theorem memNat_memWrite_outside (m : List Host.Cell) {a n v b k : Nat} (h : b + k ≤ a ∨ a + n ≤ b) :
    memNat (memWrite m a n v) b k = memNat m b k := by
  rw [memNat, memNat, memSlice_memWrite_outside m h]

/-- A lane of 32 bits of a value that was written. -/
theorem memNat_memWrite_lane (m : List Host.Cell) {a n v i : Nat} (h : 4 * i + 4 ≤ n) :
    memNat (memWrite m a n v) (a + 4 * i) 4 = laneNat v 32 i := by
  rw [memNat_memWrite_inside m h, laneNat]
  congr 2
  omega

end Sys2Proof.Machine

/-! The steps of a running MMA (R172): what they leave in the accumulator, and what they leave as it was. -/

namespace Sys2Proof.Machine

/-- Step `k` folded into the cell of row `r` and column `j` (R107, R172). -/
def State.stepAt (s : State) (t : TileId) (o : MmaOp) (c : MmaCombo) (r j k : Nat) (q : Cell) : Cell :=
  stepCell c o.f.passes.toNat q
    (elementOf (s.operandBytes t o.a o.f.astr.toNat k (aBytes c)) c.a.width r)
    (expandB o c t j (elementOf (s.operandBytes t o.b o.f.bstr.toNat k (bBytes c)) c.bRead.width j))

/-- The cell an MMA's next step starts from: as it stands, or the starting state of R109 at the first step. -/
def State.cellBefore (s : State) (t : TileId) (o : MmaOp) (c : MmaCombo) (i : Nat) : Cell :=
  if o.steps = 0 then startCell o c (s.cell t o.f.acc i) else s.cell t o.f.acc i

theorem zipIdx_map_map_range {α β : Type} (n : Nat) (g : Nat → α) (f : α × Nat → β) :
    (((List.range n).map g).zipIdx.map f) = (List.range n).map (fun i => f (g i, i)) := by
  apply List.ext_getElem <;> simp

/-- The cells after the steps of an MMA, each by its own fold. -/
theorem foldCells_eq (s : State) (t : TileId) (o : MmaOp) (c : MmaCombo) (last : Nat) :
    foldCells s t o c last = (List.range 512).map (fun i =>
      ((List.range (last - o.steps)).map (· + o.steps)).foldl (fun q k => s.stepAt t o c (i / 32) (i % 32) k q) (s.cellBefore t o c i)) := by
  unfold foldCells
  change List.foldl _ ((List.range 512).map (s.cellBefore t o c)) _ = _
  generalize (List.range (last - o.steps)).map (· + o.steps) = ks
  generalize s.cellBefore t o c = g
  induction ks generalizing g with
  | nil => rfl
  | cons k ks ih =>
    rw [List.foldl_cons, zipIdx_map_map_range]
    refine (congrArg (List.foldl _ · ks) (List.map_congr_left fun i hi => ?_)).trans
      (ih fun i => s.stepAt t o c (i / 32) (i % 32) k (g i))
    have hrow : i / 32 < 16 := Nat.div_lt_of_lt_mul (List.mem_range.1 hi)
    have hcol : i % 32 < 32 := Nat.mod_lt i (by decide)
    simp [hrow, hcol, State.stepAt]


/-- Poison marks of one accumulator read back cell by cell (R132). -/
theorem get_marks (lo : Nat) (ps : List Bool) (n i : Nat) :
    Sparse.get false (((ps.zipIdx n).filter (·.1)).map (fun e => (lo + e.2, true))) (lo + (n + i)) = ps.getD i false := by
  induction ps generalizing n i with
  | nil => rfl
  | cons p ps ih =>
    rw [List.zipIdx_cons, List.filter_cons]
    cases i with
    | zero =>
      cases p with
      | true => simp [Sparse.get]
      | false =>
        refine Sparse.get_of_not_mem false fun x hx => ?_
        simp only [Bool.false_eq_true, if_false, List.mem_map, List.mem_filter] at hx
        obtain ⟨e, ⟨he, -⟩, rfl⟩ := hx
        have := List.le_snd_of_mem_zipIdx he
        simp only
        omega
    | succ i =>
      have hrest : n + (i + 1) = n + 1 + i := by omega
      rw [List.getD_cons_succ, hrest, ← ih (n + 1) i]
      cases p with
      | true => simp [Sparse.get, Nat.add_assoc]
      | false => rfl

/-- The marks of an accumulator after they were replaced. -/
theorem get_replacePoison (m : Sparse Bool) (n : Bool) (ps : List Bool) {i : Nat} (hi : i < 512) :
    Sparse.get false (replacePoison m n ps) (accKey n i) = ps.getD i false := by
  have hkey : accKey n i = accKey n 0 + (0 + i) := by simp [accKey]
  rw [hkey, replacePoison, Sparse.get_append_right, Sparse.get_append_of_not_mem, get_marks]
  · intro x hx
    have := of_decide_eq_true (List.mem_filter.1 hx).2
    omega
  · intro x hx
    have := of_decide_eq_true (List.mem_filter.1 hx).2
    omega

theorem State.sameButMemory_stepReads (s : State) (t : TileId) (o : MmaOp) (c : MmaCombo) (first last : Nat) :
    s.SameButMemory (s.stepReads t o c first last) := by
  have hacc : s.SameButMemory (if first = 0 ∧ !o.f.accum then s else (s.load (tileAddr t.val (accBase o.f.acc false)) 4096).2) := by
    split
    · exact .refl s
    · exact State.sameButMemory_load ..
  unfold State.stepReads
  dsimp only
  split
  · exact hacc
  · exact hacc.trans ((State.sameButMemory_load ..).trans (State.sameButMemory_load ..))

theorem State.stepReads_cells (s : State) (t : TileId) (o : MmaOp) (c : MmaCombo) (first last : Nat) :
    (s.stepReads t o c first last).mem.cells = s.mem.cells := by
  unfold State.stepReads
  dsimp only
  split <;> split <;> simp only [State.load_cells]

/-- What steps of an MMA do (R109, R172): the values and the compensations of the accumulator are written, and of the tile's own
state the steps done, the poison marks of the cells, the count of steps, the sticky flags and the ring can change. -/
theorem runSteps_of_lt {t : TileId} {s : State} {o : MmaOp} {c : MmaCombo} {last : Nat} (hk : 0 < o.k) (hl : o.steps < last) :
    ∃ (u : State) (evt : Bool) (fl : IeeeFlags), s.SameButMemory u ∧
      u.mem.cells = memWrite (memWrite s.mem.cells (tileAddr t.val (accBase o.f.acc false)) 2048 (ofLanes 32 ((foldCells s t o c last).map (·.acc))))
        (tileAddr t.val (accBase o.f.acc true)) 2048 (ofLanes 32 ((foldCells s t o c last).map (·.comp))) ∧
      runSteps t s o c last = u.setTile t (({ (s.tile t).count wMmaSteps (last - o.steps) with
        mmaRun := some { o with steps := last }
        accPoison := replacePoison (s.tile t).accPoison o.f.acc ((foldCells s t o c last).map (·.poison)) } : Tile).raise evt s.calends fl) := by
  have hwork : ¬((o.k = 0 ∧ o.f.accum) ∨ (0 < o.k ∧ last ≤ o.steps)) := by omega
  unfold runSteps
  dsimp only
  rw [if_neg hwork]
  refine ⟨_, _, _, ?_, ?_, rfl⟩
  · exact (State.sameButMemory_stepReads ..).trans ((State.sameButMemory_store ..).trans (State.sameButMemory_store ..))
  · simp only [State.store_cells, State.stepReads_cells, if_neg (show ¬(2048 = 0) by decide)]

end Sys2Proof.Machine

/-! The classes of a cycle (R486 to R489): counting one changes the counters of tiles and of engines alone. -/

namespace Sys2Proof.Machine

/-- Two states of a tile that differ in the counters alone. -/
def Tile.SameButCounters (x y : Tile) : Prop := ({ y with counters := x.counters } : Tile) = x

theorem Tile.SameButCounters.trans {x y z : Tile} (h : x.SameButCounters y) (k : y.SameButCounters z) : x.SameButCounters z :=
  (congrArg (fun w : Tile => ({ w with counters := x.counters } : Tile)) k).trans h

theorem Tile.sameButCounters_count (x : Tile) (w n : Nat) : x.SameButCounters (x.count w n) := rfl

/-- The state without its tiles and the counters of its engines. -/
def State.withoutCounts (s : State) : State := { s with tiles := [], engineCounts := [] }

/-- Two states that differ in the counters of tiles and of engines alone. -/
structure State.SameButCounts (s u : State) : Prop where
  rest : u.withoutCounts = s.withoutCounts
  tile : ∀ t, (s.tile t).SameButCounters (u.tile t)

theorem State.SameButCounts.refl (s : State) : s.SameButCounts s := ⟨rfl, fun _ => rfl⟩

theorem State.SameButCounts.trans {s u v : State} (h : s.SameButCounts u) (k : u.SameButCounts v) : s.SameButCounts v :=
  ⟨k.rest.trans h.rest, fun t => (h.tile t).trans (k.tile t)⟩

theorem State.SameButCounts.calends {s u : State} (h : s.SameButCounts u) : u.calends = s.calends :=
  (congrArg State.calends h.rest :)

theorem State.SameButCounts.mem {s u : State} (h : s.SameButCounts u) : u.mem = s.mem :=
  (congrArg State.mem h.rest :)

theorem State.sameButCounts_setTile {s : State} {t : TileId} {x : Tile} (h : (s.tile t).SameButCounters x) :
    s.SameButCounts (s.setTile t x) := by
  refine ⟨rfl, fun v => ?_⟩
  by_cases hv : t = v
  · subst hv
    rwa [State.tile_setTile_self]
  · rw [State.tile_setTile_of_ne s x hv]
    rfl

/-- What a key reads as where every value was mapped, the default to itself. -/
theorem Sparse.get_map {α : Type} {d : α} {f : α → α} (hd : f d = d) (m : Sparse α) (k : Nat) :
    Sparse.get d (m.map (fun e => (e.1, f e.2))) k = f (Sparse.get d m k) := by
  induction m with
  | nil => exact hd.symm
  | cons e r ih =>
    obtain ⟨j, v⟩ := e
    simp only [List.map_cons, Sparse.get, ih]
    split <;> rfl

theorem State.sameButCounts_countEnding (s : State) : s.SameButCounts s.countEnding := by
  refine ⟨rfl, fun t => ?_⟩
  have htile : s.countEnding.tile t = _ := Sparse.get_map (d := ({} : Tile))
    (f := fun x => if x.task.isSome && x.ended && !x.stopped && x.fault.isNone then x.count wBusy 1 else x) rfl s.tiles t.val
  rw [htile]
  split
  · exact Tile.sameButCounters_count ..
  · rfl

theorem State.sameButCounts_countTile (s : State) (t reason : Nat) : s.SameButCounts (s.countTile t reason) := by
  unfold State.countTile
  split
  · dsimp only
    split
    · exact State.sameButCounts_setTile ((Tile.sameButCounters_count ..).trans (Tile.sameButCounters_count ..))
    · exact .refl s
  · exact .refl s

theorem State.sameButCounts_countEngine (s : State) (n : Nat) (x : CycleClass) : s.SameButCounts (s.countEngine n x) := by
  cases x <;> exact ⟨rfl, fun _ => rfl⟩

theorem State.sameButCounts_countCycle (s : State) : s.SameButCounts s.countCycle :=
  s.sameButCounts_countEnding.trans
    ((foldl_related (f := fun (s : State) (e : Nat × Nat) => s.countTile e.1 e.2) .refl .trans
        (fun s e => s.sameButCounts_countTile e.1 e.2) _ _).trans
      (foldl_related (f := fun (s : State) (e : Nat × CycleClass) => s.countEngine e.1 e.2) .refl .trans
        (fun s e => s.sameButCounts_countEngine e.1 e.2) _ _))

end Sys2Proof.Machine

/-! An idle step (O2): one cycle of CLK_CORE in which no command comes. -/

namespace Sys2Proof.Machine

theorem step_idle {s : State} (h : s.pending = []) : step s = .next (tick s) := by
  unfold step
  rw [h]

theorem tick_of_porHeld {s : State} (h : s.power.porHeld = true) : tick s = s := by
  rw [tick, if_pos h]

/-- A cycle: the array does its steps, the engines class the cycle, and Calends counts. -/
theorem tick_of_released {s : State} (h : s.power.porHeld = false) :
    ∃ v : State, s.arrayCycle.SameButCounts v ∧ tick s = { v with calends := (s.arrayCycle.calends + 1) % 2 ^ 64 } := by
  refine ⟨s.arrayCycle.countCycle, s.arrayCycle.sameButCounts_countCycle, ?_⟩
  rw [← s.arrayCycle.sameButCounts_countCycle.calends, tick, if_neg (by simp [h])]

theorem State.mmaCycle_of_none {s : State} {t : TileId} (h : (s.tile t).mmaRun = none) : s.mmaCycle t = s := by
  rw [State.mmaCycle, h]

theorem State.mmaCycle_of_lt {s : State} {t : TileId} {o : MmaOp} {c : MmaCombo} (hrun : (s.tile t).mmaRun = some o)
    (hcombo : mmaCombo o.f = some c) (hlt : o.steps < o.k) : s.mmaCycle t = runSteps t s o c (o.steps + 1) := by
  rw [State.mmaCycle, hrun]
  dsimp only
  rw [hcombo]
  exact if_pos hlt

theorem State.arrayCycle_of_none {s : State} (h : ∀ t, (s.tile t).mmaRun = none) : s.arrayCycle = s := by
  refine List.foldl_fixed' (fun e => ?_) _
  split
  · exact State.mmaCycle_of_none (h _)
  · rfl

theorem State.arrayCycle_of_one {s : State} {t : TileId}
    (h : s.tiles.filter (fun e => e.2.mmaRun.isSome) = [(t.val, s.tile t)]) : s.arrayCycle = s.mmaCycle t := by
  rw [State.arrayCycle, h]
  exact dif_pos t.isLt

theorem State.mmaCycle_calends (s : State) (t : TileId) : (s.mmaCycle t).calends = s.calends := by
  unfold State.mmaCycle
  split
  · rfl
  · split
    · rfl
    · split
      · next hlt =>
        obtain ⟨u, evt, fl, hsame, -, heq⟩ := runSteps_of_lt (Nat.zero_lt_of_lt hlt) (Nat.lt_succ_self _)
        rw [heq, State.setTile_calends, hsame.calends]
      · rfl

theorem State.arrayCycle_calends (s : State) : s.arrayCycle.calends = s.calends := by
  refine foldl_related (R := fun s u : State => u.calends = s.calends) (fun _ => rfl) (fun h k => k.trans h) (fun s e => ?_) _ s
  split
  · exact s.mmaCycle_calends _
  · rfl

/-! ### The next step of a running MMA -/

/-- Cell `i` after the next step of an MMA. -/
def State.nextCell (s : State) (t : TileId) (o : MmaOp) (c : MmaCombo) (i : Nat) : Cell :=
  s.stepAt t o c (i / 32) (i % 32) o.steps (s.cellBefore t o c i)

theorem foldCells_next (s : State) (t : TileId) (o : MmaOp) (c : MmaCombo) :
    foldCells s t o c (o.steps + 1) = (List.range 512).map (s.nextCell t o c) := by
  rw [foldCells_eq, Nat.add_sub_cancel_left]
  simp [State.nextCell]

/-- A field of the cells after the next step, as the list that is stored. -/
theorem getD_foldCells_next {α : Type} (f : Cell → α) (d : α) (s : State) (t : TileId) (o : MmaOp) (c : MmaCombo) {i : Nat} (hi : i < 512) :
    ((foldCells s t o c (o.steps + 1)).map f).getD i d = f (s.nextCell t o c i) := by
  rw [foldCells_next, List.map_map]
  exact getD_map_range _ d hi

theorem tileAddr_add (t o n : Nat) : tileAddr t (o + n) = tileAddr t o + n := (Nat.add_assoc ..).symm

/-- The compensations of an accumulator follow its values (R127). -/
theorem tileAddr_accBase_true (t : Nat) (n : Bool) : tileAddr t (accBase n true) = tileAddr t (accBase n false) + 2048 := by
  rw [← tileAddr_add]
  rfl

/-- A tile after the next step of its MMA. -/
structure Tile.NextStepOf (x : Tile) (o : MmaOp) (poison : Nat → Bool) (y : Tile) : Prop where
  mmaRun : y.mmaRun = some { o with steps := o.steps + 1 }
  marks : ∀ i < 512, Sparse.get false y.accPoison (accKey o.f.acc i) = poison i
  g : y.g = x.g
  vq : y.vq = x.vq
  pc : y.pc = x.pc
  loops : y.loops = x.loops

/-- The tile without what beside its work records it: counters, sticky flags and the event ring. -/
def Tile.withoutRecords (x : Tile) : Tile := { x with counters := [], flags := 0, ring := {} }

theorem Tile.withoutRecords_raise (x : Tile) (evt : Bool) (cal : Nat) (f : IeeeFlags) :
    (x.raise evt cal f).withoutRecords = x.withoutRecords := by
  unfold Tile.raise
  dsimp only
  split <;> rfl

theorem Tile.SameButCounters.withoutRecords {x y : Tile} (h : x.SameButCounters y) : y.withoutRecords = x.withoutRecords :=
  (congrArg Tile.withoutRecords h :)

theorem Tile.NextStepOf.of_withoutRecords {x y z : Tile} {o : MmaOp} {poison : Nat → Bool} (h : x.NextStepOf o poison y)
    (k : z.withoutRecords = y.withoutRecords) : x.NextStepOf o poison z :=
  have hrun : z.mmaRun = y.mmaRun := (congrArg Tile.mmaRun k :)
  have hmarks : z.accPoison = y.accPoison := (congrArg Tile.accPoison k :)
  have hg : z.g = y.g := (congrArg Tile.g k :)
  have hvq : z.vq = y.vq := (congrArg Tile.vq k :)
  have hpc : z.pc = y.pc := (congrArg Tile.pc k :)
  have hloops : z.loops = y.loops := (congrArg Tile.loops k :)
  ⟨hrun.trans h.mmaRun, hmarks ▸ h.marks, hg.trans h.g, hvq.trans h.vq, hpc.trans h.pc, hloops.trans h.loops⟩

/-- The state after the next step of the MMA of tile `t`: every cell is written, value, compensation and poison. -/
structure State.NextStepOf (s : State) (t : TileId) (o : MmaOp) (c : MmaCombo) (u : State) : Prop where
  tile : (s.tile t).NextStepOf o (fun i => (s.nextCell t o c i).poison) (u.tile t)
  value : ∀ i < 512, memNat u.mem.cells (tileAddr t.val (accBase o.f.acc false + 4 * i)) 4 = (s.nextCell t o c i).acc % 2 ^ 32
  compensation : ∀ i < 512, memNat u.mem.cells (tileAddr t.val (accBase o.f.acc true + 4 * i)) 4 = (s.nextCell t o c i).comp % 2 ^ 32
  outside : ∀ b, b < tileAddr t.val (accBase o.f.acc false) ∨ tileAddr t.val (accBase o.f.acc false) + 4096 ≤ b →
    memByte u.mem.cells b = memByte s.mem.cells b
  others : ∀ v, v ≠ t → (s.tile v).SameButCounters (u.tile v)

theorem State.nextStepOf_runSteps (s : State) (t : TileId) {o : MmaOp} (c : MmaCombo) (hlt : o.steps < o.k) :
    s.NextStepOf t o c (runSteps t s o c (o.steps + 1)) := by
  obtain ⟨u, evt, fl, hsame, hcells, heq⟩ := runSteps_of_lt (s := s) (t := t) (c := c) (Nat.zero_lt_of_lt hlt) o.steps.lt_succ_self
  rw [heq]
  refine ⟨?tile, fun i hi => ?value, fun i hi => ?compensation, fun b hb => ?outside, fun v hv => ?others⟩
  case tile =>
    rw [State.tile_setTile_self]
    refine .of_withoutRecords ?_ (Tile.withoutRecords_raise ..)
    refine ⟨rfl, fun i hi => ?_, rfl, rfl, rfl, rfl⟩
    rw [get_replacePoison _ _ _ hi, getD_foldCells_next _ _ _ _ _ _ hi]
  case value =>
    rw [State.setTile_mem, hcells, tileAddr_add, tileAddr_accBase_true, memNat_memWrite_outside _ (by omega),
      memNat_memWrite_lane _ (by omega), laneNat_ofLanes, getD_foldCells_next _ _ _ _ _ _ hi]
  case compensation =>
    rw [State.setTile_mem, hcells, tileAddr_add, memNat_memWrite_lane _ (by omega), laneNat_ofLanes, getD_foldCells_next _ _ _ _ _ _ hi]
  case outside =>
    rw [State.setTile_mem, hcells, tileAddr_accBase_true, memByte_memWrite_outside (by omega), memByte_memWrite_outside (by omega)]
  case others =>
    rw [State.tile_setTile_of_ne u _ hv.symm, hsame.tile]
    rfl

/-- Counting leaves what a step of an MMA did. -/
theorem State.NextStepOf.of_sameButCounts {s u v : State} {t : TileId} {o : MmaOp} {c : MmaCombo} (h : s.NextStepOf t o c u)
    (k : u.SameButCounts v) : s.NextStepOf t o c v :=
  ⟨h.tile.of_withoutRecords (k.tile t).withoutRecords, k.mem ▸ h.value, k.mem ▸ h.compensation, k.mem ▸ h.outside,
    fun w hw => (h.others w hw).trans (k.tile w)⟩

/-- Settles O2: an idle cycle is the array's cycle, then the counts of it, then Calends; the array's cycle is nothing where no
tile runs an MMA, and one step of the one MMA where one tile does. -/
theorem idleStepCountsOneCycle : Obligations.IdleStepCountsOneCycle := by
  unfold Obligations.IdleStepCountsOneCycle
  intro s hidle
  rw [step_idle hidle]
  refine ⟨fun hheld => by rw [tick_of_porHeld hheld], fun hfree => ?_⟩
  obtain ⟨v, hcounted, htick⟩ := tick_of_released hfree
  rw [s.arrayCycle_calends] at htick
  refine ⟨tick s, rfl, by rw [htick], fun hnone => ?rest, fun t o c hone hrun hcombo hlt => ?one⟩
  case rest =>
    rw [State.arrayCycle_of_none hnone] at hcounted
    rw [htick]
    exact ⟨congrArg (fun w : State => ({ w with calends := 0 } : State)) hcounted.rest, hcounted.tile⟩
  case one =>
    rw [State.arrayCycle_of_one hone, State.mmaCycle_of_lt hrun hcombo hlt] at hcounted
    obtain ⟨htile, hvalue, hcomp, houtside, hothers⟩ := (s.nextStepOf_runSteps t c hlt).of_sameButCounts hcounted
    rw [htick]
    refine ⟨htile.mmaRun, fun r hr j hj => ?_, houtside, htile.g, htile.vq, htile.pc, htile.loops, hothers⟩
    have hi : 32 * r + j < 512 := by omega
    have hrow : (32 * r + j) / 32 = r := by omega
    have hcol : (32 * r + j) % 32 = j := by omega
    have hcell : s.nextCell t o c (32 * r + j) = s.stepAt t o c r j o.steps (s.cellBefore t o c (32 * r + j)) := by
      rw [State.nextCell, hrow, hcol]
    have hall := And.intro (hvalue _ hi) (And.intro (hcomp _ hi) (htile.marks _ hi))
    rw [hcell] at hall
    exact hall

end Sys2Proof.Machine

/-! The checks of a local access (R127, R130, R164): the four instructions make the same ones, ahead of what each then does with
the row it names. -/

namespace Sys2Proof.Machine

/-- An instruction that needs no vector unit, once no register of it awaits a Lacing result. -/
theorem issue_of_awaitsNone {s : State} {t : TileId} {vqs : List (BitVec 4)} (h : s.tileReady t = true)
    (hwait : (s.tile t).awaitsLace vqs = false) (legal : Bool) (body : Tile → Issue) :
    issue t s legal false vqs body = if !legal then s.faultAt t .illegalEncoding else finishIssue t s (body (s.tile t)) := by
  rw [issue_of_tileReady h, hwait]
  simp

/-! ### The row of an access -/

theorem localRow_eq_none {o n : Nat} (h : ∀ r ∈ localRows, ¬ (r.1 ≤ o ∧ o + n ≤ r.2)) : localRow o n = none := by
  simp only [localRows, List.forall_mem_cons] at h
  obtain ⟨hstore, hacc0, hcomp0, hacc1, hcomp1, htables, hscales, hzero, hring, hcounters, hstatus, -⟩ := h
  simp only [localRow, ← Bool.decide_and, decide_eq_true_eq]
  rw [if_neg hstore, if_neg hacc0, if_neg hcomp0, if_neg hacc1, if_neg hcomp1, if_neg htables, if_neg hscales, if_neg hzero,
    if_neg hring, if_neg hcounters, if_neg hstatus]

theorem localRow_eq_store {o n : Nat} (h : o + n ≤ 0x18000) : localRow o n = some .store := by
  simp [localRow, h]

/-- An access in the event ring or the counter block lies in none of the rows below it. -/
theorem localRow_eq_ring {o n : Nat} (hlo : 0x1B000 ≤ o) (hhi : o + n ≤ 0x1B200) : localRow o n = some .ring := by
  unfold localRow
  grind

theorem localRow_eq_counters {o n : Nat} (hlo : 0x1C000 ≤ o) (hhi : o + n ≤ 0x1E000) : localRow o n = some .counters := by
  unfold localRow
  grind

/-! ### The checks -/

/-- What LD, ST, VLD and VST do at issue: the checks of R164 in their order, then `access` on the row. -/
def localAccess (x : Tile) (f : FmtM) (n align : Nat) (access : LocalRow → Issue) : Issue :=
  guardPoison [(x.greg f.a).poison]
    (match localRow (localAddr x f) n with
    | none => .fault .outOfRange
    | some row => if localAddr x f % align ≠ 0 then .fault .outOfRange else access row)

section
variable {x : Tile} {f : FmtM} {n align : Nat} {access : LocalRow → Issue}

theorem localAccess_of_poison (h : (x.greg f.a).poison = true) : localAccess x f n align access = .fault .eccUncorrected := by
  simp [localAccess, guardPoison, h]

theorem localAccess_outOfRange (h : (x.greg f.a).poison = false)
    (hbad : localAddr x f % align ≠ 0 ∨ localRow (localAddr x f) n = none) : localAccess x f n align access = .fault .outOfRange := by
  rw [localAccess, guardPoison_clean (by simpa using h)]
  rcases hbad with hmis | hnone
  · cases localRow (localAddr x f) n with
    | none => rfl
    | some row => exact if_pos hmis
  · rw [hnone]

theorem localAccess_of_row {row : LocalRow} (h : (x.greg f.a).poison = false) (halign : localAddr x f % align = 0)
    (hrow : localRow (localAddr x f) n = some row) : localAccess x f n align access = access row := by
  rw [localAccess, guardPoison_clean (by simpa using h), hrow]
  exact if_neg (not_not.2 halign)

end

/-- A store may not touch the event ring, the counter block or the program (R130, R164). -/
structure RefusesProtectedRows (x : Tile) (o : Nat) (access : LocalRow → Issue) : Prop where
  ring : access .ring = .fault .accessLevel
  counters : access .counters = .fault .accessLevel
  program : o < x.progLen → access .store = .fault .outOfRange

theorem refusesProtectedRows_storeRow (t : TileId) (s : State) (x : Tile) (o n v p : Nat) :
    RefusesProtectedRows x o (fun row => storeRow t s x row o n v p) :=
  ⟨rfl, rfl, fun h => if_pos ⟨rfl, h⟩⟩

/-- The faults of the local access `i` of `n` bytes with format M, where `legal` is the check of its encoding, `store` tells
that it stores and `align` is its alignment (R164). -/
def State.LocalFaults (s : State) (t : TileId) (f : FmtM) (i : Instr) (store : Bool) (legal : Prop) (n align : Nat) : Prop :=
  let o := localAddr (s.tile t) f
  (¬ legal → exec i s = .next (s.faultAt t .illegalEncoding)) ∧
  (legal → ((s.tile t).greg f.a).poison = true → exec i s = .next (s.faultAt t .eccUncorrected)) ∧
  (legal → ((s.tile t).greg f.a).poison = false →
    (o % align ≠ 0 ∨ (∀ r ∈ localRows, ¬ (r.1 ≤ o ∧ o + n ≤ r.2)) → exec i s = .next (s.faultAt t .outOfRange)) ∧
    (store = true → o % align = 0 →
      (0x1B000 ≤ o ∧ o + n ≤ 0x1B200 ∨ 0x1C000 ≤ o ∧ o + n ≤ 0x1E000 → exec i s = .next (s.faultAt t .accessLevel)) ∧
      (o + n ≤ 0x18000 → o < (s.tile t).progLen → exec i s = .next (s.faultAt t .outOfRange))))

/-- An instruction that issues as a local access has the faults of one. -/
theorem State.localFaults_of_issue {s : State} {t : TileId} {f : FmtM} {i : Instr} {store enc : Bool} {legal : Prop} {n align : Nat}
    {vqs : List (BitVec 4)} {access : Tile → LocalRow → Issue} (hready : s.tileReady t = true)
    (hwait : (s.tile t).awaitsLace vqs = false)
    (hexec : exec i s = .next (issue t s enc false vqs fun x => localAccess x f n align (access x))) (henc : enc = true ↔ legal)
    (hstore : store = true → RefusesProtectedRows (s.tile t) (localAddr (s.tile t) f) (access (s.tile t))) :
    s.LocalFaults t f i store legal n align := by
  rw [issue_of_awaitsNone hready hwait] at hexec
  have hfault : ∀ st, legal → localAccess (s.tile t) f n align (access (s.tile t)) = .fault st →
      exec i s = .next (s.faultAt t st) := fun st hlegal haccess => by
    rw [hexec, henc.2 hlegal, haccess]
    rfl
  refine ⟨fun hillegal => ?_, fun hlegal hpoison => hfault _ hlegal (localAccess_of_poison hpoison), fun hlegal hclean =>
    ⟨fun hbad => ?_, fun hst halign => ⟨fun hrow => ?_, fun hrow hprog => ?_⟩⟩⟩
  · rw [hexec, Bool.eq_false_iff.2 (mt henc.1 hillegal)]
    rfl
  · exact hfault _ hlegal (localAccess_outOfRange hclean (hbad.imp_right localRow_eq_none))
  · obtain ⟨hring, hcounters, -⟩ := hstore hst
    rcases hrow with ⟨hlo, hhi⟩ | ⟨hlo, hhi⟩
    · exact hfault _ hlegal ((localAccess_of_row hclean halign (localRow_eq_ring hlo hhi)).trans hring)
    · exact hfault _ hlegal ((localAccess_of_row hclean halign (localRow_eq_counters hlo hhi)).trans hcounters)
  · exact hfault _ hlegal ((localAccess_of_row hclean halign (localRow_eq_store hrow)).trans ((hstore hst).program hprog))

/-! ### The four instructions -/

theorem legalLoad_iff (f : FmtM) (st : Bool) :
    legalLoad f st = true ↔ f.r1 = 0 ∧ f.r2 = false ∧ f.msk = 0 ∧ (st = true → f.sx = false) := by
  simp only [legalLoad, Bool.and_eq_true, decide_eq_true_eq, Bool.not_eq_true', Bool.or_eq_true]
  cases st <;> simp <;> tauto

theorem legalVector_iff (f : FmtM) :
    legalVector f = true ↔ f.r1 = 0 ∧ f.r2 = false ∧ f.size = 0 ∧ f.sx = false ∧ (f.msk.getLsbD 2 = false → f.msk = 0) := by
  simp only [legalVector, Bool.and_eq_true, decide_eq_true_eq, Bool.not_eq_true', mskLegal_iff]
  tauto

section
variable {s : State} {t : TileId} (f : FmtM)

theorem localFaults_ld (h : s.tileReady t = true) :
    s.LocalFaults t f (.ld t f) false (f.r1 = 0 ∧ f.r2 = false ∧ f.msk = 0) (2 ^ f.size.toNat) (2 ^ f.size.toNat) :=
  State.localFaults_of_issue h (Tile.awaitsLace_nil _) rfl (by simp [legalLoad_iff]) nofun

theorem localFaults_st (h : s.tileReady t = true) :
    s.LocalFaults t f (.st t f) true (f.r1 = 0 ∧ f.r2 = false ∧ f.msk = 0 ∧ f.sx = false) (2 ^ f.size.toNat) (2 ^ f.size.toNat) :=
  State.localFaults_of_issue h (Tile.awaitsLace_nil _) rfl (by simp [legalLoad_iff]) fun _ =>
    refusesProtectedRows_storeRow ..

theorem localFaults_vld (h : s.tileReady t = true) (hwait : (s.tile t).awaitsLace [f.d] = false) :
    s.LocalFaults t f (.vld t f) false (f.r1 = 0 ∧ f.r2 = false ∧ f.size = 0 ∧ f.sx = false ∧ (f.msk.getLsbD 2 = false → f.msk = 0))
      128 4 :=
  State.localFaults_of_issue h hwait rfl (legalVector_iff f) nofun

theorem localFaults_vst (h : s.tileReady t = true) (hwait : (s.tile t).awaitsLace [f.d] = false) :
    s.LocalFaults t f (.vst t f) true (f.r1 = 0 ∧ f.r2 = false ∧ f.size = 0 ∧ f.sx = false ∧ (f.msk.getLsbD 2 = false → f.msk = 0))
      128 4 :=
  State.localFaults_of_issue h hwait rfl (legalVector_iff f) fun _ => ⟨rfl, rfl, fun hprog => if_pos ⟨rfl, hprog⟩⟩

end

/-- Settles O12: LD, ST, VLD and VST each issue as a local access, and the checks of one are the faults asked for. VST checks its
whole 128 bytes whatever its mask (log entry 81). -/
theorem localAccessesFaultAsStated : Obligations.LocalAccessesFaultAsStated := by
  unfold Obligations.LocalAccessesFaultAsStated
  intro t f s hready hwait x o row hrow
  simp only [List.mem_cons, List.not_mem_nil, or_false] at hrow
  rcases hrow with rfl | rfl | rfl | rfl
  · exact localFaults_ld f hready
  · exact localFaults_st f hready
  · exact localFaults_vld f hready hwait
  · exact localFaults_vst f hready hwait

end Sys2Proof.Machine

/-! Reductions, operations on masks and top-k lists (R140, R178, R180): each is one issue of the vector unit, which writes one
register from the lanes that are active. -/

namespace Sys2Proof.Machine

/-- An instruction of the vector unit that replaces its tile, by the statement of what its encoding allows. -/
theorem exec_of_vectorIssue {i : Instr} {s : State} {t : TileId} {vqs : List (BitVec 4)} {enc : Bool} {legal : Prop} {result : Tile → Tile}
    (h : s.vectorReady t vqs = true) (henc : enc = true ↔ legal)
    (hexec : exec i s = .next (issue t s enc true vqs fun x => .done (s.setTile t (result x)))) :
    (¬ legal → exec i s = .next (s.faultAt t .illegalEncoding)) ∧
    (legal → exec i s = .next (s.setTile t (result (s.tile t)).retired)) := by
  rw [issue_of_vectorReady h] at hexec
  refine ⟨fun hillegal => ?_, fun hlegal => ?_⟩
  · rw [hexec, Bool.eq_false_iff.2 (mt henc.1 hillegal)]
    rfl
  · rw [hexec, henc.2 hlegal, ← finishIssue_done (s₀ := s)]
    rfl

/-! ### Active lanes and their poison (R155, R599) -/

theorem Tile.filter_active (x : Tile) (msk : BitVec 3) :
    (List.range 32).filter (fun l => (x.active msk).1.getLsbD l) = (List.range 32).filter (fun l => x.laneActive msk l) :=
  List.filter_congr fun _ hl => (x.active_bit msk (List.mem_range.1 hl)).1

theorem any_range_getLsbD {w : Nat} (v : BitVec w) : (∃ l < w, v.getLsbD l = true) ↔ v ≠ 0 := by
  refine ⟨?_, fun hne => ?_⟩
  · rintro ⟨l, -, hl⟩ rfl
    simp at hl
  · by_contra hnone
    refine hne (BitVec.eq_of_getLsbD_eq fun l hl => ?_)
    rw [Bool.eq_false_iff.2 fun hbit => hnone ⟨l, hl, hbit⟩]
    simp

theorem Tile.any_laneTainted (x : Tile) (msk : BitVec 3) :
    (List.range 32).any (fun l => x.laneTainted msk l) = decide ((x.active msk).2 ≠ 0) := by
  rw [Bool.eq_iff_iff, List.any_eq_true, decide_eq_true_eq, ← any_range_getLsbD]
  simp only [List.mem_range]
  exact exists_congr fun l => and_congr_right fun hl => by rw [(x.active_bit msk hl).2]

/-! ### Lanes of the registers written -/

theorem VReg.bits_ofLanes {ls : List Nat} (ps : List Bool) (h : ls.length ≤ 32) (l : Nat) :
    (VReg.ofLanes ls ps).bits l = BitVec.ofNat 32 (ls.getD l 0) := by
  rw [VReg.bits_eq _ _ _ (VReg.lane_ofLanes ls ps h l)]
  exact BitVec.eq_of_toNat_eq (by simp)

/-- A register that holds a value in lane 0 and zero above (R178). -/
theorem VReg.ofLanes_single (r : Nat) (p : Bool) :
    let v := VReg.ofLanes (r :: List.replicate 31 0) (p :: List.replicate 31 false)
    v.bits 0 = BitVec.ofNat 32 r ∧ v.lanePoison 0 = p ∧ ∀ l < 32, 1 ≤ l → v.bits l = 0 ∧ v.lanePoison l = false := by
  refine ⟨VReg.bits_ofLanes _ (by simp) 0, VReg.lanePoison_ofLanes _ _ (by simp) 0, fun l hl hl1 => ?_⟩
  obtain ⟨l, rfl⟩ := Nat.exists_eq_add_of_le' hl1
  rw [VReg.bits_ofLanes _ (by simp), VReg.lanePoison_ofLanes _ _ (by simp), List.getD_cons_succ, List.getD_cons_succ,
    List.getD_replicate _ (by omega), List.getD_replicate _ (by omega)]
  exact ⟨rfl, rfl⟩

/-- An entry of a list is two lanes: its value, and sixteen lanes above its position (R140). -/
theorem ofList_lanes {l : List (Nat × Nat)} (p : Bool) (hlen : l.length = 16) (hcodes : ∀ x ∈ l, x.1 < 2 ^ 32 ∧ x.2 < 2 ^ 32) {e : Nat}
    (he : e < 16) : ((ofList l p).lane e, (ofList l p).lane (16 + e)) = l.getD e (0, 0) := by
  have hlt : e < l.length := hlen.symm ▸ he
  obtain ⟨hvalue, hposition⟩ := hcodes _ (List.getElem_mem hlt)
  have hlanes : (l.map (·.1) ++ l.map (·.2)).length ≤ 32 := by simp [hlen]
  rw [ofList, VReg.lane_ofLanes _ _ hlanes, VReg.lane_ofLanes _ _ hlanes, List.getD_append _ _ _ _ (by simpa using hlt),
    List.getD_append_right _ _ _ _ (by simp [hlen]), List.getD_eq_getElem _ _ hlt, List.getD_eq_getElem _ _ (by simpa using hlt),
    List.getD_eq_getElem _ _ (by simpa [hlen] using he)]
  simp only [List.getElem_map, List.length_map, hlen, Nat.add_sub_cancel_left, Nat.mod_eq_of_lt hvalue, Nat.mod_eq_of_lt hposition]

theorem ofList_lanePoison (l : List (Nat × Nat)) (p : Bool) {e : Nat} (he : e < 32) : (ofList l p).lanePoison e = p := by
  rw [ofList, VReg.lanePoison_ofLanes _ _ (by simp), List.getD_replicate _ he]

/-! ### Ranked lists (R140) -/

theorem rne32_lt (x : Num) : rne32 x < 2 ^ 32 := by
  unfold rne32 encodeFloat
  have hsign : ∀ s : Bool, (if s then 2 ^ (8 + 23) else 0) ≤ 2 ^ 31 := by decide
  cases x with
  | nan => decide
  | inf s => cases s <;> decide
  | fin s m e =>
    have h := hsign s
    simp only [NumFmt.shape, maxFinite, infCode, NumFmt.hasInf, canonNaN, if_true, Bool.false_eq_true, if_false] at h ⊢
    generalize (if s then 2 ^ (8 + 23) else 0) = sign at h ⊢
    split_ifs <;> simp only <;> omega

theorem rankInsert_perm (x : Nat × Nat) (l : List (Nat × Nat)) : (rankInsert x l).Perm (x :: l) := by
  induction l with
  | nil => rfl
  | cons y ys ih =>
    rw [rankInsert]
    split
    · rfl
    · exact (ih.cons y).trans (.swap x y ys)

theorem rankSort_perm (l : List (Nat × Nat)) : (rankSort l).Perm l := by
  have hfold : ∀ acc : List (Nat × Nat), (l.foldl (fun acc x => rankInsert x acc) acc).Perm (l ++ acc) := by
    induction l with
    | nil => exact fun _ => .rfl
    | cons x xs ih => exact fun acc => (ih _).trans (((rankInsert_perm x acc).append_left xs).trans List.perm_middle)
  exact (hfold []).trans (by rw [List.append_nil])

theorem topK_length {k : Nat} (l : List (Nat × Nat)) (hk : k ≤ 16) : (topK k l).length = 16 := by
  simp [topK]
  omega

/-- The best entries have codes of 32 bits where the positions are. -/
theorem topK_codes {k : Nat} {l : List (Nat × Nat)} (hl : ∀ x ∈ l, x.2 < 2 ^ 32) {x : Nat × Nat} (hx : x ∈ topK k l) :
    x.1 < 2 ^ 32 ∧ x.2 < 2 ^ 32 := by
  rcases List.mem_append.1 hx with hbest | hempty
  · obtain ⟨y, hy, rfl⟩ := List.mem_map.1 hbest
    exact ⟨rne32_lt _, hl y ((rankSort_perm l).mem_iff.1 (List.mem_of_mem_take hy))⟩
  · rw [List.eq_of_mem_replicate hempty]
    decide

/-- The list register that a top-k instruction writes. -/
theorem ofList_topK {k : Nat} (l : List (Nat × Nat)) (p : Bool) (hk : k ≤ 16) (hl : ∀ x ∈ l, x.2 < 2 ^ 32) :
    let v := ofList (topK k l) p
    ∀ e < 16, (v.lane e, v.lane (16 + e)) = (topK k l).getD e (0, 0) ∧ v.lanePoison e = p ∧ v.lanePoison (16 + e) = v.lanePoison e := by
  intro v e he
  have hpoison : ∀ i < 32, v.lanePoison i = p := fun i => ofList_lanePoison _ _
  exact ⟨ofList_lanes p (topK_length l hk) (fun x => topK_codes hl) he, hpoison e (by omega),
    (hpoison _ (by omega)).trans (hpoison e (by omega)).symm⟩

/-! ### The instructions -/

/-- A sum modulo 2^32 taken lane by lane is the sum of the lanes (R178). -/
theorem ofNat_foldl_add_mod {α : Type} (g : α → Nat) (ls : List α) :
    BitVec.ofNat 32 (ls.foldl (fun r l => (r + g l) % 2 ^ 32) 0) = BitVec.ofNat 32 (ls.map g).sum := by
  have hfold : ∀ r, ls.foldl (fun r l => (r + g l) % 2 ^ 32) r % 2 ^ 32 = (r + (ls.map g).sum) % 2 ^ 32 := by
    induction ls with
    | nil => simp
    | cons l ls ih =>
      intro r
      rw [List.foldl_cons, ih, Nat.mod_add_mod, Nat.add_assoc, List.map_cons, List.sum_cons]
  apply BitVec.eq_of_toNat_eq
  simpa using hfold 0

/-- The reserved fields of format R in an instruction that takes no immediate operand B: those it leaves unused are zero (R155). -/
theorem legalR_withoutI_iff (f : FmtR) (useB useC useMsk useS useSub useImm : Bool) :
    legalR f true true useB useC false useMsk useS useSub useImm = true ↔
      (useB = false → f.b = 0) ∧ (useC = false → f.c = 0) ∧ f.i = false ∧
        (if useMsk = true then f.msk.getLsbD 2 = false → f.msk = 0 else f.msk = 0) ∧
        (useS = false → f.s = false) ∧ (useSub = false → f.sub = 0) ∧ (useImm = false → f.imm = 0) := by
  have hor : ∀ (use : Bool) (p : Prop), (use = true ∨ p) ↔ (use = false → p) := fun use p => by cases use <;> simp
  have hmsk : (if useMsk = true then mskLegal f.msk else decide (f.msk = 0)) = true ↔
      (if useMsk = true then f.msk.getLsbD 2 = false → f.msk = 0 else f.msk = 0) := by
    cases useMsk <;> simp [mskLegal_iff]
  have hb : (if useB = true then !false || decide (f.b = 0) else decide (f.b = 0)) = true ↔ (useB = false → f.b = 0) := by
    cases useB <;> simp
  simp only [legalR, Bool.false_and, Bool.or_false, Bool.false_or, Bool.true_or, Bool.true_and]
  simp only [Bool.and_eq_true, Bool.or_eq_true, hor, hmsk, hb, decide_eq_true_eq, Bool.not_eq_true', and_assoc]

theorem legalVred_iff (f : FmtR) : (legalR f true true false false false true false true false && f.sub.toNat < 4) = true ↔
    f.b = 0 ∧ f.c = 0 ∧ f.i = false ∧ f.s = false ∧ f.sub.toNat < 4 ∧ f.imm = 0 ∧ (f.msk.getLsbD 2 = false → f.msk = 0) := by
  rw [Bool.and_eq_true, legalR_withoutI_iff]
  simp
  tauto

theorem legalVtkf_iff (f : FmtR) : (legalR f true true true false false true false false true && f.imm.toNat ≤ 16) = true ↔
    f.c = 0 ∧ f.i = false ∧ f.s = false ∧ f.sub = 0 ∧ f.imm.toNat ≤ 16 ∧ (f.msk.getLsbD 2 = false → f.msk = 0) := by
  rw [Bool.and_eq_true, legalR_withoutI_iff]
  simp
  tauto

theorem legalVtkm_iff (f : FmtR) : (legalR f true true true false false false false false true && f.imm.toNat ≤ 16) = true ↔
    f.c = 0 ∧ f.i = false ∧ f.msk = 0 ∧ f.s = false ∧ f.sub = 0 ∧ f.imm.toNat ≤ 16 := by
  rw [Bool.and_eq_true, legalR_withoutI_iff]
  simp
  tauto

/-- The mask or G register that MOP writes (R180). -/
def Tile.maskResult (x : Tile) (f : FmtR) : Tile :=
  let m := fun (r : BitVec 4) => x.mreg r.toNat
  match f.sub.toNat with
  | 0 => x.setM f.d.toNat ⟨(m f.a).val &&& (m f.b).val, (m f.a).poison ||| (m f.b).poison⟩
  | 1 => x.setM f.d.toNat ⟨(m f.a).val ||| (m f.b).val, (m f.a).poison ||| (m f.b).poison⟩
  | 2 => x.setM f.d.toNat ⟨(m f.a).val ^^^ (m f.b).val, (m f.a).poison ||| (m f.b).poison⟩
  | 3 => x.setM f.d.toNat ⟨(m f.a).val &&& ~~~(m f.b).val, (m f.a).poison ||| (m f.b).poison⟩
  | 4 => x.setM f.d.toNat ⟨(x.greg f.a).val.setWidth 32, if (x.greg f.a).poison then BitVec.allOnes 32 else 0⟩
  | 5 => x.setG f.d ⟨(m f.a).val.setWidth 64, decide ((m f.a).poison ≠ 0)⟩
  | _ => x.setG f.d ⟨BitVec.ofNat 64 ((List.range 32).filter (fun l => (m f.a).val.getLsbD l)).length, decide ((m f.a).poison ≠ 0)⟩

theorem legalMop_iff (f : FmtR) :
    (legalR f true true true false false false false true false && f.sub.toNat < 7 && (f.sub.toNat < 4 || f.b = 0) &&
      (if f.sub.toNat < 4 then f.d.toNat < 4 && f.a.toNat < 4 && f.b.toNat < 4
        else if f.sub.toNat = 4 then f.d.toNat < 4 else f.a.toNat < 4)) = true ↔
    f.c = 0 ∧ f.i = false ∧ f.msk = 0 ∧ f.s = false ∧ f.imm = 0 ∧ f.sub.toNat < 7 ∧ (4 ≤ f.sub.toNat → f.b = 0) ∧
      (f.sub.toNat < 4 → f.d.toNat < 4 ∧ f.a.toNat < 4 ∧ f.b.toNat < 4) ∧ (f.sub.toNat = 4 → f.d.toNat < 4) ∧
      (5 ≤ f.sub.toNat → f.a.toNat < 4) := by
  generalize f.sub.toNat = k
  rw [Bool.and_eq_true, Bool.and_eq_true, Bool.and_eq_true, legalR_withoutI_iff]
  rcases Nat.lt_trichotomy k 4 with hk | rfl | hk
  · simp [hk, hk.ne, show ¬ 4 ≤ k by omega, show ¬ 5 ≤ k by omega, show k < 7 by omega]
    tauto
  · simp
    tauto
  · simp [hk.ne', hk.le, show 5 ≤ k from hk, show ¬ k < 4 by omega]
    tauto

theorem exec_mop (t : TileId) (f : FmtR) (s : State) : exec (.mop t f) s = .next (issue t s
    (legalR f true true true false false false false true false && f.sub.toNat < 7 && (f.sub.toNat < 4 || f.b = 0) &&
      (if f.sub.toNat < 4 then f.d.toNat < 4 && f.a.toNat < 4 && f.b.toNat < 4
        else if f.sub.toNat = 4 then f.d.toNat < 4 else f.a.toNat < 4)) true [] fun x => .done (s.setTile t (x.maskResult f))) := by
  refine congrArg Host.Outcome.next (congrArg (issue t s _ true []) (funext fun x => ?_))
  unfold Tile.maskResult
  generalize f.sub.toNat = k
  rcases k with _ | _ | _ | _ | _ | _ | k <;> rfl

/-- Settles O16: the three that read lanes write a register made of their result, and MOP writes one of the results of R180. -/
theorem reductionsMasksAndListsFollowTheirRules : Obligations.ReductionsMasksAndListsFollowTheirRules := by
  unfold Obligations.ReductionsMasksAndListsFollowTheirRules
  intro t f s x on tainted
  refine ⟨fun h => ?lanes, fun h => ?lists, fun h => ?masks⟩
  case lanes =>
    have hred := exec_of_vectorIssue (i := .vred t f) h (legalVred_iff f) rfl
    have hform := exec_of_vectorIssue (i := .vtkf t f) h (legalVtkf_iff f) rfl
    refine ⟨hred.1, fun hlegal => ⟨_, hred.2 hlegal, ?reduced⟩, hform.1, fun hlegal => ⟨_, hform.2 hlegal, ?formed⟩⟩
    case reduced =>
      obtain ⟨hbits, hpoison, hrest⟩ := VReg.ofLanes_single _ _
      refine ⟨hbits.trans ?_, hpoison.trans ?_, hrest⟩
      · rw [x.filter_active]
        generalize f.sub.toNat = k
        match k with
        | 0 | 1 | 2 => rfl
        | _ + 3 => exact ofNat_foldl_add_mod _ _
      · rw [x.filter_active, ← x.any_laneTainted]
    case formed =>
      obtain ⟨-, -, -, -, hk, -⟩ := hlegal
      dsimp only
      rw [x.filter_active, ← x.any_laneTainted]
      refine ofList_topK _ _ hk fun e he => ?_
      obtain ⟨l, -, rfl⟩ := List.mem_map.1 he
      exact Nat.mod_lt _ (by decide)
  case lists =>
    have hmerge := exec_of_vectorIssue (i := .vtkm t f) h (legalVtkm_iff f) rfl
    refine ⟨hmerge.1, fun hlegal => ⟨_, hmerge.2 hlegal, ?merged⟩⟩
    case merged =>
      obtain ⟨-, -, -, -, -, hk⟩ := hlegal
      refine ofList_topK _ _ hk fun e he => ?_
      rcases List.mem_append.1 he with he | he <;>
      · obtain ⟨l, -, rfl⟩ := List.mem_map.1 he
        exact VReg.lane_lt _ _
  case masks =>
    intro k m legal
    obtain ⟨hillegal, hlegal⟩ := exec_of_vectorIssue h (legalMop_iff f) (exec_mop t f s)
    split
    · next hbad => exact hillegal hbad
    · next hgood => exact hlegal (not_not.1 hgood)

end Sys2Proof.Machine

/-! The start and the end of an MMA (R131, R137, R172): the start latches what the MMA names, the end does the steps that are left
and gives the accumulator its kind. -/

namespace Sys2Proof.Machine

/-- A read of words without a condition leaves nothing behind (R303). -/
theorem State.load_of_clean {s : State} {a n : Nat} (h : s.condsIn a n = []) : (s.load a n).2 = s := by
  simp [State.load, h]

/-! ### MMA_START -/

/-- The ranges that an MMA latches at its start: its table or zero points, and its scales (R137). -/
def MmaOp.latchRanges (o : MmaOp) : List (Nat × Nat) :=
  if o.f.mode then
    (if o.f.expk then [(zeroPointOff o.f.sel.toNat, 32)] else [(tableOff o.f.sel.toNat, 32)]) ++
      (if o.f.early then [(scaleOff o.f.sel.toNat, 128)] else [])
  else []

/-- An MMA with the contents of its ranges. -/
def MmaOp.latching (o : MmaOp) (t : TileId) (s : State) : MmaOp :=
  { o with
    latch := o.latchRanges.flatMap (fun r => memSlice s.mem.cells (tileAddr t.val r.1) r.2)
    latchPoison := o.latchRanges.flatMap (fun r => s.badWords (tileAddr t.val r.1) r.2) }

/-- Ranges of a tile's local space are read one after the other. -/
def State.readRanges (s : State) (t : TileId) (rs : List (Nat × Nat)) : State :=
  rs.foldl (fun s r => (s.load (tileAddr t.val r.1) r.2).2) s

theorem State.sameButMemory_readRanges (s : State) (t : TileId) (rs : List (Nat × Nat)) : s.SameButMemory (s.readRanges t rs) :=
  foldl_related (f := fun (s : State) (r : Nat × Nat) => (s.load (tileAddr t.val r.1) r.2).2) .refl .trans
    (fun s _ => s.sameButMemory_load _ _) rs s

theorem State.readRanges_cells (s : State) (t : TileId) (rs : List (Nat × Nat)) : (s.readRanges t rs).mem.cells = s.mem.cells :=
  foldl_related (R := fun s u : State => u.mem.cells = s.mem.cells) (fun _ => rfl) (fun h k => k.trans h)
    (fun s _ => s.load_cells _ _) rs s

theorem State.readRanges_of_clean {s : State} {t : TileId} {rs : List (Nat × Nat)}
    (h : ∀ r ∈ rs, s.condsIn (tileAddr t.val r.1) r.2 = []) : s.readRanges t rs = s := by
  induction rs with
  | nil => rfl
  | cons r rs ih =>
    obtain ⟨hr, hrs⟩ := List.forall_mem_cons.1 h
    exact (congrArg (State.readRanges · t rs) (State.load_of_clean hr)).trans (ih hrs)

section
variable {s : State} {t : TileId} {o : MmaOp}

theorem exec_mmaStart_of_held (hrun : (s.tile t).mmaRun = none) (hqueue : (s.tile t).mmaQueue = some o)
    (hheld : (s.tile t).drainBefore s.calends o.seq o.f.acc = true ∨ s.accAsked t o.f.acc = true) : exec (.mmaStart t) s = .next s := by
  change execMmaStart t s = _
  unfold execMmaStart
  dsimp only
  rw [hrun, hqueue]
  exact if_pos hheld

theorem exec_mmaStart_of_free (hrun : (s.tile t).mmaRun = none) (hqueue : (s.tile t).mmaQueue = some o)
    (hfree : ¬ ((s.tile t).drainBefore s.calends o.seq o.f.acc = true ∨ s.accAsked t o.f.acc = true)) :
    exec (.mmaStart t) s = .next ((s.readRanges t o.latchRanges).setTile t
      { s.tile t with mmaRun := some (o.latching t s), mmaQueue := none }) := by
  rw [← (s.sameButMemory_readRanges t o.latchRanges).tile]
  change execMmaStart t s = _
  unfold execMmaStart
  dsimp only
  rw [hrun, hqueue]
  exact if_neg hfree

end

/-! ### What the steps of an MMA leave as it was -/

/-- The tile's registers, its PC and the kinds of its accumulators stand. -/
structure Tile.KeepsUnderSteps (x y : Tile) : Prop where
  g : y.g = x.g
  vq : y.vq = x.vq
  pc : y.pc = x.pc
  kindOf : ∀ n, y.kindOf n = x.kindOf n

theorem Tile.KeepsUnderSteps.of_withoutRecords {x y z : Tile} (h : x.KeepsUnderSteps y) (k : z.withoutRecords = y.withoutRecords) :
    x.KeepsUnderSteps z :=
  have hg : z.g = y.g := (congrArg Tile.g k :)
  have hvq : z.vq = y.vq := (congrArg Tile.vq k :)
  have hpc : z.pc = y.pc := (congrArg Tile.pc k :)
  have hkind : z.kindOf = y.kindOf := (congrArg Tile.kindOf k :)
  ⟨hg.trans h.g, hvq.trans h.vq, hpc.trans h.pc, fun n => (congrFun hkind n).trans (h.kindOf n)⟩

/-- The steps from `o.steps` to `last` - 1 write the accumulator: there are some, or a K of 0 without add writes its starting
state (R109). -/
def MmaOp.Adds (o : MmaOp) (last : Nat) : Prop := (o.k = 0 ∧ o.f.accum = false) ∨ (0 < o.k ∧ o.steps < last)

theorem MmaOp.not_adds_iff (o : MmaOp) (last : Nat) :
    ¬ o.Adds last ↔ (o.k = 0 ∧ o.f.accum = true) ∨ (0 < o.k ∧ last ≤ o.steps) := by
  unfold MmaOp.Adds
  cases o.f.accum <;> simp <;> omega

theorem runSteps_of_not_adds {t : TileId} {s : State} {o : MmaOp} (c : MmaCombo) {last : Nat} (h : ¬ o.Adds last) :
    runSteps t s o c last = s.setTile t { (s.tile t).count wMmaSteps (last - o.steps) with mmaRun := some { o with steps := last } } :=
  if_pos ((o.not_adds_iff last).1 h)

/-- The tile of an MMA after steps that wrote these cells, without the flags raised. -/
def Tile.withCells (x : Tile) (o : MmaOp) (last : Nat) (cells : List Cell) : Tile :=
  { x.count wMmaSteps (last - o.steps) with
    mmaRun := some { o with steps := last }
    accPoison := replacePoison x.accPoison o.f.acc (cells.map (·.poison)) }

/-- The flags that the steps of all cells raised (R116). -/
def raisedFlags (cells : List Cell) : IeeeFlags := cells.foldl (fun f q => f.or q.flags) {}

/-- What steps that write the accumulator do, those of a K of 0 included (R109, R116, R172). -/
theorem runSteps_of_adds {t : TileId} {s : State} {o : MmaOp} (c : MmaCombo) {last : Nat} (h : o.Adds last) :
    ∃ (u : State) (evt : Bool), s.SameButMemory u ∧
      u.mem.cells = memWrite (memWrite s.mem.cells (tileAddr t.val (accBase o.f.acc false)) 2048 (ofLanes 32 ((foldCells s t o c last).map (·.acc))))
        (tileAddr t.val (accBase o.f.acc true)) 2048 (ofLanes 32 ((foldCells s t o c last).map (·.comp))) ∧
      runSteps t s o c last = u.setTile t (((s.tile t).withCells o last (foldCells s t o c last)).raise evt s.calends
        (raisedFlags (foldCells s t o c last))) := by
  refine ⟨_, _, ?_, ?_, if_neg (mt (o.not_adds_iff last).2 (not_not.2 h))⟩
  · exact (State.sameButMemory_stepReads ..).trans ((State.sameButMemory_store ..).trans (State.sameButMemory_store ..))
  · simp only [State.store_cells, State.stepReads_cells, if_neg (show ¬(2048 = 0) by decide)]

/-- Outside the accumulator and the tile nothing is changed by steps, and of the tile what `KeepsUnderSteps` names stands. -/
structure State.KeepsUnderSteps (s : State) (t : TileId) (n : Bool) (u : State) : Prop where
  tile : (s.tile t).KeepsUnderSteps (u.tile t)
  outside : ∀ b, b < tileAddr t.val (accBase n false) ∨ tileAddr t.val (accBase n false) + 4096 ≤ b →
    memByte u.mem.cells b = memByte s.mem.cells b
  others : ∀ v, v ≠ t → u.tile v = s.tile v

theorem runSteps_keeps (t : TileId) (s : State) (o : MmaOp) (c : MmaCombo) (last : Nat) :
    s.KeepsUnderSteps t o.f.acc (runSteps t s o c last) := by
  by_cases h : o.Adds last
  · obtain ⟨u, evt, hsame, hcells, heq⟩ := runSteps_of_adds (t := t) (s := s) c h
    rw [heq]
    refine ⟨?_, fun b hb => ?_, fun v hv => ?_⟩
    · rw [State.tile_setTile_self]
      exact .of_withoutRecords (y := (s.tile t).withCells o last _) ⟨rfl, rfl, rfl, fun n => by cases n <;> rfl⟩
        (Tile.withoutRecords_raise ..)
    · rw [State.setTile_mem, hcells, tileAddr_accBase_true, memByte_memWrite_outside (by omega), memByte_memWrite_outside (by omega)]
    · rw [State.tile_setTile_of_ne u _ hv.symm, hsame.tile]
  · rw [runSteps_of_not_adds c h]
    refine ⟨?_, fun b _ => rfl, fun v hv => State.tile_setTile_of_ne s _ hv.symm⟩
    rw [State.tile_setTile_self]
    exact ⟨rfl, rfl, rfl, fun n => by cases n <;> rfl⟩

/-! ### What the steps of an MMA leave in the accumulator -/

/-- Cell `i` after the steps from `o.steps` to `last` - 1 (R97, R109). -/
def State.cellAfter (s : State) (t : TileId) (o : MmaOp) (c : MmaCombo) (last i : Nat) : Cell :=
  ((List.range (last - o.steps)).map (· + o.steps)).foldl (fun q k => s.stepAt t o c (i / 32) (i % 32) k q) (s.cellBefore t o c i)

theorem getD_foldCells {α : Type} (f : Cell → α) (d : α) (s : State) (t : TileId) (o : MmaOp) (c : MmaCombo) (last : Nat) {i : Nat}
    (hi : i < 512) : ((foldCells s t o c last).map f).getD i d = f (s.cellAfter t o c last i) := by
  rw [foldCells_eq, List.map_map]
  exact getD_map_range _ d hi

/-- The cells of an accumulator by row and column (R124). -/
theorem exists_cell_iff {p : Nat → Prop} : (∃ i < 512, p i) ↔ ∃ r < 16, ∃ j < 32, p (32 * r + j) := by
  refine ⟨?_, fun ⟨r, hr, j, hj, h⟩ => ⟨32 * r + j, by omega, h⟩⟩
  rintro ⟨i, hi, h⟩
  exact ⟨i / 32, by omega, i % 32, by omega, by rwa [Nat.div_add_mod]⟩

/-- The sticky flags with their bits of the tile status register (R133). -/
def flagBits : List (Nat × (IeeeFlags → Bool)) :=
  [(4, IeeeFlags.invalid), (3, IeeeFlags.divZero), (2, IeeeFlags.overflow), (1, IeeeFlags.underflow), (0, IeeeFlags.inexact)]

/-- A sticky flag is clear at first, is set in a union where it is set in a part, and is a bit of the register. -/
structure IsFlagBit (k : Nat) (flag : IeeeFlags → Bool) : Prop where
  clear : flag {} = false
  or : ∀ a b : IeeeFlags, flag (a.or b) = (flag a || flag b)
  bit : ∀ a : IeeeFlags, (BitVec.ofNat 5 a.toNat).getLsbD k = flag a

theorem isFlagBit_of_mem {e : Nat × (IeeeFlags → Bool)} (h : e ∈ flagBits) : IsFlagBit e.1 e.2 := by
  simp only [flagBits, List.mem_cons, List.not_mem_nil, or_false] at h
  rcases h with rfl | rfl | rfl | rfl | rfl <;>
  · refine ⟨rfl, fun _ _ => rfl, fun ⟨invalid, divZero, overflow, underflow, inexact⟩ => ?_⟩
    revert invalid divZero overflow underflow inexact
    decide

theorem raisedFlags_iff {k : Nat} {flag : IeeeFlags → Bool} (h : IsFlagBit k flag) (cells : List Cell) :
    flag (raisedFlags cells) = true ↔ ∃ q ∈ cells, flag q.flags = true := by
  have hfold : ∀ f : IeeeFlags, flag (cells.foldl (fun f q => f.or q.flags) f) = (flag f || cells.any fun q => flag q.flags) := by
    induction cells with
    | nil => simp
    | cons q qs ih => exact fun f => by rw [List.foldl_cons, ih, h.or, List.any_cons, Bool.or_assoc]
  rw [raisedFlags, hfold, h.clear, Bool.false_or, List.any_eq_true]

theorem Tile.raise_flags (x : Tile) (evt : Bool) (cal : Nat) (f : IeeeFlags) :
    (x.raise evt cal f).flags = x.flags ||| BitVec.ofNat 5 f.toNat := by
  unfold Tile.raise
  dsimp only
  split <;> rfl

/-- The accumulator and the flags after steps that wrote every cell: its value, its compensation and its poison (R109, R116, R132). -/
structure State.CellsWritten (s : State) (t : TileId) (o : MmaOp) (c : MmaCombo) (last : Nat) (u : State) : Prop where
  value : ∀ i < 512, memNat u.mem.cells (tileAddr t.val (accBase o.f.acc false + 4 * i)) 4 = (s.cellAfter t o c last i).acc % 2 ^ 32
  compensation : ∀ i < 512, memNat u.mem.cells (tileAddr t.val (accBase o.f.acc true + 4 * i)) 4 = (s.cellAfter t o c last i).comp % 2 ^ 32
  marks : ∀ i < 512, Sparse.get false (u.tile t).accPoison (accKey o.f.acc i) = (s.cellAfter t o c last i).poison
  flags : ∀ e ∈ flagBits, (u.tile t).flags.getLsbD e.1 = true ↔
    (s.tile t).flags.getLsbD e.1 = true ∨ ∃ i < 512, e.2 (s.cellAfter t o c last i).flags = true

theorem runSteps_cellsWritten {t : TileId} {s : State} {o : MmaOp} (c : MmaCombo) {last : Nat} (h : o.Adds last) :
    s.CellsWritten t o c last (runSteps t s o c last) := by
  obtain ⟨u, evt, hsame, hcells, heq⟩ := runSteps_of_adds (t := t) (s := s) c h
  rw [heq]
  refine ⟨fun i hi => ?value, fun i hi => ?compensation, fun i hi => ?marks, fun e he => ?flags⟩
  case value =>
    rw [State.setTile_mem, hcells, tileAddr_add, tileAddr_accBase_true, memNat_memWrite_outside _ (by omega),
      memNat_memWrite_lane _ (by omega), laneNat_ofLanes, getD_foldCells _ _ _ _ _ _ _ hi]
  case compensation =>
    rw [State.setTile_mem, hcells, tileAddr_add, memNat_memWrite_lane _ (by omega), laneNat_ofLanes, getD_foldCells _ _ _ _ _ _ _ hi]
  case marks =>
    have hmarks : ∀ x : Tile, ∀ fl, (x.raise evt s.calends fl).accPoison = x.accPoison := fun x fl =>
      (congrArg Tile.accPoison (x.withoutRecords_raise evt s.calends fl) :)
    rw [State.tile_setTile_self, hmarks, Tile.withCells, get_replacePoison _ _ _ hi, getD_foldCells _ _ _ _ _ _ _ hi]
  case flags =>
    have hbit := isFlagBit_of_mem he
    rw [State.tile_setTile_self, Tile.raise_flags, BitVec.getLsbD_or, Bool.or_eq_true, hbit.bit, raisedFlags_iff hbit, foldCells_eq]
    simp only [List.mem_map, List.mem_range, exists_exists_and_eq_and]
    rfl

/-! ### MMA_END -/

section
variable (x : Tile) (n : Bool) (ke : AccKind × Bool)

theorem Tile.kindOf_setKind_self : (x.setKind n ke).kindOf n = ke := by cases n <;> rfl
theorem Tile.kindOf_setKind_not : (x.setKind n ke).kindOf (!n) = x.kindOf (!n) := by cases n <;> rfl
@[simp] theorem Tile.setKind_g : (x.setKind n ke).g = x.g := by cases n <;> rfl
@[simp] theorem Tile.setKind_vq : (x.setKind n ke).vq = x.vq := by cases n <;> rfl
@[simp] theorem Tile.setKind_pc : (x.setKind n ke).pc = x.pc := by cases n <;> rfl
@[simp] theorem Tile.setKind_accPoison : (x.setKind n ke).accPoison = x.accPoison := by cases n <;> rfl
@[simp] theorem Tile.setKind_flags : (x.setKind n ke).flags = x.flags := by cases n <;> rfl

end

section
variable {s : State} {t : TileId} {o : MmaOp} {c : MmaCombo}

/-- The tile of an MMA that has ended, from the tile of its last step. -/
def Tile.endedMma (x : Tile) (o : MmaOp) (c : MmaCombo) : Tile :=
  { x.setKind o.f.acc (kindAfter o c (x.kindOf o.f.acc).1 (x.kindOf o.f.acc).2) with mmaRun := none }

theorem exec_mmaEnd (hrun : (s.tile t).mmaRun = some o) (hcombo : mmaCombo o.f = some c) :
    exec (.mmaEnd t) s = .next ((runSteps t s o c o.k).setTile t (((runSteps t s o c o.k).tile t).endedMma o c)) := by
  change execMmaEnd t s = _
  unfold execMmaEnd
  rw [hrun]
  dsimp only
  rw [hcombo]
  rfl

theorem Tile.endedMma_kindOf_self (x : Tile) (o : MmaOp) (c : MmaCombo) :
    (x.endedMma o c).kindOf o.f.acc = kindAfter o c (x.kindOf o.f.acc).1 (x.kindOf o.f.acc).2 :=
  x.kindOf_setKind_self ..

theorem Tile.endedMma_kindOf_not (x : Tile) (o : MmaOp) (c : MmaCombo) : (x.endedMma o c).kindOf (!o.f.acc) = x.kindOf (!o.f.acc) :=
  x.kindOf_setKind_not ..

/-- The end of an MMA leaves what its steps leave, but for the kind and EARLY of its accumulator. -/
theorem Tile.endedMma_keeps (x : Tile) (o : MmaOp) (c : MmaCombo) :
    (x.endedMma o c).g = x.g ∧ (x.endedMma o c).vq = x.vq ∧ (x.endedMma o c).pc = x.pc ∧
      (x.endedMma o c).accPoison = x.accPoison ∧ (x.endedMma o c).flags = x.flags :=
  ⟨x.setKind_g .., x.setKind_vq .., x.setKind_pc .., x.setKind_accPoison .., x.setKind_flags ..⟩

/-- The state after an MMA has ended (R109, R125, R172). With a K of 0 under add, EARLY is set (log entry 79). -/
structure State.MmaEnded (s : State) (t : TileId) (o : MmaOp) (c : MmaCombo) (u : State) : Prop where
  mmaRun : (u.tile t).mmaRun = none
  kind : (u.tile t).kindOf o.f.acc = kindAfter o c ((s.tile t).kindOf o.f.acc).1 ((s.tile t).kindOf o.f.acc).2
  otherKind : (u.tile t).kindOf (!o.f.acc) = (s.tile t).kindOf (!o.f.acc)
  idle : ¬ o.Adds o.k → u.mem = s.mem ∧ (u.tile t).accPoison = (s.tile t).accPoison ∧ (u.tile t).flags = (s.tile t).flags
  cells : o.Adds o.k → s.CellsWritten t o c o.k u
  outside : ∀ b, b < tileAddr t.val (accBase o.f.acc false) ∨ tileAddr t.val (accBase o.f.acc false) + 4096 ≤ b →
    memByte u.mem.cells b = memByte s.mem.cells b
  others : ∀ v, v ≠ t → u.tile v = s.tile v
  g : (u.tile t).g = (s.tile t).g
  vq : (u.tile t).vq = (s.tile t).vq
  pc : (u.tile t).pc = (s.tile t).pc

theorem exec_mmaEnd_ended (hrun : (s.tile t).mmaRun = some o) (hcombo : mmaCombo o.f = some c) :
    ∃ u, exec (.mmaEnd t) s = .next u ∧ s.MmaEnded t o c u := by
  obtain ⟨hkeeps, houtside, hothers⟩ := runSteps_keeps t s o c o.k
  obtain ⟨hg, hvq, hpc, hmarks, hflags⟩ := ((runSteps t s o c o.k).tile t).endedMma_keeps o c
  refine ⟨_, exec_mmaEnd hrun hcombo, ?ended⟩
  have htile := State.tile_setTile_self (runSteps t s o c o.k) t (((runSteps t s o c o.k).tile t).endedMma o c)
  constructor
  case mmaRun => rw [htile]; rfl
  case kind => rw [htile, Tile.endedMma_kindOf_self, hkeeps.kindOf]
  case otherKind => rw [htile, Tile.endedMma_kindOf_not, hkeeps.kindOf]
  case idle =>
    intro hidle
    rw [htile, hmarks, hflags, runSteps_of_not_adds c hidle, State.tile_setTile_self]
    exact ⟨rfl, rfl, rfl⟩
  case cells =>
    intro hadds
    obtain ⟨hvalue, hcomp, hpoison, hset⟩ := runSteps_cellsWritten (t := t) (s := s) c hadds
    refine ⟨hvalue, hcomp, ?_, ?_⟩ <;> rw [htile]
    · rwa [hmarks]
    · rwa [hflags]
  case outside => exact houtside
  case others => exact fun v hv => (State.tile_setTile_of_ne _ _ hv.symm).trans (hothers v hv)
  case g => rw [htile, hg, hkeeps.g]
  case vq => rw [htile, hvq, hkeeps.vq]
  case pc => rw [htile, hpc, hkeeps.pc]

end

end Sys2Proof.Machine

/-! The finishing stage (R126, R137, R143 to R145, R173): the start of a drain, its rows one by one, and its end. -/

namespace Sys2Proof.Machine

/-! ### The end of a drain -/

/-- TINCs that go on change the network, and the TINCs that wait (R162). -/
theorem flushTincs_eq (t : TileId) (s : State) :
    ∃ net ws, flushTincs t s = ({ s with net := net } : State).setTile t { s.tile t with tincs := ws } := by
  have hsend : ∀ (ws : List TincWait) (k : TileTask) (u : State), ∃ net, ws.foldl (fun s w =>
      s.sendControl cmdTallyAdd t.val (seqNode (clusterOfTile t.val)) 0 w.tally (k.vi, k.part, k.priority) 0 w.amount.toNat) u =
        { u with net := net } := by
    intro ws k
    induction ws with
    | nil => exact fun u => ⟨u.net, rfl⟩
    | cons w ws ih =>
      intro u
      rw [List.foldl_cons, State.sendControl_of (s := u) (r := u) _ _ _ _ _ _ _ _ (by decide) ⟨rfl, rfl, rfl, rfl, rfl, rfl⟩]
      exact ih _
  unfold flushTincs
  dsimp only
  split
  · exact ⟨s.net, [], rfl⟩
  · split
    · obtain ⟨net, hnet⟩ := hsend _ _ _
      exact ⟨net, _, hnet⟩
    · exact ⟨s.net, _, rfl⟩

theorem flushTincs_setTile (t : TileId) (s : State) (y : Tile) :
    ∃ net ws, flushTincs t (s.setTile t y) = ({ s with net := net } : State).setTile t { y with tincs := ws } := by
  obtain ⟨net, ws, hflush⟩ := flushTincs_eq t (s.setTile t y)
  rw [State.tile_setTile_self] at hflush
  exact ⟨net, ws, hflush.trans (State.setTile_setTile { s with net := net } t y _)⟩

/-- What a drain that leaves the stage changes: its tile's drain, digest segment and TINCs, and the network (R145, R500). -/
theorem endDrain_eq (t : TileId) (s : State) (o : DrainOp) :
    ∃ net ws, endDrain t s o = ({ s with net := net } : State).setTile t { s.tile t with
      drainRun := none
      priv := if 0 < o.segBytes then (s.tile t).priv.segment o.crc o.segBytes else (s.tile t).priv
      tincs := ws } := by
  unfold endDrain
  dsimp only
  by_cases hseg : 0 < o.segBytes
  · rw [if_pos hseg, if_pos hseg]
    exact flushTincs_setTile t s _
  · rw [if_neg hseg, if_neg hseg]
    exact flushTincs_setTile t s _

theorem exec_drainComplete_of_open {t : TileId} {s : State} {o : DrainOp} (hrun : (s.tile t).drainRun = some o)
    (hopen : o.row < o.desc.rows ∨ o.unacked ≠ 0) : exec (.drainComplete t) s = .next s := by
  change execDrainComplete t s = _
  unfold execDrainComplete
  rw [hrun]
  exact if_neg (by omega)

theorem exec_drainComplete_of_done {t : TileId} {s : State} {o : DrainOp} (hrun : (s.tile t).drainRun = some o)
    (hrows : o.desc.rows ≤ o.row) (hacked : o.unacked = 0) : exec (.drainComplete t) s = .next (endDrain t s o) := by
  change execDrainComplete t s = _
  unfold execDrainComplete
  rw [hrun]
  exact if_pos ⟨hrows, hacked⟩

/-! ### DRAIN_START -/

/-- A drain uses the channels' scales (R143). -/
abbrev DrainOp.Scaled (o : DrainOp) : Prop := o.early = false ∧ o.desc.sel < 16

/-- A drain with what its start reads: the accumulator's cells and, where it scales, the scale vector (R137, R173). -/
def DrainOp.reading (o : DrainOp) (t : TileId) (s : State) : DrainOp :=
  let base := tileAddr t.val (accBase o.acc false)
  let sbase := tileAddr t.val (scaleOff o.desc.sel)
  { o with
    start := s.calends, cells := memSlice s.mem.cells base 4096
    cellPoison := (List.range 512).filter (fun i => (s.cell t o.acc i).poison)
    scale := if o.Scaled then memSlice s.mem.cells sbase 128 else []
    scalePoison := if o.Scaled then s.badWords sbase 128 else [] }

/-- The ranges of the tile's space that the start of a drain reads. -/
def DrainOp.readRanges (o : DrainOp) : List (Nat × Nat) :=
  (accBase o.acc false, 4096) :: if o.Scaled then [(scaleOff o.desc.sel, 128)] else []

theorem DrainOp.readRanges_clean {s : State} {t : TileId} {o : DrainOp} (hcells : s.condsIn (tileAddr t.val (accBase o.acc false)) 4096 = [])
    (hscale : s.condsIn (tileAddr t.val (scaleOff o.desc.sel)) 128 = []) : ∀ r ∈ o.readRanges, s.condsIn (tileAddr t.val r.1) r.2 = [] := by
  refine List.forall_mem_cons.2 ⟨hcells, fun r hr => ?_⟩
  split at hr
  · rwa [List.mem_singleton.1 hr]
  · exact absurd hr List.not_mem_nil

section
variable {s : State} {t : TileId} {o : DrainOp}

theorem exec_drainStart_of_held (hrun : (s.tile t).drainRun = none) (hqueue : (s.tile t).drainQueue = some o)
    (hheld : (s.tile t).mmaBefore o.seq o.acc = true ∨ s.accAsked t o.acc = true) : exec (.drainStart t) s = .next s := by
  change execDrainStart t s = _
  unfold execDrainStart
  dsimp only
  rw [hrun, hqueue]
  exact if_pos hheld

theorem exec_drainStart_of_empty (hrun : (s.tile t).drainRun = none) (hqueue : (s.tile t).drainQueue = some o)
    (hfree : ¬ ((s.tile t).mmaBefore o.seq o.acc = true ∨ s.accAsked t o.acc = true)) (hempty : o.desc.rows = 0 ∨ o.desc.cols = 0) :
    exec (.drainStart t) s = .next (endDrain t (s.setTile t { s.tile t with drainQueue := none }) o) := by
  change execDrainStart t s = _
  unfold execDrainStart
  dsimp only
  rw [hrun, hqueue]
  exact (if_neg hfree).trans (if_pos hempty)

theorem exec_drainStart_of_free (hrun : (s.tile t).drainRun = none) (hqueue : (s.tile t).drainQueue = some o)
    (hfree : ¬ ((s.tile t).mmaBefore o.seq o.acc = true ∨ s.accAsked t o.acc = true)) (hrows : 0 < o.desc.rows) (hcols : 0 < o.desc.cols) :
    exec (.drainStart t) s = .next ((s.readRanges t o.readRanges).setTile t
      { s.tile t with drainRun := some (o.reading t s), drainQueue := none }) := by
  rw [← (s.sameButMemory_readRanges t o.readRanges).tile]
  change execDrainStart t s = _
  unfold execDrainStart
  dsimp only
  rw [hrun, hqueue]
  refine (if_neg hfree).trans ((if_neg (by omega)).trans ?_)
  unfold DrainOp.reading DrainOp.readRanges
  by_cases h : o.Scaled
  · have hscaled : (!o.early && decide (o.desc.sel < 16)) = true := by simpa using h
    rw [hscaled]
    simp only [if_pos h]
    rfl
  · have hscaled : (!o.early && decide (o.desc.sel < 16)) = false := Bool.eq_false_iff.2 (by simpa using h)
    rw [hscaled]
    simp only [if_neg h]
    rfl

end

/-! ### The elements of a row -/

/-- The format of the fused tensor. -/
def DrainOp.fuseFmt (o : DrainOp) : NumFmt := (NumFmt.ofCode o.desc.fuseCode).getD .fp32

/-- Where the row of the fused tensor stands (R143). -/
def DrainOp.fuseAt (o : DrainOp) (t : TileId) : Nat :=
  tileAddr t.val (o.desc.fuseAddr + (if o.desc.fuseRow then 0 else o.row * o.desc.fuseStride))

/-- The row of the fused tensor as it is read; nothing where there is none. -/
def State.fusedRow (s : State) (t : TileId) (o : DrainOp) : Loaded :=
  if o.desc.fuseOp = 0 then ⟨0, 0⟩ else (s.load (o.fuseAt t) (rowBytesOf o.desc.cols o.fuseFmt)).1

theorem State.laneNat_fusedRow (s : State) (t : TileId) (o : DrainOp) (w j : Nat) :
    laneNat (s.fusedRow t o).val w j =
      if o.desc.fuseOp = 0 then 0 else laneNat (memNat s.mem.cells (o.fuseAt t) (rowBytesOf o.desc.cols o.fuseFmt)) w j := by
  unfold State.fusedRow
  split
  · simp [laneNat]
  · rfl

/-- Element `j` of a finished row (R143). -/
theorem State.laneNat_finishRow (s : State) (t : TileId) (o : DrainOp) (out : NumFmt) {j : Nat} (hj : j < o.desc.cols) :
    let base := tileAddr t.val (accBase o.acc false)
    laneNat (s.finishRow t o out).val out.width j =
      (finishCell o.kind o.early o.desc out (memNat o.cells (base + 4 * (32 * o.row + j)) 4)
        (memNat o.cells (base + 0x800 + 4 * (32 * o.row + j)) 4) (memNat o.scale (tileAddr t.val (scaleOff o.desc.sel + 4 * j)) 4)
        (laneNat (s.fusedRow t o).val o.fuseFmt.width j) o.fuseFmt).1.code % 2 ^ out.width := by
  unfold State.finishRow
  dsimp only
  rw [laneNat_ofLanes, List.map_map, getD_map_range _ _ hj]
  rfl

/-! ### DRAIN_ROW_WRITE -/

theorem State.memByte_store_inside (s : State) (a v p : Nat) {n i : Nat} (hi : i < n) :
    memByte (s.store a n v p).mem.cells (a + i) = BitVec.ofNat 8 (v / 2 ^ (8 * i)) := by
  rw [State.store_cells, if_neg (by omega), memByte_memWrite_inside _ _ _ _ _ hi, Nat.shiftRight_eq_div_pow]

theorem State.sameButMemory_fusedRead (s : State) (t : TileId) (o : DrainOp) : s.SameButMemory (s.fusedRead t o) := by
  unfold State.fusedRead
  dsimp only
  split
  · exact .refl s
  · exact State.sameButMemory_load ..

theorem State.fusedRead_cells (s : State) (t : TileId) (o : DrainOp) : (s.fusedRead t o).mem.cells = s.mem.cells := by
  unfold State.fusedRead
  dsimp only
  split
  · rfl
  · exact State.load_cells ..

/-- The tile without what the taps of a row change in it: its records, the statistics and digest it gathers, and the mark of a
poisoned row. -/
def Tile.withoutTaps (x : Tile) : Tile := { x.withoutRecords with priv := {}, eccSeen := false }

theorem Tile.withoutRecords_overflows (x : Tile) (evt : Bool) (cal entry fmt n : Nat) :
    (x.overflows evt cal entry fmt n).withoutRecords = x.withoutRecords := by
  unfold Tile.overflows
  dsimp only
  split <;> rfl

theorem tapRow_tile (s : State) (t : TileId) (x : Tile) (o : DrainOp) (out : NumFmt) (r : FinishedRow) :
    (tapRow s t x o out r).1.withoutTaps = x.withoutTaps := by
  unfold tapRow
  dsimp only
  generalize hy : Tile.raise _ _ _ _ = y
  have hrecords : y.withoutRecords = x.withoutRecords :=
    hy ▸ (Tile.withoutRecords_raise ..).trans (Tile.withoutRecords_overflows ..)
  have htaps : y.withoutTaps = x.withoutTaps :=
    congrArg (fun w : Tile => ({ w with priv := {}, eccSeen := false } : Tile)) hrecords
  rw [← htaps]
  split <;> rfl

/-- The taps leave a drain where it stands: only its digest segment grows (R500). -/
theorem tapRow_drain (s : State) (t : TileId) (x : Tile) (o : DrainOp) (out : NumFmt) (r : FinishedRow) :
    ∃ crc n, (tapRow s t x o out r).2 = { o with crc := crc, segBytes := n } := by
  unfold tapRow
  dsimp only
  split
  · exact ⟨_, _, rfl⟩
  · exact ⟨o.crc, o.segBytes, rfl⟩

/-- The tile and the drain as the taps of a row leave them, which are made with the row's first part (R143, R145). -/
def State.tapped (s : State) (t : TileId) (o : DrainOp) (out : NumFmt) : Tile × DrainOp :=
  if o.part = 0 then tapRow (s.fusedRead t o) t (s.tile t) o out (s.finishRow t o out) else (s.tile t, o)

theorem State.tapped_tile (s : State) (t : TileId) (o : DrainOp) (out : NumFmt) :
    (s.tapped t o out).1.withoutTaps = (s.tile t).withoutTaps := by
  unfold State.tapped
  split
  · exact tapRow_tile ..
  · rfl

theorem State.tapped_drain (s : State) (t : TileId) (o : DrainOp) (out : NumFmt) :
    ∃ crc n, (s.tapped t o out).2 = { o with crc := crc, segBytes := n } := by
  unfold State.tapped
  split
  · exact tapRow_drain ..
  · exact ⟨o.crc, o.segBytes, rfl⟩

/-- Where row `o.row` of a drain goes (R144). -/
def DrainOp.rowAddr (o : DrainOp) : Nat := o.desc.destAddr + o.row * o.desc.destStride

/-- Bytes of the next part of a row that goes to memory: up to a boundary of 2 KiB (R252). -/
def DrainOp.partLen (o : DrainOp) (out : NumFmt) : Nat :=
  min (2048 - (o.rowAddr + o.part) % 2048) (rowBytesOf o.desc.cols out - o.part)

/-- The packet of that part (R145). -/
def State.partPacket (s : State) (t : TileId) (o : DrainOp) (out : NumFmt) (k : TileTask) : Packet :=
  let row := s.finishRow t o out
  let len := o.partLen out
  mkPacket (if len ≤ 32 then cmdWrite else cmdWritePull) t.val 0 0 (o.rowAddr + o.part) len 0 k.vi k.part k.priority 0
    (bitsAt row.val (8 * o.part) (8 * len)) (bitsAt row.poison o.part len)

section
variable {s : State} {t : TileId} {o : DrainOp} {out : NumFmt} {k : TileTask}

theorem State.tapped_keeps (s : State) (t : TileId) (o : DrainOp) (out : NumFmt) :
    (s.tapped t o out).1.g = (s.tile t).g ∧ (s.tapped t o out).1.vq = (s.tile t).vq ∧ (s.tapped t o out).1.pc = (s.tile t).pc :=
  have h := s.tapped_tile t o out
  ⟨(congrArg Tile.g h :), (congrArg Tile.vq h :), (congrArg Tile.pc h :)⟩

theorem exec_drainRowWrite_local (hrun : (s.tile t).drainRun = some o) (htask : (s.tile t).task = some k) (hfmt : o.desc.fmt = some out)
    (hrow : o.row < o.desc.rows) (hdest : o.desc.dest = false) :
    exec (.drainRowWrite t) s = .next
      (((s.fusedRead t o).store (tileAddr t.val o.rowAddr) (rowBytesOf o.desc.cols out) (s.finishRow t o out).val
        (s.finishRow t o out).poison).setTile t { (s.tapped t o out).1 with
          drainRun := some { (s.tapped t o out).2 with row := (s.tapped t o out).2.row + 1 } }) := by
  change execDrainRowWrite t s = _
  unfold execDrainRowWrite
  dsimp only
  rw [hrun, htask]
  dsimp only
  rw [hfmt]
  dsimp only
  rw [if_neg (Nat.not_le.2 hrow), hdest]
  rfl

/-- A drain after a part of a row was sent: the next part is the row's, or the first of the next row (R145). -/
def DrainOp.partSent (o q : DrainOp) (out : NumFmt) : DrainOp :=
  let last := decide (rowBytesOf o.desc.cols out ≤ o.part + o.partLen out)
  { q with
    row := if last then o.row + 1 else o.row
    part := if last then 0 else o.part + o.partLen out
    unacked := o.unacked + 1 }

theorem DrainOp.partSent_last (o q : DrainOp) {out : NumFmt} (h : rowBytesOf o.desc.cols out ≤ o.part + o.partLen out) :
    (o.partSent q out).row = o.row + 1 ∧ (o.partSent q out).part = 0 := by
  simp [DrainOp.partSent, h]

theorem DrainOp.partSent_more (o q : DrainOp) {out : NumFmt} (h : o.part + o.partLen out < rowBytesOf o.desc.cols out) :
    (o.partSent q out).row = o.row ∧ (o.partSent q out).part = o.part + o.partLen out := by
  simp [DrainOp.partSent, Nat.not_le.2 h]

theorem exec_drainRowWrite_sent (hrun : (s.tile t).drainRun = some o) (htask : (s.tile t).task = some k) (hfmt : o.desc.fmt = some out)
    (hrow : o.row < o.desc.rows) (hdest : o.desc.dest = true) {s' : State}
    (hsent : (s.fusedRead t o).issueAt t.val (o.rowAddr + o.part) (s.partPacket t o out k) (.drainRow o.seq) = .sent s') :
    exec (.drainRowWrite t) s = .next (s'.setTile t
      { (s.tapped t o out).1 with drainRun := some (o.partSent (s.tapped t o out).2 out) }) := by
  obtain ⟨crc, n, htapped⟩ := s.tapped_drain t o out
  have hpair : s.tapped t o out = ((s.tapped t o out).1, { o with crc := crc, segBytes := n }) := Prod.ext rfl htapped
  change execDrainRowWrite t s = _
  unfold execDrainRowWrite
  dsimp only
  rw [hrun, htask]
  dsimp only
  rw [hfmt]
  dsimp only
  rw [if_neg (Nat.not_le.2 hrow), hdest]
  have htaps : (if o.part = 0 then tapRow (s.fusedRead t o) t (s.tile t) o out (s.finishRow t o out) else (s.tile t, o)) =
    s.tapped t o out := rfl
  rw [htaps, hpair, if_neg (by decide)]
  change (match (s.fusedRead t o).issueAt t.val (o.rowAddr + o.part) (s.partPacket t o out k) (.drainRow o.seq) with
    | .waits => _ | .sent s' => _ | .ended s' st => _) = _
  rw [hsent]
  rfl

end

end Sys2Proof.Machine

/-! The array and the finishing stage at work (O23), from the events of the two units. -/

namespace Sys2Proof.Machine

/-- Settles O23: each event is the equation of its unit above. The fold of MMA_END is the one that a cell's steps make (log entry
13), and its EARLY after a K of 0 under add is log entry 79's. -/
theorem arrayAndFinishingStageRun : Obligations.ArrayAndFinishingStageRun := by
  unfold Obligations.ArrayAndFinishingStageRun
  refine ⟨fun t s o hrun hqueue => ?mmaStart, fun t s o c hrun hcombo => ?mmaEnd, fun t s o hrun hqueue => ?drainStart,
    fun t s o out k hrun htask hfmt hrow => ?drainRowWrite, fun t s o hrun => ?drainComplete⟩
  case mmaStart =>
    refine ⟨fun hheld => exec_mmaStart_of_held hrun hqueue hheld, fun hfree => ⟨_, exec_mmaStart_of_free hrun hqueue hfree, ?_⟩⟩
    rw [State.tile_setTile_self, State.setTile_mem, State.readRanges_cells]
    exact ⟨rfl, rfl, rfl, fun hclean => congrArg (State.setTile · t _) (State.readRanges_of_clean hclean)⟩
  case mmaEnd =>
    intro adds ke cell
    obtain ⟨u, hexec, h⟩ := exec_mmaEnd_ended hrun hcombo
    have hadds : adds ↔ o.Adds o.k := or_congr_right ⟨fun hlt => ⟨Nat.zero_lt_of_lt hlt, hlt⟩, And.right⟩
    have hcell : ∀ r < 16, ∀ j < 32, cell r j = s.cellAfter t o c o.k (32 * r + j) := fun r hr j hj => by
      have hrow : (32 * r + j) / 32 = r := by omega
      have hcol : (32 * r + j) % 32 = j := by omega
      rw [State.cellAfter, hrow, hcol]
      rfl
    refine ⟨u, hexec, h.mmaRun, ?kind, h.otherKind, fun hidle => h.idle (mt hadds.2 hidle), fun hwork => ?work, h.outside, h.others,
      h.g, h.vq, h.pc⟩
    case kind =>
      rw [h.kind, kindAfter]
      simp [ke]
    case work =>
      obtain ⟨hvalue, hcomp, hmarks, hflags⟩ := h.cells (hadds.1 hwork)
      refine ⟨fun r hr j hj => ?_, fun e he => (hflags e he).trans (or_congr_right (exists_cell_iff.trans ?_))⟩
      · have hi : 32 * r + j < 512 := by omega
        rw [hcell r hr j hj]
        exact ⟨hvalue _ hi, hcomp _ hi, hmarks _ hi⟩
      · exact exists_congr fun r => and_congr_right fun hr => exists_congr fun j => and_congr_right fun hj => by rw [hcell r hr j hj]
  case drainStart =>
    refine ⟨fun hheld => exec_drainStart_of_held hrun hqueue hheld,
      fun hfree hempty => ⟨_, exec_drainStart_of_empty hrun hqueue hfree hempty, ?_⟩,
      fun hfree hrows hcols => ⟨_, exec_drainStart_of_free hrun hqueue hfree hrows hcols, ?_⟩⟩
    · obtain ⟨net, ws, hend⟩ := endDrain_eq t (s.setTile t { s.tile t with drainQueue := none }) o
      rw [hend, State.tile_setTile_self, State.tile_setTile_self]
      exact ⟨rfl, rfl, rfl⟩
    · rw [State.tile_setTile_self, State.setTile_mem, State.readRanges_cells]
      refine ⟨rfl, rfl, rfl, fun hcells hscale => ?_⟩
      exact congrArg (State.setTile · t _) (State.readRanges_of_clean (DrainOp.readRanges_clean hcells hscale))
  case drainRowWrite =>
    intro d row n addr fuse base fused
    refine ⟨fun j hj => ?element, fun hdest hpart => ?stored, fun hdest => ?sent⟩
    case element =>
      rw [State.laneNat_finishRow s t o out hj, State.laneNat_fusedRow]
      rfl
    case stored =>
      obtain ⟨crc, bytes, htapped⟩ := s.tapped_drain t o out
      refine ⟨_, _, exec_drainRowWrite_local hrun htask hfmt hrow hdest, fun i hi => State.memByte_store_inside _ _ _ _ hi, fun b hb => ?_,
        congrArg Tile.drainRun (State.tile_setTile_self ..), by rw [htapped], by rw [htapped], ?_⟩
      · exact (State.memByte_store_outside hb).trans (by rw [State.fusedRead_cells])
      · rw [State.tile_setTile_self]
        obtain ⟨hg, hvq, hpc⟩ := s.tapped_keeps t o out
        refine ⟨hg, hvq, hpc, fun v hv => ?_⟩
        rw [State.tile_setTile_of_ne _ _ hv.symm, (State.sameButMemory_store ..).tile, (s.sameButMemory_fusedRead t o).tile]
    case sent =>
      intro len p s' hsent
      refine ⟨_, _, exec_drainRowWrite_sent hrun htask hfmt hrow hdest hsent, congrArg Tile.drainRun (State.tile_setTile_self ..), rfl, rfl, rfl,
        o.partSent_last _, o.partSent_more _⟩
  case drainComplete =>
    refine ⟨exec_drainComplete_of_open hrun, fun hrows hacked => ⟨_, exec_drainComplete_of_done hrun hrows hacked, ?_⟩⟩
    obtain ⟨net, ws, hend⟩ := endDrain_eq t s o
    rw [hend, State.tile_setTile_self]
    exact ⟨rfl, rfl, rfl⟩

end Sys2Proof.Machine

/-! The host's commands and the device's writes to the host (R395, R397, R503): a changed command is read back, and a write to
the host adds to what the port has sent and changes nothing else. -/

namespace Sys2Proof.Machine

/-! ### Commands read back -/

theorem State.key_of_cmd {s : State} {k : CmdKey} {x : Cmd} (h : s.cmd k = some x) : x.key = k := by
  simpa using List.find?_some h

/-- A change that keeps the names of commands changes the one it names. -/
theorem State.cmd_updCmd (s : State) (k j : CmdKey) {f : Cmd → Cmd} (hf : ∀ c, (f c).key = c.key) :
    (s.updCmd k f).cmd j = (s.cmd j).map (fun c => if c.key = k then f c else c) := by
  have hkey : ∀ c : Cmd, (if c.key = k then f c else c).key = c.key := fun c => by
    split
    · exact hf c
    · rfl
  rw [State.cmd, State.updCmd, List.find?_map]
  simp only [Function.comp_def, hkey]
  rfl

theorem State.cmd_updCmd_self {s : State} {k : CmdKey} {x : Cmd} {f : Cmd → Cmd} (hf : ∀ c, (f c).key = c.key)
    (h : s.cmd k = some x) : (s.updCmd k f).cmd k = some (f x) := by
  rw [State.cmd_updCmd s k k hf, h, Option.map_some, if_pos (State.key_of_cmd h)]

theorem State.cmd_updCmd_of_ne {s : State} {k j : CmdKey} {f : Cmd → Cmd} (hf : ∀ c, (f c).key = c.key) (h : j ≠ k) :
    (s.updCmd k f).cmd j = s.cmd j := by
  rw [State.cmd_updCmd s k j hf]
  cases hj : s.cmd j with
  | none => rfl
  | some x => rw [Option.map_some, if_neg (State.key_of_cmd hj ▸ h)]

/-! ### Writes to the host -/

/-- What the port has sent is all that a write to the host changes. -/
theorem State.hostWrite_eq (s : State) (vi b n v bad : Nat) :
    ∃ out, s.hostWrite vi b n v bad = { s with host := { s.host with out := out } } := by
  unfold State.hostWrite
  generalize hostParts (max (s.vi vi).maxPayload 128) (n + 1) b n = parts
  have hsend : ∀ (u : State) (send : State → Nat × Nat → HostOut), ∃ out,
      parts.foldl (fun (w : State) q => w.toHost (send w q)) u = { u with host := { u.host with out := out } } := by
    intro u send
    induction parts generalizing u with
    | nil => exact ⟨u.host.out, rfl⟩
    | cons q r ih => exact ih _
  exact hsend s fun w q => .write vi q.1 q.2 (bitsAt v (8 * (q.1 - b)) (8 * q.2)) (decide (bitsAt bad (q.1 - b) q.2 ≠ 0))
    (decide (w.host.cxl ≠ 0))

@[simp] theorem State.hostWrite_cmds (s : State) (vi b n v bad : Nat) : (s.hostWrite vi b n v bad).host.cmds = s.host.cmds := by
  obtain ⟨out, h⟩ := s.hostWrite_eq vi b n v bad
  rw [h]

@[simp] theorem State.hostWrite_linkState (s : State) (vi b n v bad : Nat) :
    (s.hostWrite vi b n v bad).host.linkState = s.host.linkState := by
  obtain ⟨out, h⟩ := s.hostWrite_eq vi b n v bad
  rw [h]

@[simp] theorem State.hostWrite_vi (s : State) (vi b n v bad u : Nat) : (s.hostWrite vi b n v bad).vi u = s.vi u := by
  obtain ⟨out, h⟩ := s.hostWrite_eq vi b n v bad
  rw [h]
  rfl

@[simp] theorem State.hostWrite_translated (s : State) (vi b n v bad u a : Nat) :
    (s.hostWrite vi b n v bad).translated u a = s.translated u a := by
  obtain ⟨out, h⟩ := s.hostWrite_eq vi b n v bad
  rw [h]
  rfl

@[simp] theorem State.updCmd_linkState (s : State) (k : CmdKey) (f : Cmd → Cmd) : (s.updCmd k f).host.linkState = s.host.linkState := rfl

@[simp] theorem State.updCmd_vi (s : State) (k : CmdKey) (f : Cmd → Cmd) (u : Nat) : (s.updCmd k f).vi u = s.vi u := rfl

@[simp] theorem State.updCmd_translated (s : State) (k : CmdKey) (f : Cmd → Cmd) (u a : Nat) :
    (s.updCmd k f).translated u a = s.translated u a := rfl

/-- A write of the device into the host region, with the link up and the function a bus master (R397). -/
theorem State.deviceWrite_of_host {s : State} {src tag vi part a n v : Nat} (hlo : hostBase ≤ a) (hhi : a + n ≤ hostEnd)
    (hlink : s.host.linkState = 2) (hmaster : (s.vi vi).busMaster = true) : s.deviceWrite src tag vi part a n v =
      (.ok, s.hostWrite vi ((s.translated vi (a - hostBase)).getD (a - hostBase)) n v 0) := by
  unfold State.deviceWrite
  rw [if_pos hlo, if_neg (Nat.not_lt.2 hhi), if_neg (not_not.2 hlink), if_pos hmaster]

@[simp] theorem State.setVi_cmds (s : State) (v : Nat) (y : Vi) : (s.setVi v y).host.cmds = s.host.cmds := rfl

end Sys2Proof.Machine

/-! The latches of a command, its record and its completion entry (R209, R210, R395): the three commands of the port, each where
it is due. -/

namespace Sys2Proof.Machine

/-! ### LATCH_START -/

/-- The clusters in which tasks of other commands than `k` are dispatched. -/
def State.clustersOfOthers (s : State) (k : CmdKey) : List Nat :=
  (List.range 8).filter (fun c => (s.seq c).queues.any (fun q => q.2.any (fun t => t.phase = .dispatched && t.cmd ≠ k)))

/-- Command `k` as its start latch leaves it (R209, R210). -/
def State.latched (s : State) (k : CmdKey) (x : Cmd) : Cmd :=
  { x with start := some s.latch, shared := (s.clustersOfOthers k).foldl (fun m c => m ||| (1#8 <<< c)) x.shared }

theorem exec_latchStart_of_due {v : ViId} {r : RingId} {seq : Nat} {s : State} {x : Cmd} (hcmd : s.cmd ⟨v.val, r.val, seq⟩ = some x)
    (hreset : (s.vi v.val).resetting = none) (hstart : x.start = none) (hrefused : x.refused = false) :
    exec (.latchStart v r seq) s = .next (s.updCmd ⟨v.val, r.val, seq⟩ (s.latched ⟨v.val, r.val, seq⟩)) := by
  change execLatchStart v r seq s = _
  unfold execLatchStart
  dsimp only
  rw [hcmd]
  exact if_neg (by simp [hstart, hrefused, hreset])

/-- A mask to which the bits of a list of numbers were added. -/
theorem getLsbD_foldl_or (l : List Nat) (m : BitVec 8) {i : Nat} (hi : i < 8) :
    (l.foldl (fun m c => m ||| (1#8 <<< c)) m).getLsbD i = (m.getLsbD i || l.contains i) := by
  induction l generalizing m with
  | nil => simp
  | cons c r ih =>
    have hbit : (1#8 <<< c).getLsbD i = decide (i = c) := by
      rw [← BitVec.twoPow_eq, BitVec.getLsbD_twoPow]
      by_cases hc : c = i <;> simp [hc, hi, Ne.symm]
    rw [List.foldl_cons, ih, BitVec.getLsbD_or, hbit, List.contains_cons, Bool.or_assoc]
    rfl

theorem State.latched_shared (s : State) (k : CmdKey) (x : Cmd) {c : Nat} (hc : c < 8) : (s.latched k x).shared.getLsbD c =
    (x.shared.getLsbD c || (s.seq c).queues.any (fun q => q.2.any (fun t => decide (t.phase = .dispatched) && decide (t.cmd ≠ k)))) := by
  refine (getLsbD_foldl_or _ _ hc).trans (congrArg _ ?_)
  rw [Bool.eq_iff_iff, List.contains_iff_mem, State.clustersOfOthers, List.mem_filter, List.mem_range]
  exact and_iff_right hc

/-! ### LATCH_END -/

/-- The marks of commands play no part in a record (R210). -/
theorem State.record_updCmd (s : State) (k : CmdKey) (f : Cmd → Cmd) : (s.updCmd k f).record = s.record := rfl

theorem State.latch_updCmd (s : State) (k : CmdKey) (f : Cmd → Cmd) : (s.updCmd k f).latch = s.latch := rfl

/-- The address of a command's record; 0 where it has none (R390). -/
def Cmd.recordAt (x : Cmd) : Nat := entryW x.entry 1 % 2 ^ 48

section
variable {v : ViId} {r : RingId} {seq : Nat} {s : State} {x : Cmd} {a : Latch}

section
variable (hcmd : s.cmd ⟨v.val, r.val, seq⟩ = some x) (hreset : (s.vi v.val).resetting = none)
  (hstart : x.start = some a) (hphase : x.phase = .ended)
include hcmd hreset hstart hphase

theorem exec_latchEnd_of_noRecord (haddr : x.recordAt = 0) :
    exec (.latchEnd v r seq) s = .next (s.updCmd ⟨v.val, r.val, seq⟩ (fun y => { y with phase := .recorded })) := by
  change execLatchEnd v r seq s = _
  have hat : bitsAt (entryW x.entry 1) 0 48 = 0 := haddr
  simp [execLatchEnd, hcmd, hstart, hphase, hreset, hat]

theorem exec_latchEnd_of_record (hlo : hostBase ≤ x.recordAt) (hlink : s.host.linkState = 2)
    (hmaster : (s.vi v.val).busMaster = true) :
    let put := fun (w : State) (a n d : Nat) => w.hostWrite v.val ((s.translated v.val (a - hostBase)).getD (a - hostBase)) n d 0
    let u := s.updCmd ⟨v.val, r.val, seq⟩ (fun y => { y with phase := .recorded })
    (x.block.elements = 0 → x.recordAt + 0x100 ≤ hostEnd →
      exec (.latchEnd v r seq) s = .next (put u x.recordAt 0x100 (ofLanes 64 (s.record x a s.latch 0)))) ∧
    (0 < x.block.elements → x.recordAt + 0x180 ≤ hostEnd → exec (.latchEnd v r seq) s = .next
      (put (put u x.recordAt 0x100 (ofLanes 64 (s.record x a s.latch (x.recordAt + 0x100)))) (x.recordAt + 0x100) 128
        (ofLanes 64 x.block.words))) := by
  intro put u
  have haddr : x.recordAt ≠ 0 := fun h => by simp [h, hostBase] at hlo
  have hreset' : (s.vi v.val).resetting.isSome = false := by rw [hreset]; rfl
  have hat : bitsAt (entryW x.entry 1) 0 48 = x.recordAt := rfl
  have hbehind : hostBase ≤ x.recordAt + 0x100 := Nat.le_add_right_of_le hlo
  change (_ → _ → execLatchEnd v r seq s = _) ∧ (_ → _ → execLatchEnd v r seq s = _)
  refine ⟨fun hnone hhi => ?_, fun hsome hhi => ?_⟩
  · simp [execLatchEnd, hcmd, hstart, hphase, hreset', hat, haddr, hnone, State.record_updCmd, State.latch_updCmd,
      State.deviceWrite_of_host hlo hhi, hlink, hmaster, put, u]
  · have hhi' : x.recordAt + 0x100 ≤ hostEnd := Nat.le_trans (by omega) hhi
    have hend : x.recordAt + 0x100 + 128 ≤ hostEnd := hhi
    simp [execLatchEnd, hcmd, hstart, hphase, hreset', hat, haddr, hsome, State.record_updCmd, State.latch_updCmd,
      State.deviceWrite_of_host hlo hhi', State.deviceWrite_of_host hbehind hend, hlink, hmaster, put, u]

end
end

/-! ### COMPLETION_WRITE -/

/-- The completion entry of a command (R395): `y` is its VI as the entry is written. -/
def Cmd.completion (x : Cmd) (y : Vi) (r : RingId) (seq cal : Nat) : Nat :=
  ofLanes 64 [bitsAt (entryW x.entry 0) 32 32 + (if y.cqTail / y.cqSize % 2 = 0 then 2 ^ 37 else 0) + r.val * 2 ^ 38
    + (Status.code x.status) * 2 ^ 40 + entryOp x.entry * 2 ^ 48, seq % 2 ^ 32, x.result, cal]

theorem Status.code_lt (st : Status) : Status.code st < 2 ^ 8 := by cases st <;> decide

theorem Cmd.completion_fields (x : Cmd) (y : Vi) (r : RingId) (seq cal : Nat) :
    let d := x.completion y r seq cal
    d % 2 ^ 32 = entryW x.entry 0 / 2 ^ 32 % 2 ^ 32 ∧ d / 2 ^ 37 % 2 = (if y.cqTail / y.cqSize % 2 = 0 then 1 else 0) ∧
      d / 2 ^ 38 % 4 = r.val ∧ d / 2 ^ 40 % 2 ^ 8 = Status.code x.status ∧ d / 2 ^ 48 % 2 ^ 16 = entryOp x.entry ∧
      d / 2 ^ 64 % 2 ^ 64 = seq % 2 ^ 32 ∧ d / 2 ^ 128 % 2 ^ 64 = x.result % 2 ^ 64 ∧ d / 2 ^ 192 = cal % 2 ^ 64 := by
  intro d
  have hop : entryOp x.entry < 2 ^ 8 := Nat.mod_lt _ (Nat.two_pow_pos 8)
  have hst := Status.code_lt x.status
  have hr := r.isLt
  have hlane : ∀ i, d / 2 ^ (64 * i) % 2 ^ 64 = _ % 2 ^ 64 := fun i =>
    (congrArg (· % 2 ^ 64) (Nat.shiftRight_eq_div_pow d (64 * i))).symm.trans (laneNat_ofLanes 64 _ i)
  have hphase : (if y.cqTail / y.cqSize % 2 = 0 then 2 ^ 37 else 0) = (if y.cqTail / y.cqSize % 2 = 0 then 1 else 0) * 2 ^ 37 := by
    split <;> rfl
  have hbit : (if y.cqTail / y.cqSize % 2 = 0 then 1 else 0) < 2 := by split <;> decide
  have hlow := hlane 0
  simp only [Nat.mul_zero, Nat.pow_zero, Nat.div_one, List.getD_cons_zero, bitsAt, Nat.shiftRight_eq_div_pow, hphase] at hlow
  generalize (if y.cqTail / y.cqSize % 2 = 0 then 1 else 0) = phase at hlow hbit ⊢
  have hseq : d / 2 ^ 64 % 2 ^ 64 = seq % 2 ^ 32 := (hlane 1).trans (Nat.mod_eq_of_lt (by simp; omega))
  have hcal : d / 2 ^ 192 = cal % 2 ^ 64 := by
    have hlt : d / 2 ^ 192 < 2 ^ 64 := Nat.div_lt_of_lt_mul ((ofLanes_lt 64 _).trans_eq (by rw [← Nat.pow_add]; rfl))
    exact (Nat.mod_eq_of_lt hlt).symm.trans (hlane 3)
  refine ⟨?_, ?_, ?_, ?_, ?_, hseq, hlane 2, hcal⟩
  all_goals omega

section
variable {v : ViId} {r : RingId} {seq : Nat} {s : State} {x : Cmd}

theorem exec_completionWrite_of_due (hcmd : s.cmd ⟨v.val, r.val, seq⟩ = some x) (hreset : (s.vi v.val).resetting = none)
    (hphase : x.phase = .recorded) (hfirst : ∀ y ∈ s.host.cmds, y.key.vi = v.val → y.phase = .recorded → x.tEnd ≤ y.tEnd)
    (henable : (s.vi v.val).cqEnable = true) (hmaster : (s.vi v.val).busMaster = true) (hlink : s.host.linkState = 2)
    (hlo : hostBase ≤ (s.vi v.val).cqBase + 32 * ((s.vi v.val).cqTail % (s.vi v.val).cqSize))
    (hhi : (s.vi v.val).cqBase + 32 * ((s.vi v.val).cqTail % (s.vi v.val).cqSize) + 32 ≤ hostEnd)
    (hroom : ((s.vi v.val).cqTail + 2 ^ 32 - (s.vi v.val).cqHead) % 2 ^ 32 ≠ (s.vi v.val).cqSize) :
    let y := s.vi v.val
    let a := y.cqBase + 32 * (y.cqTail % y.cqSize)
    let vec := entryW x.entry 0 / 2 ^ 16 % 32
    let sent := (s.hostWrite v.val ((s.translated v.val (a - hostBase)).getD (a - hostBase)) 32 (x.completion y r seq s.calends) 0).setVi
      v.val { y with cqTail := (y.cqTail + 1) % 2 ^ 32 }
    let u : State := { sent with host := { sent.host with cmds := s.host.cmds.filter (fun c => c.key ≠ ⟨v.val, r.val, seq⟩) } }
    exec (.completionWrite v r seq) s =
      .next (if (entryW x.entry 0).testBit 8 ∧ vec ≤ 30 then u.raiseVector v.val vec else u) := by
  intro y a vec sent u
  have hvec : bitsAt (entryW x.entry 0) 16 5 = vec := congrArg (· % 32) (Nat.shiftRight_eq_div_pow _ 16)
  change execCompletionWrite v r seq s = _
  unfold execCompletionWrite
  dsimp only
  rw [hcmd]
  dsimp only
  rw [if_neg (by simpa [hphase, henable, hreset] using ⟨hfirst, hroom⟩), State.deviceWrite_of_host hlo hhi hlink hmaster, hvec]
  simp only [State.hostWrite_vi, State.setVi_cmds, State.hostWrite_cmds]
  split <;> rfl

end

/-- Settles O32: each of the three commands makes one change of the list of commands, and writes to the host what its entry
asks for. -/
theorem commandsAreLatchedAndCompleted : Obligations.CommandsAreLatchedAndCompleted := by
  unfold Obligations.CommandsAreLatchedAndCompleted
  intro v r seq s x hcmd hreset put
  refine ⟨fun hstart hrefused => ?start, fun a hstart hphase => ?ended, fun hphase hfirst => ?done⟩
  case start =>
    refine ⟨_, _, exec_latchStart_of_due hcmd hreset hstart hrefused, State.cmd_updCmd_self (fun _ => rfl) hcmd, rfl,
      fun k hk => State.cmd_updCmd_of_ne (fun _ => rfl) hk, rfl, fun c hc => State.latched_shared s _ x hc⟩
  case ended =>
    exact ⟨exec_latchEnd_of_noRecord hcmd hreset hstart hphase,
      fun hlo hlink hmaster => exec_latchEnd_of_record hcmd hreset hstart hphase hlo hlink hmaster⟩
  case done =>
    intro y a vec henable hmaster hlink hlo hhi hroom
    exact ⟨_, exec_completionWrite_of_due hcmd hreset hphase hfirst henable hmaster hlink hlo hhi hroom, x.completion_fields y r seq s.calends⟩

end Sys2Proof.Machine

/-! What the end of a task leaves as it was (R199, R205, R206): a frame of tiles, sequencers and the cycle for the operations that
change neither, and the tasks of the queues, of which an end takes some away and adds none. -/

namespace Sys2Proof.Machine

/-! ### Queues -/

theorem State.queue_setQueue_self (s : State) (c q : Nat) (l : List Task) : (s.setQueue c q l).queue c q = l := by
  rw [State.queue, State.setQueue, State.seq_setSeq_self, Sparse.get_set_self]

/-- Every queue but the one replaced, and every queue where a sequencer keeps its queues. -/
theorem State.queue_setSeq_of_ne (s : State) {c d q : Nat} {x : Sequencer}
    (h : c = d → Sparse.get [] x.queues q = Sparse.get [] (s.seq d).queues q) : (s.setSeq c x).queue d q = s.queue d q := by
  rw [State.queue]
  by_cases hcd : c = d
  · subst hcd
    rw [State.seq_setSeq_self, h rfl]
    rfl
  · rw [State.seq_setSeq_of_ne _ _ hcd]
    rfl

theorem State.queue_setQueue_of_ne (s : State) {c q d r : Nat} (l : List Task) (h : ¬ (c = d ∧ q = r)) :
    (s.setQueue c q l).queue d r = s.queue d r :=
  State.queue_setSeq_of_ne s fun hcd => by
    subst hcd
    exact Sparse.get_set_of_ne _ _ _ fun hqr => h ⟨rfl, hqr⟩

/-- A queue replaced changes nothing else of its sequencer. -/
theorem State.seq_setQueue_self (s : State) (c q : Nat) (l : List Task) :
    (s.setQueue c q l).seq c = { s.seq c with queues := Sparse.set [] (s.seq c).queues q l } :=
  State.seq_setSeq_self ..

theorem State.task_eq_none_iff {s : State} {c q slot : Nat} : s.task c q slot = none ↔ ∀ t ∈ s.queue c q, t.slot ≠ slot := by
  simp [State.task, List.find?_eq_none]

theorem State.slot_of_task {s : State} {c q slot : Nat} {t : Task} (h : s.task c q slot = some t) : t.slot = slot := by
  simpa using List.find?_some h

/-! ### Operations that change no tile and no sequencer -/

/-- The same tiles, sequencers and cycle. -/
structure State.SameUnits (s u : State) : Prop where
  tiles : u.tiles = s.tiles
  seqs : u.seqs = s.seqs
  calends : u.calends = s.calends

theorem State.SameUnits.refl (s : State) : s.SameUnits s := ⟨rfl, rfl, rfl⟩

theorem State.SameUnits.trans {s u v : State} (h : s.SameUnits u) (k : u.SameUnits v) : s.SameUnits v :=
  ⟨k.tiles.trans h.tiles, k.seqs.trans h.seqs, k.calends.trans h.calends⟩

theorem State.SameUnits.tile {s u : State} (h : s.SameUnits u) (t : TileId) : u.tile t = s.tile t := by
  rw [State.tile, State.tile, h.tiles]

theorem State.SameUnits.seq {s u : State} (h : s.SameUnits u) (c : Nat) : u.seq c = s.seq c := by
  rw [State.seq, State.seq, h.seqs]

theorem State.SameUnits.queue {s u : State} (h : s.SameUnits u) (c q : Nat) : u.queue c q = s.queue c q := by
  rw [State.queue, State.queue, h.seq]

theorem State.SameButMemory.sameUnits {s u : State} (h : s.SameButMemory u) : s.SameUnits u :=
  ⟨h.tiles, (congrArg State.seqs (show u.withMemoryOf s = s from h) :), h.calends⟩

theorem State.sameUnits_updCmd (s : State) (k : CmdKey) (f : Cmd → Cmd) : s.SameUnits (s.updCmd k f) := ⟨rfl, rfl, rfl⟩

theorem State.sameUnits_svcEvent (s : State) (node code payload : Nat) : s.SameUnits (s.svcEvent node code payload) := ⟨rfl, rfl, rfl⟩

theorem State.sameUnits_lightBump (s : State) (c w n : Nat) : s.SameUnits (s.lightBump c w n) := ⟨rfl, rfl, rfl⟩

theorem State.sameUnits_setCtx (s : State) (p ch : Nat) (x : LaceCtx) : s.SameUnits (s.setCtx p ch x) := ⟨rfl, rfl, rfl⟩

theorem State.sameUnits_putSession (s : State) (sid : Nat) (x : Session) : s.SameUnits (s.putSession sid x) :=
  .trans (u := { s with shelf := { s.shelf with sessions := Sparse.set {} s.shelf.sessions sid x } }) ⟨rfl, rfl, rfl⟩
    (State.sameButMemory_store ..).sameUnits

theorem State.sameUnits_tellFailure (s : State) (sid l : Nat) : s.SameUnits (s.tellFailure sid l).2 := by
  unfold State.tellFailure
  dsimp only
  split
  · exact s.sameUnits_putSession sid _
  · exact .refl s

theorem State.sameUnits_releasePage (s : State) (part vi : Nat) (p : Page) : s.SameUnits (s.releasePage part vi p) := by
  unfold State.releasePage
  split <;> exact ⟨rfl, rfl, rfl⟩

theorem State.sameUnits_taskLeft (s : State) (c : Nat) (k : CmdKey) (pos : Nat) : s.SameUnits (s.taskLeft c k pos) :=
  .trans (u := { s with shelf := { s.shelf with retired :=
      (s.shelf.retired.map (fun r => { r with tasks := r.tasks.erase (c, k, pos) })).filter (fun r => !r.tasks.isEmpty) } }) ⟨rfl, rfl, rfl⟩
    (foldl_related (f := fun (w : State) (r : Retired) => w.releasePage r.part r.vi r.page) .refl .trans
      (fun w r => w.sameUnits_releasePage r.part r.vi r.page) _ _)

theorem State.sameUnits_runOver (s : State) (e n : Nat) : s.SameUnits (s.runOver e n) := by
  unfold State.runOver
  split
  · exact .refl s
  · dsimp only
    split
    · exact .refl s
    · exact s.sameUnits_putSession _ _

theorem State.sameUnits_finishRun (s : State) (k : CmdKey) : s.SameUnits (s.finishRun k) := by
  unfold State.finishRun
  split
  · exact .refl s
  · dsimp only
    split
    · exact (s.sameUnits_updCmd k _).trans (State.sameUnits_runOver ..)
    · exact .refl s

theorem State.sameUnits_withdraw (s : State) (t : Nat) : s.SameUnits (s.withdraw t) := by
  unfold State.withdraw
  split
  · exact .refl s
  · refine foldl_related .refl .trans (fun w ch => ?_) _ s
    dsimp only
    split <;> exact w.sameUnits_setCtx ..

/-! ### A task leaves its queue -/

/-- What remains of a task's end once its queue is without it, up to the watchdog's restart. -/
theorem State.taskOut_eq (s : State) (c q : Nat) (t : Task) (e : TaskEnd) :
    ∃ w, (s.setQueue c q ((s.queue c q).filter (fun x => x.slot ≠ t.slot))).SameUnits w ∧
      s.taskOut c q t e = if t.phase = .dispatched then w.restartWatchdog c else w :=
  ⟨_, (((State.sameUnits_svcEvent _ _ _ _).trans (State.sameUnits_lightBump _ _ _ _)).trans (State.sameUnits_updCmd _ _ _)).trans
    (State.sameUnits_taskLeft _ _ _ _), rfl⟩

theorem State.queue_restartWatchdog (s : State) (c d q : Nat) : (s.restartWatchdog c).queue d q = s.queue d q :=
  State.queue_setSeq_of_ne s fun hcd => by rw [← hcd]

section
variable (s : State) (c q : Nat) (t : Task) (e : TaskEnd)

theorem State.taskOut_tiles : (s.taskOut c q t e).tiles = s.tiles := by
  obtain ⟨w, hw, hout⟩ := s.taskOut_eq c q t e
  rw [hout]
  split <;> exact hw.tiles

theorem State.taskOut_calends : (s.taskOut c q t e).calends = s.calends := by
  obtain ⟨w, hw, hout⟩ := s.taskOut_eq c q t e
  rw [hout]
  split <;> exact hw.calends

theorem State.queue_taskOut (d r : Nat) : (s.taskOut c q t e).queue d r =
    (s.setQueue c q ((s.queue c q).filter (fun x => x.slot ≠ t.slot))).queue d r := by
  obtain ⟨w, hw, hout⟩ := s.taskOut_eq c q t e
  rw [hout]
  split
  · rw [State.queue_restartWatchdog, hw.queue]
  · exact hw.queue d r

theorem State.taskOut_tallies : ((s.taskOut c q t e).seq c).tallies = (s.seq c).tallies := by
  obtain ⟨w, hw, hout⟩ := s.taskOut_eq c q t e
  have hkept : (w.seq c).tallies = (s.seq c).tallies := by rw [hw.seq, State.seq_setQueue_self]
  rw [hout]
  split
  · rw [State.restartWatchdog, State.seq_setSeq_self, hkept]
  · exact hkept

theorem State.task_taskOut_self : (s.taskOut c q t e).task c q t.slot = none := by
  rw [State.task_eq_none_iff, State.queue_taskOut, State.queue_setQueue_self]
  exact fun x hx => by simpa using (List.mem_filter.1 hx).2

end

/-! ### Ends of tasks that bring no task -/

/-- Every task of a queue stood in it before, and no cycle has passed. -/
structure State.NoNewTasks (s u : State) : Prop where
  calends : u.calends = s.calends
  tasks : ∀ c q, ∀ t ∈ u.queue c q, t ∈ s.queue c q

theorem State.NoNewTasks.refl (s : State) : s.NoNewTasks s := ⟨rfl, fun _ _ _ h => h⟩

theorem State.NoNewTasks.trans {s u v : State} (h : s.NoNewTasks u) (k : u.NoNewTasks v) : s.NoNewTasks v :=
  ⟨k.calends.trans h.calends, fun c q t ht => h.tasks c q t (k.tasks c q t ht)⟩

theorem State.NoNewTasks.foldl {α : Type} {s u : State} {f : State → α → State} (h : s.NoNewTasks u)
    (hf : ∀ (w : State) e, w.NoNewTasks (f w e)) (l : List α) : s.NoNewTasks (l.foldl f u) :=
  h.trans (foldl_related .refl .trans hf l u)

theorem State.SameUnits.noNewTasks {s u : State} (h : s.SameUnits u) : s.NoNewTasks u :=
  ⟨h.calends, fun c q _ ht => h.queue c q ▸ ht⟩

theorem State.NoNewTasks.task_eq_none {s u : State} (h : s.NoNewTasks u) {c q slot : Nat} (hs : s.task c q slot = none) :
    u.task c q slot = none :=
  State.task_eq_none_iff.2 fun t ht => State.task_eq_none_iff.1 hs t (h.tasks c q t ht)

theorem State.noNewTasks_taskOut (s : State) (c q : Nat) (t : Task) (e : TaskEnd) : s.NoNewTasks (s.taskOut c q t e) := by
  refine ⟨s.taskOut_calends c q t e, fun d r x hx => ?_⟩
  rw [State.queue_taskOut] at hx
  by_cases hq : c = d ∧ q = r
  · obtain ⟨rfl, rfl⟩ := hq
    rw [State.queue_setQueue_self] at hx
    exact List.mem_of_mem_filter hx
  · rwa [State.queue_setQueue_of_ne _ _ hq] at hx

theorem State.stopTile_eq (s : State) (t : TileId) (st : Status) (id : Nat) : ∃ x ws, s.stopTile t st id =
    (((s.setTile t x).zero (tileAddr t.val 0x18000) 0x2000).setSeq (clusterOfTile t.val)
      { s.seq (clusterOfTile t.val) with watches := ws }).withdraw t.val :=
  ⟨_, _, rfl⟩

theorem State.noNewTasks_stopTile (s : State) (t : TileId) (st : Status) (id : Nat) : s.NoNewTasks (s.stopTile t st id) := by
  obtain ⟨x, ws, h⟩ := s.stopTile_eq t st id
  rw [h]
  refine .trans ?_ (State.sameUnits_withdraw _ t.val).noNewTasks
  refine ⟨rfl, fun c q y hy => ?_⟩
  rwa [State.queue_setSeq_of_ne _ fun hc => by rw [← hc]; rfl] at hy

theorem State.noNewTasks_stopTiles (s : State) (ts : List Nat) (st : Status) (id : Nat) : s.NoNewTasks (s.stopTiles ts st id) := by
  unfold State.stopTiles
  refine foldl_related .refl .trans (fun w t => ?_) ts s
  split
  · exact w.noNewTasks_stopTile _ st id
  · exact .refl w

theorem State.noNewTasks_cancelTask (s : State) (c q : Nat) (t : Task) : s.NoNewTasks (s.cancelTask c q t) := by
  unfold State.cancelTask
  split
  · exact (s.noNewTasks_stopTiles _ _ _).trans (State.noNewTasks_taskOut ..)
  · exact s.noNewTasks_taskOut c q t .cancelled

theorem State.noNewTasks_cancelRun (s : State) (k : CmdKey) : s.NoNewTasks (s.cancelRun k) := by
  unfold State.cancelRun
  dsimp only
  refine .trans ?_ (State.sameUnits_finishRun _ k).noNewTasks
  refine .foldl (s.sameUnits_updCmd k _).noNewTasks (fun w c => ?_) _
  exact .foldl (.refl w) (fun w q => .foldl (.refl w) (fun w t => w.noNewTasks_cancelTask c q t) _) _

theorem State.noNewTasks_failRun (s : State) (k : CmdKey) (at_ pos : Nat) (st : Status) : s.NoNewTasks (s.failRun k at_ pos st) :=
  (s.sameUnits_updCmd k _).noNewTasks.trans (State.noNewTasks_cancelRun _ k)

/-- A task that fails leaves its slot free (R205, R206). -/
theorem State.task_failTask_self (s : State) (c q : Nat) (t : Task) (st : Status) (skip : List Nat) :
    (s.failTask c q t st skip).task c q t.slot = none :=
  (State.noNewTasks_failRun _ t.cmd (c + 1) t.pos st).task_eq_none (State.task_taskOut_self ..)

theorem State.noNewTasks_failTask (s : State) (c q : Nat) (t : Task) (st : Status) (skip : List Nat) :
    s.NoNewTasks (s.failTask c q t st skip) := by
  unfold State.failTask
  refine .trans ?_ ((State.noNewTasks_taskOut ..).trans (State.noNewTasks_failRun ..))
  split
  · exact s.noNewTasks_stopTiles _ _ _
  · exact .refl s

end Sys2Proof.Machine

/-! Tasks on their way to a dispatch (R192, R194, R199, R202), and the duty of the clusters (R207). -/

namespace Sys2Proof.Machine

/-! ### READY -/

theorem State.epochReached_setTask (s : State) (c q : Nat) (t : Task) (e : Nat) :
    (s.setTask c q t).epochReached c e = s.epochReached c e := by
  rw [State.epochReached, State.epochReached, State.setTask, State.seq_setQueue_self]

/-- A task as it becomes READY in cluster `c` (R199, R202). -/
def State.readied (s : State) (c : Nat) (t : Task) : Task :=
  { t with phase := .ready, readyAt := s.calends, epochWait := s.objIn c (0x4013 + 0x100 * c) 2 100000 }

theorem State.makeReady_of_open {s : State} {c q : Nat} {t : Task} (h : s.objIn c (0x4013 + 0x100 * c) 2 100000 ≠ 0 ∨
    s.epochReached c (((s.cmd t.cmd).map (·.entry)).getD 0) = true) : s.makeReady c q t = s.setTask c q (s.readied c t) := by
  refine if_neg fun hclosed => ?_
  rw [State.epochReached_setTask, Bool.not_eq_true', Bool.eq_false_iff] at hclosed
  exact h.elim (· hclosed.1) hclosed.2

theorem State.waitsMet_iff {s : State} {c d : Nat} : s.waitsMet c d = true ↔
    ∀ w ∈ taskWaits d, reaches (Sparse.get 0 (s.seq c).tallies w.1) (BitVec.ofNat 32 w.2) = true :=
  List.all_eq_true

section
variable {c : ClusterId} {q : Fin 16} {slot : Fin 64} {s : State} {t : Task}

theorem exec_taskReady_of_met (htask : s.task c.val q.val slot.val = some t) (hphase : t.phase = .pending)
    (hmet : s.waitsMet c.val t.desc = true) : exec (.taskReady c q slot) s = .next (s.makeReady c.val q.val t) := by
  change execTaskReady c q slot s = _
  unfold execTaskReady
  rw [htask]
  exact if_pos ⟨hphase, hmet⟩

theorem exec_epochWaitTimeout_of_due {x : Cmd} (htask : s.task c.val q.val slot.val = some t) (hphase : t.phase = .ready)
    (hcmd : s.cmd t.cmd = some x) (hepoch : s.epochReached c.val x.entry = false) :
    exec (.epochWaitTimeout c q slot) s = .next (s.failTask c.val q.val t .epochWaitTimeout []) := by
  change execEpochWaitTimeout c q slot s = _
  unfold execEpochWaitTimeout
  rw [htask]
  dsimp only
  rw [hcmd, Option.map_some, Option.getD_some, hepoch]
  exact if_pos ⟨hphase, rfl⟩

end

/-! ### TASK_FETCH -/

/-- The lowest slot that no task of a queue holds (R192). -/
theorem find_freeSlot {l : List Task} {slot : Nat} (hlt : slot < 64) (hfree : ∀ t ∈ l, t.slot ≠ slot)
    (hheld : ∀ k < slot, ∃ t ∈ l, t.slot = k) :
    (List.range 64).find? (fun i => !(l.any (fun t => t.slot = i))) = some slot := by
  rw [List.find?_range_eq_some]
  refine ⟨?_, List.mem_range.2 hlt, fun k hk => ?_⟩
  · simpa using hfree
  · simpa using hheld k hk

/-- The status of a task's fetch: its read's, then that of poisoned data, then that of the checks of R194. -/
def State.fetchStatus (s : State) (c vi : Nat) (sid : Option Nat) (r : DeviceRead) : Status :=
  if r.st ≠ .ok then r.st else if r.poison ≠ 0 then .eccUncorrected else s.checkTask c vi sid r.val

theorem State.fetchStatus_of_clean {s : State} {c vi : Nat} {sid : Option Nat} {r : DeviceRead} (hread : r.st = .ok)
    (hclean : r.poison = 0) : s.fetchStatus c vi sid r = s.checkTask c vi sid r.val := by
  rw [State.fetchStatus, if_neg (not_not.2 hread), if_neg (not_not.2 hclean)]

theorem State.fetchStatus_of_failed {s : State} {c vi : Nat} {sid : Option Nat} {r : DeviceRead} {st : Status} (hst : st ≠ .ok)
    (h : r.st = st ∨ (r.st = .ok ∧ r.poison ≠ 0 ∧ st = .eccUncorrected) ∨
      (r.st = .ok ∧ r.poison = 0 ∧ s.checkTask c vi sid r.val = st)) : s.fetchStatus c vi sid r = st := by
  rcases h with rfl | ⟨hread, hpoison, rfl⟩ | ⟨hread, hclean, hcheck⟩
  · exact if_pos hst
  · rw [State.fetchStatus, if_neg (not_not.2 hread), if_pos hpoison]
  · rw [State.fetchStatus_of_clean hread hclean, hcheck]

section
variable (c : ClusterId) (q : Fin 16) (host : HostData) (s : State) (x : Cmd) (a pos slot : Nat)

/-- The read of a task's descriptor. -/
def State.fetchRead : DeviceRead := s.deviceRead (seqNode c.val) 0 x.key.vi x.part a 256 host

/-- After the read the RUN has one item less and one live task more. -/
def State.fetchCounted : State :=
  (s.fetchRead c host x a).s.updCmd x.key (fun y => { y with items := y.items.erase (c.val, a, pos), live := y.live + 1 })

/-- The task that was read. -/
def State.fetchedTask : Task := { slot := slot, desc := (s.fetchRead c host x a).val, cmd := x.key, pos := pos, phase := .pending }

/-- The task stands in its slot, behind the others of its queue. -/
def State.fetched : State :=
  (s.fetchCounted c host x a pos).setQueue c.val q.val (s.queue c.val q.val ++ [s.fetchedTask c host x a pos slot])

variable {c q host s x a pos slot}

theorem exec_taskFetch_of_item {st : Status} (hitem : s.nextItem c.val q.val = some (x, a, pos)) (hlt : slot < 64)
    (hfree : ∀ t ∈ s.queue c.val q.val, t.slot ≠ slot) (hheld : ∀ k < slot, ∃ t ∈ s.queue c.val q.val, t.slot = k)
    (hstatus : (s.fetchCounted c host x a pos).fetchStatus c.val x.key.vi (runSession x.entry) (s.fetchRead c host x a) = st) :
    exec (.taskFetch c q host) s =
      if st ≠ .ok then .next ((s.fetched c q host x a pos slot).failTask c.val q.val (s.fetchedTask c host x a pos slot) st [])
      else if taskNwait (s.fetchRead c host x a).val = 0 then
        .next ((s.fetched c q host x a pos slot).makeReady c.val q.val (s.fetchedTask c host x a pos slot))
      else .next (s.fetched c q host x a pos slot) := by
  change execTaskFetch c q host s = _
  unfold execTaskFetch
  dsimp only
  rw [hitem, find_freeSlot hlt hfree hheld, ← hstatus]
  rfl

end

/-! ### DUTY_SLOT -/

/-- The duty of cluster `c` comes into force for its slot (R207). -/
def State.takeDuty (s : State) (c : Nat) : State :=
  if s.dutyOf c = (s.seq c).duty then s
  else (s.setSeq c { s.seq c with duty := s.dutyOf c }).svcEvent (seqNode c) 0x14 (s.dutyOf c)

theorem exec_dutySlot (s : State) : exec .dutySlot s = .next ((List.range 8).foldl State.takeDuty s) := rfl

theorem State.takeDuty_seq (s : State) (c d : Nat) :
    (s.takeDuty c).seq d = { s.seq d with duty := if d = c then s.dutyOf c else (s.seq d).duty } := by
  unfold State.takeDuty
  by_cases hd : d = c
  · subst hd
    rw [if_pos rfl]
    split
    · next h => rw [h]
    · exact State.seq_setSeq_self ..
  · rw [if_neg hd]
    split
    · rfl
    · exact State.seq_setSeq_of_ne _ _ (Ne.symm hd)

/-- Two states that differ in the duty in force and in event rings alone, as far as DUTY_SLOT is concerned. -/
structure State.SameButDuty (s u : State) : Prop where
  tiles : u.tiles = s.tiles
  mem : u.mem = s.mem
  net : u.net = s.net
  host : u.host = s.host
  dict : u.dict = s.dict
  power : u.power = s.power
  seq : ∀ c, ({ u.seq c with duty := 0 } : Sequencer) = { s.seq c with duty := 0 }

theorem State.sameButDuty_takeDuty (s : State) (c : Nat) : s.SameButDuty (s.takeDuty c) := by
  have hseq : ∀ d, ({ (s.takeDuty c).seq d with duty := 0 } : Sequencer) = { s.seq d with duty := 0 } := fun d => by
    rw [s.takeDuty_seq c d]
  unfold State.takeDuty at hseq ⊢
  split at hseq
  · next h => exact if_pos h ▸ ⟨rfl, rfl, rfl, rfl, rfl, rfl, hseq⟩
  · next h => exact if_neg h ▸ ⟨rfl, rfl, rfl, rfl, rfl, rfl, hseq⟩

theorem State.SameButDuty.trans {s u v : State} (h : s.SameButDuty u) (k : u.SameButDuty v) : s.SameButDuty v :=
  ⟨k.tiles.trans h.tiles, k.mem.trans h.mem, k.net.trans h.net, k.host.trans h.host, k.dict.trans h.dict, k.power.trans h.power,
    fun c => (k.seq c).trans (h.seq c)⟩

theorem State.SameButDuty.dutyOf {s u : State} (h : s.SameButDuty u) (c : Nat) : u.dutyOf c = s.dutyOf c := by
  rw [State.dutyOf, State.dutyOf, State.obj, State.obj, h.dict, h.power]

/-- The clusters take their duties in turn, and none of them changes what another takes. -/
theorem State.takeDuties (s : State) (n : Nat) :
    s.SameButDuty ((List.range n).foldl State.takeDuty s) ∧
      ∀ c < n, (((List.range n).foldl State.takeDuty s).seq c).duty = s.dutyOf c := by
  induction n with
  | zero => exact ⟨⟨rfl, rfl, rfl, rfl, rfl, rfl, fun _ => rfl⟩, fun c hc => absurd hc (Nat.not_lt_zero c)⟩
  | succ n ih =>
    obtain ⟨hsame, hduty⟩ := ih
    rw [List.range_succ, List.foldl_append, List.foldl_cons, List.foldl_nil]
    refine ⟨hsame.trans (State.sameButDuty_takeDuty ..), fun c hc => ?_⟩
    rw [State.takeDuty_seq]
    dsimp only
    by_cases hcn : c = n
    · rw [if_pos hcn, hsame.dutyOf, hcn]
    · rw [if_neg hcn, hduty c (by omega)]

/-- Settles O30: the fetch puts the task into its slot and then ends it, readies it or leaves it; readiness, the epoch's timeout and
the duty each from the lemma of their command. -/
theorem tasksAreFetchedAndBecomeReady : Obligations.TasksAreFetchedAndBecomeReady := by
  unfold Obligations.TasksAreFetchedAndBecomeReady
  refine ⟨?fetch, ?ready, ?timeout, fun s => ?duty⟩
  case fetch =>
    intro c q host s x a pos slot hitem hlt hfree hheld r u t w wait
    refine ⟨fun hread hclean hcheck => ?_, fun st hst hwhy => ?_⟩
    · rw [exec_taskFetch_of_item hitem hlt hfree hheld ((State.fetchStatus_of_clean hread hclean).trans hcheck), if_neg (not_not.2 rfl)]
      refine ⟨fun hwaits => if_neg hwaits.ne', fun hnone hwait => ?_⟩
      exact (if_pos hnone).trans (congrArg _ (State.makeReady_of_open (.inl hwait)))
    · rw [exec_taskFetch_of_item hitem hlt hfree hheld (State.fetchStatus_of_failed hst hwhy)]
      exact if_pos hst
  case ready =>
    intro c q slot s t htask hphase hmet w hopen
    rw [exec_taskReady_of_met htask hphase (State.waitsMet_iff.2 hmet), State.makeReady_of_open hopen]
    rfl
  case timeout =>
    intro c q slot s t x htask hphase hcmd hepoch
    refine ⟨_, exec_epochWaitTimeout_of_due htask hphase hcmd hepoch, ?_, (State.noNewTasks_failTask ..).calends⟩
    rw [← State.slot_of_task htask]
    exact State.task_failTask_self ..
  case duty =>
    obtain ⟨hsame, hduty⟩ := s.takeDuties 8
    exact ⟨_, exec_dutySlot s, fun c hc => ⟨hduty c hc, hsame.seq c⟩, hsame.tiles, hsame.mem, hsame.net, hsame.host⟩

end Sys2Proof.Machine

/-! Tasks on their tiles (R152, R187, R200, R201, R203): what a fold over the tiles of a set leaves on each of them, the start of a
task, and its end. -/

namespace Sys2Proof.Machine

/-! ### The tiles of a task, one by one -/

/-- Steps that each change one tile at most, and no sequencer. -/
structure StepsOnTiles {α : Type} (f : State → α → State) (target : α → Nat) : Prop where
  seqs : ∀ s e, (f s e).seqs = s.seqs
  other : ∀ s e (v : TileId), target e ≠ v.val → (f s e).tile v = s.tile v

section
variable {α : Type} {f : State → α → State} {target : α → Nat}

theorem StepsOnTiles.foldl_seqs (h : StepsOnTiles f target) (l : List α) (s : State) : (l.foldl f s).seqs = s.seqs :=
  foldl_related (R := fun s u : State => u.seqs = s.seqs) (fun _ => rfl) (fun h k => k.trans h) h.seqs l s

theorem StepsOnTiles.foldl_other (h : StepsOnTiles f target) {l : List α} {v : TileId} (hv : ∀ e ∈ l, target e ≠ v.val) (s : State) :
    (l.foldl f s).tile v = s.tile v := by
  induction l generalizing s with
  | nil => rfl
  | cons e r ih =>
    obtain ⟨he, hr⟩ := List.forall_mem_cons.1 hv
    rw [List.foldl_cons, ih hr, h.other s e v he]

/-- Where no tile is named twice, a tile is left as its own step left it. -/
theorem StepsOnTiles.foldl_self (h : StepsOnTiles f target) {l : List α} (hnodup : (l.map target).Nodup) {e : α} (he : e ∈ l)
    {v : TileId} (hv : target e = v.val) (s : State) : ∃ w, (l.foldl f s).tile v = (f w e).tile v := by
  obtain ⟨l₁, l₂, rfl⟩ := List.append_of_mem he
  refine ⟨l₁.foldl f s, ?_⟩
  rw [List.foldl_append, List.foldl_cons]
  refine h.foldl_other (fun d hd => ?_) _
  rw [List.map_append, List.map_cons] at hnodup
  have hafter := (List.nodup_cons.1 (List.nodup_append.1 hnodup).2.1).1
  exact fun hd' => hafter (hv.trans hd'.symm ▸ List.mem_map_of_mem hd)

end

theorem taskTiles_nodup (c d : Nat) : (taskTiles c d).Nodup :=
  (List.nodup_range.filter _).map fun _ _ h => Nat.add_right_cancel h

/-! ### The start of a task on its tiles -/

/-- A task's start on one tile of its set (R152, R203): `e` is the tile and its index in the set. -/
def State.startOn (k : TileTask) (d n : Nat) (need : List Nat) (image : Broadcast) (s : State) (e : Nat × Nat) : State :=
  if h : e.1 < 4096 then
    s.setTile ⟨e.1, h⟩ (startTile s.calends k d e.2 n e.1 (if need.contains e.1 then some image else none) (s.tile ⟨e.1, h⟩))
  else s

theorem State.startTiles_eq (s : State) (k : TileTask) (d : Nat) (ts need : List Nat) (image : Broadcast) :
    s.startTiles k d ts need image = ts.zipIdx.foldl (State.startOn k d ts.length need image) s := rfl

theorem State.startOn_self (k : TileTask) (d n : Nat) (need : List Nat) (image : Broadcast) (s : State) (v : TileId) (i : Nat) :
    (s.startOn k d n need image (v.val, i)).tile v =
      startTile s.calends k d i n v.val (if need.contains v.val then some image else none) (s.tile v) := by
  rw [State.startOn, dif_pos v.isLt]
  exact State.tile_setTile_self ..

theorem stepsOnTiles_startOn (k : TileTask) (d n : Nat) (need : List Nat) (image : Broadcast) :
    StepsOnTiles (State.startOn k d n need image) Prod.fst where
  seqs s e := by
    unfold State.startOn
    split <;> rfl
  other s e v hv := by
    unfold State.startOn
    split
    · exact State.tile_setTile_of_ne _ _ fun h => hv (congrArg Fin.val h)
    · rfl

theorem State.startTiles_other {s : State} {k : TileTask} {d : Nat} {ts need : List Nat} {image : Broadcast} {v : TileId}
    (hv : v.val ∉ ts) : (s.startTiles k d ts need image).tile v = s.tile v :=
  (stepsOnTiles_startOn k d ts.length need image).foldl_other
    (fun _ he hev => hv (hev ▸ List.fst_mem_of_mem_zipIdx he)) s

theorem State.startTiles_self {s : State} {k : TileTask} {d : Nat} {ts : List Nat} {image : Broadcast} {v : TileId}
    (hnodup : ts.Nodup) (hv : v.val ∈ ts) : ∃ (cal : Nat) (x : Tile), (s.startTiles k d ts [] image).tile v =
      startTile cal k d (ts.idxOf v.val) ts.length v.val none x := by
  have hmem : (v.val, ts.idxOf v.val) ∈ ts.zipIdx := by
    rw [List.mk_mem_zipIdx_iff_getElem?]
    simp [List.getElem?_idxOf hv]
  obtain ⟨w, hw⟩ := (stepsOnTiles_startOn k d ts.length [] image).foldl_self (by rwa [List.zipIdx_map_fst]) hmem rfl s
  exact ⟨w.calends, w.tile v, hw.trans (State.startOn_self ..)⟩

theorem Sparse.get_foldl_set {α : Type} [DecidableEq α] (d : α) (f : Nat → α) (n i : Nat) (m : Sparse α) :
    Sparse.get d ((List.range n).foldl (fun m k => Sparse.set d m k (f k)) m) i = if i < n then f i else Sparse.get d m i := by
  induction n with
  | zero => rfl
  | succ n ih =>
    rw [List.range_succ, List.foldl_append, List.foldl_cons, List.foldl_nil, Sparse.get_set, ih]
    by_cases hi : n = i
    · subst hi
      rw [if_pos rfl, if_pos (Nat.lt_succ_self n)]
    · have hlt : i < n ↔ i < n + 1 := by omega
      rw [if_neg hi]
      simp only [hlt]

/-- What R152 and R203 ask of a tile as task `d` starts on it, `index`-th of `n` tiles. -/
structure Tile.Started (x : Tile) (k : TileTask) (d index n t : Nat) : Prop where
  task : x.task = some k
  pc : x.pc = 0
  loops : x.loops = []
  fault : x.fault = none
  bcast : x.bcast = none
  role : x.role = taskRole d
  ended : x.ended = true ↔ taskProgLen d = 0
  vreg : ∀ r, x.vreg r = ⟨0, 0⟩
  arg : ∀ w < 12, x.greg (BitVec.ofNat 4 w) = ⟨BitVec.ofNat 64 (taskArg d w), false⟩
  index : x.greg 12 = ⟨BitVec.ofNat 64 index, false⟩
  count : x.greg 13 = ⟨BitVec.ofNat 64 n, false⟩
  number : x.greg 14 = ⟨BitVec.ofNat 64 t, false⟩

theorem started_startTile (cal : Nat) (k : TileTask) (d index n t : Nat) (x : Tile) :
    (startTile cal k d index n t none x).Started k d index n t where
  task := rfl
  pc := rfl
  loops := rfl
  fault := rfl
  bcast := rfl
  role := rfl
  ended := decide_eq_true_iff
  vreg _ := Sparse.get_nil _ _
  arg w hw := by
    have hreg : (BitVec.ofNat 4 w).toNat = w := by simp; omega
    rw [Tile.greg, hreg]
    change Sparse.get _ (Sparse.set _ (Sparse.set _ (Sparse.set _ _ 12 _) 13 _) 14 _) w = _
    rw [Sparse.get_set_of_ne _ _ _ (by omega), Sparse.get_set_of_ne _ _ _ (by omega), Sparse.get_set_of_ne _ _ _ (by omega)]
    exact (Sparse.get_foldl_set _ _ 12 w _).trans (if_pos hw)
  index := by
    change Sparse.get _ (Sparse.set _ (Sparse.set _ (Sparse.set _ _ 12 _) 13 _) 14 _) 12 = _
    rw [Sparse.get_set_of_ne _ _ _ (by decide), Sparse.get_set_of_ne _ _ _ (by decide), Sparse.get_set_self]
  count := by
    change Sparse.get _ (Sparse.set _ (Sparse.set _ _ 13 _) 14 _) 13 = _
    rw [Sparse.get_set_of_ne _ _ _ (by decide), Sparse.get_set_self]
  number := Sparse.get_set_self _ _ _ _

/-! ### TASK_DISPATCH -/

theorem State.applyAtBoundary_of_noCommits {s : State} (c : Nat) (h : s.dict.commits = []) :
    s.applyAtBoundary c = if s.atBoundary c then s.setSeq c { s.seq c with force := false } else s := by
  rw [State.applyAtBoundary, h]
  rfl

section
variable (s : State) (c q : Nat) (t : Task)

/-- Cluster `c` as a dispatch of task `t` of queue `q` marks it, ahead of the tiles (R203, R210). -/
def State.dispatching : State :=
  let x := s.seq c
  let s := s.setSeq c { x with lastQueue := Sparse.set none x.lastQueue (s.queuePrio c q) (some q), lastDispatch := some s.calends
                               watchdogFrom := s.calends }
  ((s.setTask c q { t with phase := .dispatched }).noteDispatch c { t with phase := .dispatched }).svcEvent (seqNode c) 0x10
    (q * 2 ^ 20 + taskId t.desc % 65536)

theorem State.dispatching_tile (v : TileId) : (s.dispatching c q t).tile v = s.tile v := rfl

theorem State.dispatching_seq : ∃ queues : Sparse (List Task), (s.dispatching c q t).seq c =
    { s.seq c with queues := queues, lastQueue := Sparse.set none (s.seq c).lastQueue (s.queuePrio c q) (some q)
                   lastDispatch := some s.calends, watchdogFrom := s.calends } :=
  ⟨_, (State.seq_setQueue_self ..).trans (by rw [State.seq_setSeq_self])⟩

/-- The task as its tiles know it (R203). -/
def State.tileTask : TileTask :=
  ⟨q, t.slot, BitVec.ofNat 32 (taskId t.desc), t.cmd.vi, (s.partOfCluster c).getD 0, 3 - s.queuePrio c q⟩

variable {s c q t}

/-- Every tile of the set holds the task's program, or the task has none. -/
def State.HoldsProgram (s : State) (c : Nat) (t : Task) : Prop :=
  taskProgLen t.desc = 0 ∨
    ∀ v ∈ taskTiles c t.desc, Sparse.get none (s.seq c).programs v = some (taskProgAddr t.desc, taskProgLen t.desc)

/-- A dispatch that reads no image starts the tiles, and notes which program they hold. -/
theorem State.dispatch_of_held {host : HostData} (htiles : taskTiles c t.desc ≠ []) (hheld : s.HoldsProgram c t) :
    ∃ image ts p, s.dispatch c q t host =
      ((s.dispatching c q t).startTiles (s.tileTask c q t) t.desc (taskTiles c t.desc) [] image).holdProgram c ts p := by
  have hneed : (if taskProgLen t.desc = 0 then []
      else (taskTiles c t.desc).filter (fun u => Sparse.get none ((s.dispatching c q t).seq c).programs u ≠
        some (taskProgAddr t.desc, taskProgLen t.desc))) = [] := by
    split
    · rfl
    · next hprog =>
      obtain ⟨queues, hseq⟩ := s.dispatching_seq c q t
      rw [hseq, List.filter_eq_nil_iff]
      exact fun v hv => by simpa using hheld.resolve_left hprog v hv
  unfold State.dispatch
  dsimp only
  rw [if_neg htiles]
  unfold State.dispatching at hneed
  dsimp only at hneed
  rw [hneed]
  simp only [if_true, ne_eq, not_true_eq_false, if_false]
  split <;> exact ⟨_, _, _, rfl⟩

theorem State.holdProgram_tile (s : State) (c : Nat) (ts : List Nat) (p : Option (Nat × Nat)) (v : TileId) :
    (s.holdProgram c ts p).tile v = s.tile v := rfl

theorem State.holdProgram_lastDispatch (s : State) (c : Nat) (ts : List Nat) (p : Option (Nat × Nat)) :
    ((s.holdProgram c ts p).seq c).lastDispatch = (s.seq c).lastDispatch := by
  rw [State.holdProgram, State.seq_setSeq_self]

theorem State.startTiles_seq (s : State) (k : TileTask) (d : Nat) (ts need : List Nat) (image : Broadcast) (c : Nat) :
    (s.startTiles k d ts need image).seq c = s.seq c :=
  congrArg (fun m => Sparse.get ({} : Sequencer) m c) ((stepsOnTiles_startOn k d ts.length need image).foldl_seqs ts.zipIdx s)

/-- What a dispatch that reads no image leaves: the cycle of the dispatch, the tiles of the set at the task's start, and every other
tile as it was. -/
structure State.Dispatched (s : State) (c q : Nat) (t : Task) (u : State) : Prop where
  lastDispatch : (u.seq c).lastDispatch = some s.calends
  other : ∀ v : TileId, v.val ∉ taskTiles c t.desc → u.tile v = s.tile v
  started : ∀ v : TileId, v.val ∈ taskTiles c t.desc →
    (u.tile v).Started (s.tileTask c q t) t.desc ((taskTiles c t.desc).idxOf v.val) (taskTiles c t.desc).length v.val

theorem State.dispatched_of_held {host : HostData} (htiles : taskTiles c t.desc ≠ []) (hheld : s.HoldsProgram c t) :
    s.Dispatched c q t (s.dispatch c q t host) := by
  obtain ⟨image, ts, p, h⟩ := State.dispatch_of_held (q := q) (host := host) htiles hheld
  rw [h]
  refine ⟨?_, fun v hv => ?_, fun v hv => ?_⟩
  · obtain ⟨queues, hseq⟩ := s.dispatching_seq c q t
    rw [State.holdProgram_lastDispatch, State.startTiles_seq, hseq]
  · rw [State.holdProgram_tile, State.startTiles_other hv, State.dispatching_tile]
  · obtain ⟨cal, x, hx⟩ := State.startTiles_self (s := s.dispatching c q t) (k := s.tileTask c q t) (d := t.desc) (image := image)
      (taskTiles_nodup c t.desc) hv
    rw [State.holdProgram_tile, hx]
    exact started_startTile ..

end

section
variable {c : ClusterId} {host : HostData} {b : State} {q : Nat} {t : Task}
  (hrecent : ∀ k, ((b.applyAtBoundary c.val).seq c.val).lastDispatch = some k → k + 4 ≤ (b.applyAtBoundary c.val).calends)
  (hnext : (b.applyAtBoundary c.val).nextDispatch c.val = some (q, t))
include hrecent hnext

/-- The task that R203 names is dispatched where its cluster's domain is on; one that is off begins to wake (R537). -/
theorem exec_taskDispatch_of_next : exec (.taskDispatch c host) b =
    (if (b.applyAtBoundary c.val).domain c.val = .off then .next ((b.applyAtBoundary c.val).setDomain c.val .waking)
    else if (b.applyAtBoundary c.val).domain c.val ≠ .on then .next (b.applyAtBoundary c.val)
    else .next ((b.applyAtBoundary c.val).dispatch c.val q t host)) := by
  change execTaskDispatch c host b = _
  unfold execTaskDispatch
  dsimp only
  rw [hnext]
  cases hlast : ((b.applyAtBoundary c.val).seq c.val).lastDispatch with
  | none => rfl
  | some k => exact if_neg fun hlt => Nat.not_lt.2 (hrecent k hlast) (of_decide_eq_true hlt)

end

/-! ### The end of a task on its tiles -/

/-- One tile of a task's set is free, and its statistics are the command's (R200, R502). -/
def State.freeTile (k : CmdKey) (id : Nat) (s : State) (u : Nat) : State :=
  if h : u < 4096 then
    let x := s.tile ⟨u, h⟩
    let y := { x with task := none, ended := false, block := x.block.combine x.priv, priv := {} }
    (s.updCmd k (fun y => { y with block := y.block.combine x.priv, poisoned := y.poisoned || x.eccSeen })).setTile ⟨u, h⟩
      (y.event s.calends 0x02 (id / 2 ^ 24))
  else s

theorem State.freeTile_self (k : CmdKey) (id : Nat) (s : State) (v : TileId) : ((s.freeTile k id v.val).tile v).task = none := by
  rw [State.freeTile, dif_pos v.isLt]
  exact congrArg Tile.task (State.tile_setTile_self ..)

theorem stepsOnTiles_freeTile (k : CmdKey) (id : Nat) : StepsOnTiles (State.freeTile k id) (fun u => u) where
  seqs s e := by
    unfold State.freeTile
    split <;> rfl
  other s e v hv := by
    unfold State.freeTile
    split
    · exact State.tile_setTile_of_ne _ _ fun h => hv (congrArg Fin.val h)
    · rfl

/-- A grown tally changes its sequencer's tallies and watches, and the network (R196, R256). -/
theorem State.addTally_eq (s : State) (c n : Nat) (d : BitVec 32) : ∃ net ws, s.addTally c n d =
    { s.setSeq c { s.seq c with tallies := Sparse.set 0 (s.seq c).tallies n (Sparse.get 0 (s.seq c).tallies n + d), watches := ws }
      with net := net } := by
  have hsend : ∀ (l : List TallyWatch) (w : State), ∃ net, l.foldl (fun s (w : TallyWatch) =>
      s.sendControl cmdTallyMet (seqNode c) w.tile w.tag n (s.tallyWho c w.vi) 0 0) w = { w with net := net } := by
    intro l
    induction l with
    | nil => exact fun w => ⟨w.net, rfl⟩
    | cons e r ih =>
      intro w
      rw [List.foldl_cons, State.sendControl_of (s := w) (r := w) _ _ _ _ _ _ _ _ (by decide) ⟨rfl, rfl, rfl, rfl, rfl, rfl⟩]
      exact ih _
  obtain ⟨net, hnet⟩ := hsend ((s.seq c).watches.filter (fun w => w.tally = n &&
    reaches (Sparse.get 0 (s.seq c).tallies n + d) (BitVec.ofNat 32 w.target))) _
  exact ⟨net, _, hnet⟩

theorem State.addTally_tiles (s : State) (c n : Nat) (d : BitVec 32) : (s.addTally c n d).tiles = s.tiles := by
  obtain ⟨net, ws, h⟩ := s.addTally_eq c n d
  rw [h]
  rfl

theorem State.addTally_tally (s : State) (c n m : Nat) (d : BitVec 32) : Sparse.get 0 ((s.addTally c n d).seq c).tallies m =
    Sparse.get 0 (s.seq c).tallies m + if n = m then d else 0 := by
  obtain ⟨net, ws, h⟩ := s.addTally_eq c n d
  have hseq : (s.addTally c n d).seq c = _ := (congrArg (fun w : State => w.seq c) h).trans (State.seq_setSeq_self s c _)
  rw [hseq, Sparse.get_set]
  split
  · next hn => rw [hn]
  · simp

/-- The increments of a task, applied in turn, add up in each tally (R200). -/
theorem State.foldl_addTally (l : List (Nat × Nat)) (s : State) (c n : Nat) :
    (l.foldl (fun s i => s.addTally c i.1 (BitVec.ofNat 32 i.2)) s).tiles = s.tiles ∧
    Sparse.get 0 ((l.foldl (fun s i => s.addTally c i.1 (BitVec.ofNat 32 i.2)) s).seq c).tallies n =
      Sparse.get 0 (s.seq c).tallies n + BitVec.ofNat 32 (((l.filter (fun i => i.1 = n)).map (·.2)).sum) := by
  induction l generalizing s with
  | nil => exact ⟨rfl, by simp⟩
  | cons i r ih =>
    obtain ⟨htiles, htally⟩ := ih (s.addTally c i.1 (BitVec.ofNat 32 i.2))
    rw [List.foldl_cons]
    refine ⟨htiles.trans (s.addTally_tiles ..), ?_⟩
    rw [htally, State.addTally_tally, List.filter_cons]
    by_cases hi : i.1 = n
    · simp [hi, BitVec.ofNat_add, BitVec.add_assoc]
    · simp [hi]

/-! ### TASK_DONE -/

section
variable (s : State) (c q : Nat) (t : Task)

/-- The increments of a done task are applied, and its tiles are free (R200). -/
def State.freed : State :=
  (taskTiles c t.desc).foldl (State.freeTile t.cmd (taskId t.desc))
    ((taskIncs t.desc).foldl (fun s i => s.addTally c i.1 (BitVec.ofNat 32 i.2)) s)

/-- Between the tiles and the queue of a done task only a failed page move is told (R33). -/
theorem State.taskDone_eq : ∃ w, (s.freed c t).SameUnits w ∧ s.taskDone c q t = (w.taskOut c q t .done).finishRun t.cmd := by
  unfold State.taskDone
  dsimp only
  refine ⟨_, ?_, rfl⟩
  split
  · exact (State.sameUnits_tellFailure ..).trans (State.sameUnits_updCmd ..)
  · exact .refl _

theorem State.task_taskDone_self : (s.taskDone c q t).task c q t.slot = none := by
  obtain ⟨w, -, hdone⟩ := s.taskDone_eq c q t
  rw [hdone]
  exact (State.sameUnits_finishRun _ t.cmd).noNewTasks.task_eq_none (State.task_taskOut_self ..)

/-- Once the tiles of a done task are free, nothing of its end changes a tile. -/
theorem State.taskDone_tile (v : TileId) : (s.taskDone c q t).tile v = (s.freed c t).tile v := by
  obtain ⟨w, hw, hdone⟩ := s.taskDone_eq c q t
  rw [hdone, (State.sameUnits_finishRun _ t.cmd).tile, State.tile, State.taskOut_tiles]
  exact hw.tile v

theorem State.taskDone_tile_self {v : TileId} (hv : v.val ∈ taskTiles c t.desc) : ((s.taskDone c q t).tile v).task = none := by
  obtain ⟨w, hw⟩ := (stepsOnTiles_freeTile t.cmd (taskId t.desc)).foldl_self (by simpa using taskTiles_nodup c t.desc) hv rfl
    ((taskIncs t.desc).foldl (fun s i => s.addTally c i.1 (BitVec.ofNat 32 i.2)) s)
  rw [State.taskDone_tile, State.freed, hw]
  exact State.freeTile_self ..

theorem State.taskDone_tile_other {v : TileId} (hv : v.val ∉ taskTiles c t.desc) : (s.taskDone c q t).tile v = s.tile v := by
  rw [State.taskDone_tile, State.freed, (stepsOnTiles_freeTile t.cmd (taskId t.desc)).foldl_other fun e he hev => hv (hev ▸ he),
    State.tile, State.tile, (State.foldl_addTally _ s c 0).1]

theorem State.taskDone_tally (n : Nat) : Sparse.get 0 ((s.taskDone c q t).seq c).tallies n = Sparse.get 0 (s.seq c).tallies n +
    BitVec.ofNat 32 (((taskIncs t.desc).filter (fun i => i.1 = n)).map (·.2)).sum := by
  obtain ⟨w, hw, hdone⟩ := s.taskDone_eq c q t
  rw [hdone, (State.sameUnits_finishRun _ t.cmd).seq, State.taskOut_tallies, hw.seq, State.freed, State.seq,
    (stepsOnTiles_freeTile t.cmd (taskId t.desc)).foldl_seqs]
  exact (State.foldl_addTally _ s c n).2

end

/-- No tile of the task's set has work left (R135, R199). -/
def State.TilesDone (s : State) (c : Nat) (t : Task) : Prop :=
  ∀ v : TileId, v.val ∈ taskTiles c t.desc → (s.tile v).ended = true ∧ (s.tile v).bcast = none ∧ (s.tile v).fault = none ∧
    (s.tile v).asyncFaults = [] ∧ (s.tile v).stopped = false ∧ s.tileQuiet v = true

theorem exec_taskDone_of_ended {c : ClusterId} {q : Fin 16} {slot : Fin 64} {s : State} {t : Task}
    (htask : s.task c.val q.val slot.val = some t) (hphase : t.phase = .dispatched) (hdone : s.TilesDone c.val t) :
    exec (.taskDone c q slot) s = .next (s.taskDone c.val q.val t) := by
  change execTaskDone c q slot s = _
  unfold execTaskDone
  rw [htask]
  refine if_pos ⟨hphase, List.all_eq_true.2 fun u hu => ?_⟩
  split
  · next hlt =>
    obtain ⟨hended, hbcast, hfault, hasync, hstopped, hquiet⟩ := hdone ⟨u, hlt⟩ hu
    simp [hended, hbcast, hfault, hasync, hstopped, hquiet]
  · rfl

/-- Settles O31: the boundary, the wake or the dispatch, and the end of a task, each from the lemma of its part. -/
theorem tasksStartAndEndOnTheirTiles : Obligations.TasksStartAndEndOnTheirTiles := by
  unfold Obligations.TasksStartAndEndOnTheirTiles
  refine ⟨?start, fun c q slot s t htask hphase hdone => ?done⟩
  case start =>
    intro c host b q t s
    refine ⟨fun hnone => ?_, fun hrecent hnext => ⟨fun hoff => ?_, fun hon htiles hheld => ?_⟩⟩
    · have hs : s = if b.atBoundary c.val then b.setSeq c.val { b.seq c.val with force := false } else b :=
        State.applyAtBoundary_of_noCommits c.val hnone
      rw [hs]
      split
      · exact ⟨by rw [State.seq_setSeq_self], rfl, rfl, rfl, rfl⟩
      · exact ⟨rfl, rfl, rfl, rfl, rfl⟩
    · exact (exec_taskDispatch_of_next hrecent hnext).trans (if_pos hoff)
    · have hexec : exec (.taskDispatch c host) b = .next (s.dispatch c.val q t host) := by
        refine (exec_taskDispatch_of_next hrecent hnext).trans ((if_neg ?_).trans (if_neg (not_not.2 hon)))
        exact fun hoff => nomatch hon.symm.trans hoff
      obtain ⟨hlast, hother, hstarted⟩ := State.dispatched_of_held (q := q) (host := host) htiles hheld
      refine ⟨_, hexec, hlast, hother, fun v hv => ?_⟩
      have hv := hstarted v hv
      exact ⟨hv.task, hv.pc, hv.loops, hv.fault, hv.bcast, hv.role, hv.ended, hv.vreg, hv.arg, hv.index, hv.count, hv.number⟩
  case done =>
    refine ⟨_, exec_taskDone_of_ended htask hphase hdone, ?_, fun v hv => State.taskDone_tile_self _ _ _ _ hv,
      fun v hv => State.taskDone_tile_other _ _ _ _ hv, State.taskDone_tally _ _ _ _⟩
    rw [← State.slot_of_task htask]
    exact State.task_taskDone_self ..

end Sys2Proof.Machine

/-! The message an eyelet of the Lacing tree forms of its children's (R224, R225, R242, R243): the members' messages folded in
child-index order, or the first error status in R243's order. -/

namespace Sys2Proof.Machine

/-- The error statuses in the order in which they go up (R243). -/
def laceErrOrder : List Status := [.laceTimeout, .linkDown, .aborted, .illegalEncoding, .eccUncorrected]

theorem laceErrOrder_pairwise : laceErrOrder.Pairwise (fun a b => laceErrRank a < laceErrRank b) := by decide

theorem laceErrRank_le_eccUncorrected (st : Status) : laceErrRank st ≤ laceErrRank .eccUncorrected := by
  cases st <;> decide

/-- Of a status found so far and one more, the status that goes up. -/
def laceErrWith (found : Option Status) (a : Status) : Status :=
  found.elim a fun b => if laceErrRank a < laceErrRank b then a else b

/-- In a list of rising rank, one more status sought is found where it ranks before what was found so far. -/
theorem find?_or_eq_laceErrWith {order : List Status} (h : order.Pairwise (fun a b => laceErrRank a < laceErrRank b))
    (f : Status → Bool) {a : Status} (ha : a ∈ order) :
    order.find? (fun st => f st || st = a) = some (laceErrWith (order.find? f) a) := by
  induction order with
  | nil => cases ha
  | cons c r ih =>
    obtain ⟨hc, hr⟩ := List.pairwise_cons.1 h
    by_cases hfc : f c = true
    · have hca : ¬ laceErrRank a < laceErrRank c := by
        rcases List.mem_cons.1 ha with rfl | har
        · exact Nat.lt_irrefl _
        · exact Nat.lt_asymm (hc a har)
      simp [hfc, hca, laceErrWith]
    · rcases List.mem_cons.1 ha with rfl | har
      · cases hfound : r.find? f with
        | none => simp [hfc, hfound, laceErrWith]
        | some b => simp [hfc, hfound, laceErrWith, hc b (List.mem_of_find?_eq_some hfound)]
      · have hne : c ≠ a := fun hca => Nat.lt_irrefl _ (hca ▸ hc a har)
        simpa [hfc, hne] using ih hr har

theorem worstLaceErr_concat (l : List Status) (a : Status) :
    worstLaceErr (l ++ [a]) = some (laceErrWith (worstLaceErr l) a) := by
  rw [worstLaceErr, List.foldl_append, List.foldl_cons, List.foldl_nil, ← worstLaceErr]
  cases worstLaceErr l with
  | none => rfl
  | some b => exact (apply_ite some _ a b).symm

/-- The status that goes up is the first of R243's order among those reported. -/
theorem worstLaceErr_eq_find? {l : List Status} (h : ∀ a ∈ l, a ∈ laceErrOrder) :
    worstLaceErr l = laceErrOrder.find? (fun st => decide (st ∈ l)) := by
  induction l using List.reverseRecOn with
  | nil => rfl
  | append_singleton r a ih =>
    have ha := find?_or_eq_laceErrWith laceErrOrder_pairwise (fun st => decide (st ∈ r)) (h a (by simp))
    rw [worstLaceErr_concat, ih fun b hb => h b (by simp [hb]), ← ha]
    simp only [List.mem_append, List.mem_singleton, Bool.decide_or]

section
variable (l : List LaceMsg)

/-- The messages that are some member's: identities and ERRs formed in the tree are left out (log entry 93). -/
def laceOwn : List LaceMsg := l.filter (fun k => k.op ≠ laceNoOp)

/-- The message that names the operation. -/
def laceFirst : LaceMsg := (laceOwn l).headD laceIdentity

/-- The children disagree on OP or K (R242). -/
def laceDisagrees : Bool := (laceOwn l).any (fun k => k.op ≠ (laceFirst l).op || k.k ≠ (laceFirst l).k)

/-- The status that goes up, if any (R242, R243). -/
def laceErrUp : Option Status :=
  laceErrOrder.find? (fun st => l.any (fun k => k.err = some st) || (laceDisagrees l && st = .illegalEncoding))

/-- The members' messages folded in child-index order (R225). -/
def laceJoined (sweep : Nat) : LaceMsg :=
  ((laceOwn l).drop 1).foldl (laceJoin (laceFirst l).op (laceFirst l).k sweep) (laceFirst l)

/-- What an eyelet passes on of its children's messages, with a link error as `upset` tells. -/
def laceFormed (sweep upset : Nat) : LaceMsg :=
  if laceErrUp l ≠ none then { laceFirst l with err := laceErrUp l, data := [] }
  else if upset = 2 then { laceJoined l sweep with err := some .eccUncorrected, data := [] } else laceJoined l sweep

end

@[simp] theorem laceJoin_err (op k sweep : Nat) (a b : LaceMsg) : (laceJoin op k sweep a b).err = a.err := by
  unfold laceJoin
  split
  case h_2 | h_3 => split <;> rfl
  all_goals rfl

theorem laceJoined_err (l : List LaceMsg) (sweep : Nat) : (laceJoined l sweep).err = (laceFirst l).err :=
  foldl_related (R := fun a b : LaceMsg => b.err = a.err) (fun _ => rfl) (fun h k => k.trans h)
    (fun a b => laceJoin_err _ _ _ a b) _ _

theorem laceDisagrees_of_laceErrUp_none {l : List LaceMsg} (h : laceErrUp l = none) : laceDisagrees l = false := by
  have := List.find?_eq_none.1 h .illegalEncoding (by decide)
  simp only [Bool.or_eq_true, not_or] at this
  simpa using this.2

section
variable {l : List LaceMsg} (herr : ∀ k ∈ l, ∀ st, k.err = some st → st ∈ laceErrOrder)
include herr

theorem worstLaceErr_eq_laceErrUp :
    worstLaceErr (l.filterMap (·.err) ++ if laceDisagrees l then [.illegalEncoding] else []) = laceErrUp l := by
  have hmem : ∀ st, st ∈ l.filterMap (·.err) ++ (if laceDisagrees l then [.illegalEncoding] else []) ↔
      (∃ k ∈ l, k.err = some st) ∨ (laceDisagrees l = true ∧ st = .illegalEncoding) := fun st => by
    cases laceDisagrees l <;> simp
  rw [worstLaceErr_eq_find? fun st hst => ?_, laceErrUp]
  · congr 1
    funext st
    rw [Bool.eq_iff_iff]
    simp [hmem]
  · rcases (hmem st).1 hst with ⟨k, hk, hst⟩ | ⟨-, rfl⟩
    · exact herr k hk st hst
    · decide

theorem err_of_laceErrUp_none (h : laceErrUp l = none) : ∀ k ∈ l, k.err = none := by
  intro k hk
  by_contra hne
  obtain ⟨st, hst⟩ := Option.ne_none_iff_exists'.1 hne
  have := List.find?_eq_none.1 h st (herr k hk st hst)
  simp only [Bool.or_eq_true, List.any_eq_true, decide_eq_true_eq, not_or] at this
  exact this.1 ⟨k, hk, hst⟩

theorem laceFirst_err_of_laceErrUp_none (h : laceErrUp l = none) : (laceFirst l).err = none := by
  rw [laceFirst, List.headD_eq_head?_getD]
  cases hown : (laceOwn l).head? with
  | none => rfl
  | some k => exact err_of_laceErrUp_none herr h k (List.mem_of_mem_filter (List.mem_of_head? hown))

/-- What `laceCombine` gives, in the terms of R225, R242 and R243. -/
theorem laceCombine_eq (sweep : Nat) : laceCombine sweep l =
    (if laceErrUp l ≠ none then { laceFirst l with err := laceErrUp l, data := [] } else laceJoined l sweep, laceDisagrees l) := by
  have hworst := worstLaceErr_eq_laceErrUp herr
  have hunfold : laceCombine sweep l = (match worstLaceErr (l.filterMap (·.err) ++ if laceDisagrees l then [.illegalEncoding] else []) with
    | some st => ({ laceFirst l with err := some st, data := [] }, laceDisagrees l)
    | none => (laceJoined l sweep, false)) := rfl
  rw [hunfold, hworst]
  cases hup : laceErrUp l with
  | none => simp [laceDisagrees_of_laceErrUp_none hup]
  | some st => simp

theorem laceCombine_snd (sweep : Nat) : (laceCombine sweep l).2 = laceDisagrees l := by
  rw [laceCombine_eq herr]

/-- A link error changes nothing where an error goes up already: ECC_UNCORRECTED ranks last (R243). -/
theorem laceUpsetMsg_laceCombine (sweep upset : Nat) : laceUpsetMsg upset (laceCombine sweep l).1 = laceFormed l sweep upset := by
  rw [laceCombine_eq herr, laceUpsetMsg, laceFormed]
  by_cases hupset : upset = 2
  · cases hup : laceErrUp l with
    | none => simp [hupset, laceJoined_err, laceFirst_err_of_laceErrUp_none herr hup, worstLaceErr]
    | some st =>
      have hrank := laceErrRank_le_eccUncorrected st
      simp [hupset, worstLaceErr, Nat.not_lt.2 hrank]
  · simp [hupset]

end

end Sys2Proof.Machine

/-! What an eyelet's step leaves (R214, R226, R232, R238, R242): contexts read back, what the tree's steps leave as it was, and the
three places an eyelet can stand at, below the apex, at the apex of the whole operation, and at the root of a device with a parent. -/

namespace Sys2Proof.Machine

/-! ### Contexts read back -/

@[simp] theorem State.ctx_setCtx_self (s : State) (p ch : Nat) (x : LaceCtx) : (s.setCtx p ch x).ctx p ch = x :=
  Sparse.get_set_self _ _ _ _

@[simp] theorem State.setCtx_setCtx (s : State) (p ch : Nat) (x y : LaceCtx) : (s.setCtx p ch x).setCtx p ch y = s.setCtx p ch y := by
  simp only [State.setCtx, Sparse.set_set]

theorem State.ctx_setCtx_of_ne (s : State) {p ch a b : Nat} (x : LaceCtx) (h : 4 * a + b ≠ 4 * p + ch) :
    (s.setCtx p ch x).ctx a b = s.ctx a b :=
  Sparse.get_set_of_ne _ _ _ h.symm

/-! ### What the tree's steps leave as it was -/

/-- The state with tiles, light counters, the tree and Vigil as another state has them. -/
def State.withLacingOf (u s : State) : State := { u with tiles := s.tiles, light := s.light, lacing := s.lacing, vigil := s.vigil }

/-- Two states that differ in tiles, light counters, the tree and Vigil alone. -/
def State.SameButLacing (s u : State) : Prop := u.withLacingOf s = s

theorem State.SameButLacing.trans {s u v : State} (h : s.SameButLacing u) (k : u.SameButLacing v) : s.SameButLacing v :=
  (congrArg (·.withLacingOf s) k : (v.withLacingOf u).withLacingOf s = u.withLacingOf s).trans h

section
variable {s u : State} (h : s.SameButLacing u)
include h

theorem State.SameButLacing.mem : u.mem = s.mem := (congrArg State.mem (show u.withLacingOf s = s from h) :)

theorem State.SameButLacing.apex (p ch : Nat) : u.apex p ch = s.apex p ch :=
  (congrArg (State.apex · p ch) (show u.withLacingOf s = s from h) :)

theorem State.SameButLacing.domainScope (p ch : Nat) : u.domainScope p ch = s.domainScope p ch :=
  (congrArg (State.domainScope · p ch) (show u.withLacingOf s = s from h) :)

theorem State.SameButLacing.childPorts : u.childPorts = s.childPorts :=
  (congrArg State.childPorts (show u.withLacingOf s = s from h) :)

theorem State.SameButLacing.linked (n : Nat) : u.linked n = s.linked n :=
  (congrArg (State.linked · n) (show u.withLacingOf s = s from h) :)

end

theorem State.sameButLacing_setCtx (s : State) (p ch : Nat) (x : LaceCtx) : s.SameButLacing (s.setCtx p ch x) := rfl

/-! ### Messages for the ports -/

/-- The state with more messages for the ports of the domain (R238). -/
def State.sendPorts (s : State) (out : List (Nat × Nat × Bool × LaceMsg)) : State :=
  { s with lacing := { s.lacing with toPorts := s.lacing.toPorts ++ out } }

theorem State.sendPorts_nil (s : State) : s.sendPorts [] = s := by
  simp only [State.sendPorts, List.append_nil]

/-- A message to the child devices, where the channel has any (R238). -/
def State.downMessages (s : State) (p ch : Nat) (m : LaceMsg) : List (Nat × Nat × Bool × LaceMsg) :=
  if s.domainScope p ch then s.childPorts.map (fun n => (n, 4 * p + ch, true, m)) else []

theorem State.SameButLacing.downMessages {s u : State} (h : s.SameButLacing u) (p ch : Nat) (m : LaceMsg) :
    u.downMessages p ch m = s.downMessages p ch m := by
  rw [State.downMessages, State.downMessages, h.domainScope, h.childPorts]

/-! ### The turn at the apex -/

/-- A message without an error that is one of a reproducible sum's (R226, R227). -/
abbrev laceSums (m : LaceMsg) : Prop := m.err = none ∧ (m.op = 1 ∨ m.op = 12)

/-- What goes down of a message that turns: at the apex (`final`) the value of a sum under its key; of a BCAST without a ROOT
zeros (R226, R232). -/
def LaceCtx.turnedMsg (x : LaceCtx) (m : LaceMsg) (final : Bool) : LaceMsg :=
  if laceSums m ∧ x.sweep ≠ 1 ∧ final = true then { m with data := List.zipWith sumrResult m.data (x.key.getD []) }
  else if m.op = 10 ∧ m.roots = 0 ∧ m.err = none then { m with data := List.replicate 8 0 } else m

/-- The context after the turn of a message: the key of a sum, or the result. -/
def LaceCtx.turned (x : LaceCtx) (m : LaceMsg) (final : Bool) : LaceCtx :=
  if laceSums m ∧ x.sweep = 1 then { x with sweep := 2, key := some m.data, passed := [], childMsgs := [], sentUp := false }
  else { x with result := some (x.turnedMsg m final), childMsgs := [], sentUp := false }

/-- A BCAST without exactly one ROOT counts a conflict at the apex (R232; log entry 92). -/
def State.countConflict (s : State) (p : Nat) (m : LaceMsg) (final : Bool) : State :=
  if final ∧ m.err = none ∧ m.op = 10 ∧ m.roots ≠ 1 then s.laceCount p 2 else s

theorem State.sameButLacing_countConflict (s : State) (p : Nat) (m : LaceMsg) (final : Bool) :
    s.SameButLacing (s.countConflict p m final) := by
  unfold State.countConflict
  split <;> rfl

/-- The key sweep of a sum, as the model tells it. -/
theorem laceKey_eq (m : LaceMsg) (sweep : Nat) :
    (m.err.isNone && (decide (m.op = 1) || decide (m.op = 12)) && decide (sweep = 1)) = decide (laceSums m ∧ sweep = 1) := by
  rw [Bool.eq_iff_iff]
  simp [laceSums]

/-- What goes down, as the model tells it. -/
theorem LaceCtx.turnedMsg_eq (x : LaceCtx) (m : LaceMsg) (final : Bool) : x.turnedMsg m final =
    let m' := if m.err.isNone && (decide (m.op = 1) || decide (m.op = 12)) && final &&
        !(m.err.isNone && (decide (m.op = 1) || decide (m.op = 12)) && decide (x.sweep = 1)) then
      { m with data := List.zipWith sumrResult m.data (x.key.getD []) } else m
    if m.op = 10 ∧ m.roots = 0 ∧ m.err = none then { m' with data := List.replicate 8 0 } else m' := by
  have hcond : (m.err.isNone && (decide (m.op = 1) || decide (m.op = 12)) && final &&
      !decide (laceSums m ∧ x.sweep = 1)) = decide (laceSums m ∧ x.sweep ≠ 1 ∧ final = true) := by
    rw [Bool.eq_iff_iff]
    simp only [laceSums, Bool.and_eq_true, Bool.or_eq_true, Bool.not_eq_true', decide_eq_true_eq, decide_eq_false_iff_not,
      Option.isNone_iff_eq_none]
    tauto
  dsimp only
  rw [laceKey_eq, hcond, LaceCtx.turnedMsg]
  by_cases h : laceSums m ∧ x.sweep ≠ 1 ∧ final = true
  · have hop : m.op ≠ 10 := by
      obtain ⟨⟨-, hop⟩, -⟩ := h
      omega
    rw [if_pos h, if_neg fun h' => hop h'.1, if_pos (decide_eq_true h)]
  · simp only [if_neg h, decide_eq_true_eq]

/-- Where a message turns, the children get what `turnedMsg` says, and the context becomes `turned` (R226, R232, R238). -/
theorem State.laceTurn_eq (s : State) (p ch : Nat) (m : LaceMsg) (final : Bool) :
    s.laceTurn p ch m final = ((s.countConflict p m final).sendPorts
      (s.downMessages p ch ((s.ctx p ch).turnedMsg m final))).setCtx p ch ((s.ctx p ch).turned m final) := by
  rw [← (s.sameButLacing_countConflict p m final).downMessages]
  have hmsg := (s.ctx p ch).turnedMsg_eq m final
  unfold State.laceTurn
  dsimp only at hmsg ⊢
  rw [← hmsg, laceKey_eq]
  unfold LaceCtx.turned
  by_cases hkey : laceSums m ∧ (s.ctx p ch).sweep = 1
  · rw [if_pos (decide_eq_true hkey), if_pos hkey]
    rfl
  · rw [if_neg (mt of_decide_eq_true hkey), if_neg hkey]
    rfl

theorem State.countConflict_setCtx (s : State) (p ch q : Nat) (x : LaceCtx) (m : LaceMsg) (final : Bool) :
    (s.setCtx p ch x).countConflict q m final = (s.countConflict q m final).setCtx p ch x := by
  unfold State.countConflict
  split <;> rfl

theorem State.sendPorts_setCtx (s : State) (p ch : Nat) (x : LaceCtx) (out : List (Nat × Nat × Bool × LaceMsg)) :
    (s.setCtx p ch x).sendPorts out = (s.sendPorts out).setCtx p ch x := rfl

theorem State.laceTurn_setCtx (s : State) (p ch : Nat) (x : LaceCtx) (m : LaceMsg) (final : Bool) :
    (s.setCtx p ch x).laceTurn p ch m final =
      ((s.countConflict p m final).sendPorts (s.downMessages p ch (x.turnedMsg m final))).setCtx p ch (x.turned m final) := by
  rw [State.laceTurn_eq, State.ctx_setCtx_self, State.countConflict_setCtx, State.sendPorts_setCtx, State.setCtx_setCtx,
    (s.sameButLacing_setCtx p ch x).downMessages]

theorem LaceCtx.turnedMsg_final (x : LaceCtx) (m : LaceMsg) : x.turnedMsg m true =
    if laceSums m ∧ x.sweep ≠ 1 then { m with data := List.zipWith sumrResult m.data (x.key.getD []) }
    else if m.op = 10 ∧ m.roots = 0 ∧ m.err = none then { m with data := List.replicate 8 0 } else m := by
  simp only [LaceCtx.turnedMsg, and_true]

theorem State.countConflict_final (s : State) (p : Nat) (m : LaceMsg) :
    s.countConflict p m true = if m.err = none ∧ m.op = 10 ∧ m.roots ≠ 1 then s.laceCount p 2 else s := by
  simp only [State.countConflict, true_and]

/-- A message with an error becomes the result as it is. -/
theorem State.laceTurn_lost (s : State) (p ch : Nat) (x : LaceCtx) {m : LaceMsg} {st : Status} (h : m.err = some st) :
    (s.setCtx p ch x).laceTurn p ch m false = (s.sendPorts (s.downMessages p ch m)).setCtx p ch
      { x with result := some m, childMsgs := [], sentUp := false } := by
  rw [State.laceTurn_setCtx]
  simp [State.countConflict, LaceCtx.turned, LaceCtx.turnedMsg, laceSums, h]

/-! ### The steps of an eyelet -/

/-- The cluster whose paths an eyelet below the two halves' stands on (R213). -/
def clusterOfEyelet (e : Nat) : Nat := if e < 512 then e / 64 else if e < 576 then (e - 512) / 8 else e - 576

/-- Link errors on the paths of an eyelet's children are counted in their cluster (R491). -/
def State.countUpset (s : State) (e upset : Nat) : State :=
  if e < 584 then s.laceUpset (clusterOfEyelet e) upset else s

/-- The first disagreement of an operation's children is counted (R222, R242). -/
def State.countMismatch (s : State) (p ch : Nat) (mis : Bool) : State :=
  if mis && !(s.ctx p ch).mismatch then s.laceCount p 1 else s

/-- The context after an eyelet has passed its message. -/
def LaceCtx.passing (x : LaceCtx) (e : Nat) (m : LaceMsg) (mis : Bool) : LaceCtx :=
  { x with active := true, passed := Sparse.set none x.passed e (some m), mismatch := x.mismatch || mis }

/-- What is counted when an eyelet combines its children's messages. -/
def State.countCombine (s : State) (p ch e upset : Nat) (mis : Bool) : State := (s.countUpset e upset).countMismatch p ch mis

/-- The state once an eyelet has passed its message on. -/
def State.passedOn (s : State) (p ch e upset : Nat) (l : List LaceMsg) : State :=
  (s.countCombine p ch e upset (laceDisagrees l)).setCtx p ch
    ((s.ctx p ch).passing e (laceFormed l (s.ctx p ch).sweep upset) (laceDisagrees l))

theorem State.countUpset_cases (s : State) (e upset : Nat) :
    s.countUpset e upset = s ∨ ∃ w, s.countUpset e upset = s.lightBump (clusterOfEyelet e) w 1 := by
  unfold State.countUpset State.laceUpset
  split
  · split
    · exact .inr ⟨_, rfl⟩
    · split
      · exact .inr ⟨_, rfl⟩
      · exact .inl rfl
  · exact .inl rfl

theorem State.sameButLacing_countUpset (s : State) (e upset : Nat) : s.SameButLacing (s.countUpset e upset) := by
  rcases s.countUpset_cases e upset with h | ⟨w, h⟩
  all_goals
    rw [h]
    rfl

theorem State.ctx_countUpset (s : State) (e upset p ch : Nat) : (s.countUpset e upset).ctx p ch = s.ctx p ch := by
  rcases s.countUpset_cases e upset with h | ⟨w, h⟩
  · rw [h]
  · rw [h]
    rfl

theorem State.sameButLacing_countCombine (s : State) (p ch e upset : Nat) (mis : Bool) :
    s.SameButLacing (s.countCombine p ch e upset mis) := by
  refine (s.sameButLacing_countUpset e upset).trans ?_
  unfold State.countCombine State.countMismatch
  split <;> rfl

theorem State.sameButLacing_passedOn (s : State) (p ch e upset : Nat) (l : List LaceMsg) :
    s.SameButLacing (s.passedOn p ch e upset l) :=
  (s.sameButLacing_countCombine p ch e upset _).trans rfl

theorem exec_eyeletCombine_of_idle {p : PartId} {ch : Chan} {e : Nat} {s : State} (upset : Nat)
    (h : s.eyeletWorks p.val ch.val e = false ∨ s.childMessages p.val ch.val e = none) :
    exec (.eyeletCombine p ch e upset) s = .next s := by
  have hexec : exec (.eyeletCombine p ch e upset) s = execEyeletCombine p ch e upset s := rfl
  rw [hexec, execEyeletCombine]
  rcases h with h | h
  · simp only [h, Bool.not_false, if_true]
  · simp only [h, ite_self]

/-- Where a message goes that an eyelet has passed on: up, to the turn, or to the parent's port. -/
def State.goOn (w : State) (p ch e parent : Nat) (m : LaceMsg) : Host.Outcome State Fault Refusal :=
  if e ≠ w.apex p ch then .next w
  else if !(w.domainScope p ch) || parent = 255 then .next (w.laceTurn p ch m true)
  else if !(w.linked parent) then .next (w.laceTurn p ch { m with err := some .linkDown, data := [] } false)
  else .next ((w.setCtx p ch { w.ctx p ch with sentUp := true }).sendPorts [(parent, 4 * p + ch, false, m)])

section
variable {p : PartId} {ch : Chan} {e upset : Nat} {s : State} {l : List LaceMsg}
  (hworks : s.eyeletWorks p.val ch.val e = true) (hl : s.childMessages p.val ch.val e = some l)
  (herr : ∀ k ∈ l, ∀ st, k.err = some st → st ∈ laceErrOrder)

include hworks hl herr

theorem exec_eyeletCombine_of_works : exec (.eyeletCombine p ch e upset) s = (s.passedOn p.val ch.val e upset l).goOn p.val ch.val e
    (s.obj 0x3200 1 255) (laceFormed l (s.ctx p.val ch.val).sweep upset) := by
  have hexec : exec (.eyeletCombine p ch e upset) s = execEyeletCombine p ch e upset s := rfl
  rw [hexec, execEyeletCombine, hworks, hl, State.passedOn, State.countCombine, ← s.ctx_countUpset e upset,
    ← laceUpsetMsg_laceCombine herr, ← laceCombine_snd herr ((s.countUpset e upset).ctx p.val ch.val).sweep]
  rfl

/-- Below the apex the message goes up (R225). -/
theorem exec_eyeletCombine_of_ne_apex (he : e ≠ s.apex p.val ch.val) :
    exec (.eyeletCombine p ch e upset) s = .next (s.passedOn p.val ch.val e upset l) := by
  rw [exec_eyeletCombine_of_works hworks hl herr, State.goOn, (s.sameButLacing_passedOn ..).apex, if_pos he]

/-- At the apex of the whole operation it turns (R226, R232). -/
theorem exec_eyeletCombine_of_apex (he : e = s.apex p.val ch.val) (hroot : s.domainScope p.val ch.val = false ∨ s.obj 0x3200 1 255 = 255) :
    exec (.eyeletCombine p ch e upset) s = .next ((s.passedOn p.val ch.val e upset l).laceTurn p.val ch.val
      (laceFormed l (s.ctx p.val ch.val).sweep upset) true) := by
  have hcond : (!s.domainScope p.val ch.val || decide (s.obj 0x3200 1 255 = 255)) = true := by simpa using hroot
  have hsame := s.sameButLacing_passedOn p.val ch.val e upset l
  rw [exec_eyeletCombine_of_works hworks hl herr, State.goOn, hsame.apex, hsame.domainScope, if_neg (not_not.2 he), if_pos hcond]

/-- At the root of a device with a parent it leaves by the parent's port, or ends LINK_DOWN (R238, R243). -/
theorem exec_eyeletCombine_of_deviceRoot (he : e = s.apex p.val ch.val) (hdomain : s.domainScope p.val ch.val = true)
    (hparent : s.obj 0x3200 1 255 ≠ 255) :
    exec (.eyeletCombine p ch e upset) s = .next (
      let w := s.passedOn p.val ch.val e upset l
      let m := laceFormed l (s.ctx p.val ch.val).sweep upset
      if s.linked (s.obj 0x3200 1 255) then
        (w.setCtx p.val ch.val { w.ctx p.val ch.val with sentUp := true }).sendPorts [(s.obj 0x3200 1 255, 4 * p.val + ch.val, false, m)]
      else w.laceTurn p.val ch.val { m with err := some .linkDown, data := [] } false) := by
  have hcond : (!s.domainScope p.val ch.val || decide (s.obj 0x3200 1 255 = 255)) = false := by simp [hdomain, hparent]
  have hsame := s.sameButLacing_passedOn p.val ch.val e upset l
  rw [exec_eyeletCombine_of_works hworks hl herr, State.goOn, hsame.apex, hsame.domainScope, hsame.linked, if_neg (not_not.2 he), hcond,
    if_neg Bool.false_ne_true]
  cases s.linked (s.obj 0x3200 1 255) <;> rfl

end

end Sys2Proof.Machine

/-! How a Lacing operation ends (R221, R222, R240), with its result or without, and the obligation of the combine and the ends (O33). -/

namespace Sys2Proof.Machine

/-! ### The next operation of a context -/

/-- What R221 asks of context `y` when the operation of context `p`, `ch` has ended in state `s`: one more has ended, and the messages
held open the next. -/
structure State.NextOp (s : State) (p ch : Nat) (y : LaceCtx) : Prop where
  ended : y.ended = ((s.ctx p ch).ended + 1) % 2 ^ 32
  result : y.result = none
  closed : (s.ctx p ch).heldNext = [] → y.active = false
  opened : (s.ctx p ch).heldNext ≠ [] → y.active = true ∧ y.start = s.calends ∧ y.expected = s.members p ch ∧
    ∀ t m, Sparse.get none (s.ctx p ch).heldNext t = some m → Sparse.get none y.arrived t = some m

/-- Messages added where there were none leave those that were there. -/
theorem Sparse.get_foldl_set_of_some {ts : List Nat} {msgs : Sparse (Option LaceMsg)} {t : Nat} {m : LaceMsg} (d : Option LaceMsg)
    (hts : t ∉ ts) (h : Sparse.get none msgs t = some m) :
    Sparse.get none (ts.foldl (fun m t => Sparse.set none m t d) msgs) t = some m := by
  induction ts generalizing msgs with
  | nil => exact h
  | cons a r ih =>
    obtain ⟨hne, hr⟩ := not_or.1 (List.mem_cons.not.1 hts)
    exact ih hr (by rw [Sparse.get_set_of_ne _ _ _ (Ne.symm hne), h])

theorem State.laceFinish_nextOp (s : State) (p ch : Nat) : ∃ y, s.laceFinish p ch = s.setCtx p ch y ∧ s.NextOp p ch y := by
  unfold State.laceFinish
  dsimp only
  split
  case isTrue hnone => exact ⟨_, rfl, rfl, rfl, fun _ => rfl, fun hsome => absurd hnone hsome⟩
  case isFalse hsome =>
    refine ⟨_, State.setCtx_setCtx .., ?_, rfl, fun hnone => absurd hnone hsome, fun _ => ⟨rfl, rfl, rfl, fun t m hm => ?_⟩⟩
    · rw [State.ctx_setCtx_self]
    · refine Sparse.get_foldl_set_of_some _ (fun ht => ?_) hm
      have hlate := (List.mem_filter.1 ht).2
      rw [hm] at hlate
      cases hlate

theorem exec_laceOpEnd_of_delivered {p : PartId} {ch : Chan} {s : State} (hactive : (s.ctx p.val ch.val).active = true)
    (hresult : (s.ctx p.val ch.val).result.isSome = true)
    (hall : ∀ t ∈ (s.ctx p.val ch.val).expected, s.laceAwaits p.val ch.val t = false) :
    exec (.laceOpEnd p ch) s = .next (s.laceFinish p.val ch.val) := by
  have hexec : exec (.laceOpEnd p ch) s = execLaceOpEnd p ch s := rfl
  have hdelivered : s.laceAllDelivered p.val ch.val = true := List.all_eq_true.2 fun t ht => by rw [hall t ht]; rfl
  rw [hexec, execLaceOpEnd]
  exact if_pos ⟨hactive, hresult, hdelivered⟩

/-! ### Members of an operation that ends without a result -/

/-- The tile after its LACE of a channel has ended with a status (R240). -/
def Tile.laceFaulted (x : Tile) (ch : Nat) (st : Status) : Tile :=
  (x.laces.find? (fun l => l.ch = ch)).elim x fun w =>
    { x with laces := x.laces.filter (fun l => l.ch ≠ ch), asyncFaults := x.asyncFaults ++ [(w.seq, w.index, st)] }

theorem Tile.laceFaulted_of_find? {x : Tile} {ch : Nat} {w : LaceWait} (st : Status) (h : x.laces.find? (fun l => l.ch = ch) = some w) :
    x.laceFaulted ch st =
      { x with laces := x.laces.filter (fun l => l.ch ≠ ch), asyncFaults := x.asyncFaults ++ [(w.seq, w.index, st)] } := by
  rw [Tile.laceFaulted, h]
  rfl

/-- A tile without a LACE on the channel is left alone; so a second fault of the same LACE changes nothing. -/
theorem Tile.laceFaulted_laceFaulted (x : Tile) (ch : Nat) (st : Status) : (x.laceFaulted ch st).laceFaulted ch st = x.laceFaulted ch st := by
  cases hfind : x.laces.find? (fun l => l.ch = ch) with
  | none =>
    have hself : x.laceFaulted ch st = x := by rw [Tile.laceFaulted, hfind]; rfl
    rw [hself, hself]
  | some w =>
    have hgone : (x.laces.filter (fun l => l.ch ≠ ch)).find? (fun l => l.ch = ch) = none :=
      List.find?_eq_none.2 fun l hl => by simpa using (List.mem_filter.1 hl).2
    rw [Tile.laceFaulted_of_find? st hfind, Tile.laceFaulted, hgone]
    rfl

/-- One member faults with a status, which counts in its cluster's light word 7 if it is a timeout (R240). -/
def State.laceFault (ch : Nat) (st : Status) (s : State) (t : Nat) : State :=
  let x := Sparse.get ({} : Tile) s.tiles t
  match x.laces.find? (fun l => l.ch = ch) with
  | none => s
  | some w =>
    let y := { x with laces := x.laces.filter (fun l => l.ch ≠ ch), asyncFaults := x.asyncFaults ++ [(w.seq, w.index, st)] }
    let u := { s with tiles := Sparse.set {} s.tiles t y }
    if st = .laceTimeout then u.lightBump (clusterOfTile t) 7 1 else u

theorem State.laceFault_tile (ch : Nat) (st : Status) (s : State) (t : Nat) (v : TileId) :
    (s.laceFault ch st t).tile v = if t = v.val then (s.tile v).laceFaulted ch st else s.tile v := by
  have hset : ∀ u : State, u.tiles = Sparse.set {} s.tiles t ((Sparse.get {} s.tiles t).laceFaulted ch st) →
      u.tile v = if t = v.val then (s.tile v).laceFaulted ch st else s.tile v := fun u hu => by
    rw [State.tile, hu, Sparse.get_set]
    split
    case isTrue h => rw [h]; rfl
    case isFalse => rfl
  unfold State.laceFault
  dsimp only
  split
  case h_1 hnone =>
    split
    case isTrue h => subst h; rw [Tile.laceFaulted, State.tile, hnone]; rfl
    case isFalse => rfl
  case h_2 w hsome =>
    rw [← Tile.laceFaulted_of_find? st hsome]
    split <;> exact hset _ rfl

theorem State.laceFault_same (ch : Nat) (st : Status) (s : State) (t : Nat) :
    s.SameButLacing (s.laceFault ch st t) ∧ (s.laceFault ch st t).lacing = s.lacing := by
  unfold State.laceFault
  dsimp only
  split
  · exact ⟨rfl, rfl⟩
  · split <;> exact ⟨rfl, rfl⟩

/-- The members of a context that wait for the open operation have faulted. -/
def State.membersFaulted (s : State) (p ch : Nat) (st : Status) : State :=
  ((s.ctx p ch).expected.filter (s.laceAwaits p ch)).foldl (State.laceFault ch st) s

theorem State.foldl_laceFault_tile (ch : Nat) (st : Status) (l : List Nat) (s : State) (v : TileId) :
    (l.foldl (State.laceFault ch st) s).tile v = if v.val ∈ l then (s.tile v).laceFaulted ch st else s.tile v := by
  induction l generalizing s with
  | nil => rfl
  | cons t r ih =>
    rw [List.foldl_cons, ih, State.laceFault_tile]
    by_cases htv : t = v.val
    · simp [htv, Tile.laceFaulted_laceFaulted]
    · simp [htv, Ne.symm htv]

theorem State.membersFaulted_same (s : State) (p ch : Nat) (st : Status) :
    s.SameButLacing (s.membersFaulted p ch st) ∧ (s.membersFaulted p ch st).lacing = s.lacing :=
  foldl_related (R := fun s u : State => s.SameButLacing u ∧ u.lacing = s.lacing) (fun _ => ⟨rfl, rfl⟩)
    (fun h k => ⟨h.1.trans k.1, k.2.trans h.2⟩) (State.laceFault_same ch st) _ s

theorem State.membersFaulted_tile (s : State) (p ch : Nat) (st : Status) (v : TileId) : (s.membersFaulted p ch st).tile v =
    if v.val ∈ (s.ctx p ch).expected ∧ s.laceAwaits p ch v.val = true then (s.tile v).laceFaulted ch st else s.tile v := by
  rw [State.membersFaulted, State.foldl_laceFault_tile]
  simp only [List.mem_filter]

/-! ### The end of an operation for its whole context -/

/-- An operation that times out: its waiting members have faulted, its context goes on to the next operation, LACE_TIMEOUTS has grown
by one, and Vigil may have been triggered (R222, R240). -/
theorem State.laceTimesOut_eq (s : State) (p ch : Nat) : ∃ (y : LaceCtx) (v : Vigil),
    s.laceTimesOut p ch = { ((s.membersFaulted p ch .laceTimeout).setCtx p ch y).laceCount p 0 with vigil := v } ∧
      y.ended = ((s.ctx p ch).ended + 1) % 2 ^ 32 ∧ y.result = none := by
  have hctx : (s.membersFaulted p ch .laceTimeout).ctx p ch = s.ctx p ch := by
    rw [State.ctx, (s.membersFaulted_same p ch .laceTimeout).2]; rfl
  obtain ⟨y, hfinish, hnext⟩ := ((s.membersFaulted p ch .laceTimeout).setCtx p ch
    { (s.membersFaulted p ch .laceTimeout).ctx p ch with childMsgs := [] }).laceFinish_nextOp p ch
  have habandon : s.laceAbandon p ch .laceTimeout = (s.membersFaulted p ch .laceTimeout).setCtx p ch y := by
    rw [← State.setCtx_setCtx, ← hfinish]
    rfl
  have hended := hnext.ended
  rw [State.ctx_setCtx_self, hctx] at hended
  unfold State.laceTimesOut
  rw [habandon]
  dsimp only
  split
  · exact ⟨y, _, rfl, hended, hnext.result⟩
  · exact ⟨y, _, rfl, hended, hnext.result⟩

/-- The end messages of an operation: to the parent and the children of the domain, but for the port one came from (R238, R240). -/
def State.endMessages (s : State) (p ch : Nat) (skip : Option Nat) : List (Nat × Nat × Bool × LaceMsg) :=
  let parent := s.obj 0x3200 1 255
  let ports := if s.domainScope p ch then ((if parent = 255 then [] else [(parent, false)]) ++
    s.childPorts.map (fun n => (n, true))).filter (fun e => some e.1 ≠ skip) else []
  ports.map (fun e : Nat × Bool => (e.1, 4 * p + ch, e.2, laceErr .laceTimeout))

theorem State.laceEndOut_eq (s : State) (p ch : Nat) (skip : Option Nat) :
    s.laceEndOut p ch skip = s.sendPorts (s.endMessages p ch skip) := by
  unfold State.laceEndOut State.endMessages
  dsimp only
  split
  · rfl
  · rw [List.map_nil, State.sendPorts_nil]

theorem exec_laceTimeout_of_due {p : PartId} {ch : Chan} {s : State} (hhung : (s.partition p.val).state ≠ .hung)
    (hactive : (s.ctx p.val ch.val).active = true) (htimed : (s.ctx p.val ch.val).timed = true)
    (hwaits : (s.ctx p.val ch.val).result = none ∨ ∃ t ∈ (s.ctx p.val ch.val).expected, s.laceAwaits p.val ch.val t = true) :
    exec (.laceTimeout p ch) s = .next ((s.sendPorts (s.endMessages p.val ch.val none)).laceTimesOut p.val ch.val) := by
  have hexec : exec (.laceTimeout p ch) s = execLaceTimeout p ch s := rfl
  have hopen : (!(s.laceAllDelivered p.val ch.val && (s.ctx p.val ch.val).result.isSome)) = true := by
    rcases hwaits with hnone | ⟨t, ht, hawaits⟩
    · rw [hnone]
      simp
    · have hall : s.laceAllDelivered p.val ch.val = false := List.all_eq_false.2 ⟨t, ht, by simp [hawaits]⟩
      rw [hall]
      rfl
  rw [hexec, execLaceTimeout, State.laceEndOut_eq]
  exact if_pos ⟨hhung, hactive, htimed, hopen⟩

/-- An end message is passed on, and ends the operation that is open here (R240). -/
theorem exec_domainEndMessage_of_domainScope {p : PartId} {ch : Chan} (n : NewenId) {s : State} (h : s.domainScope p.val ch.val = true) :
    exec (.domainEndMessage p ch n) s = .next (if (s.ctx p.val ch.val).active then
      (s.sendPorts (s.endMessages p.val ch.val (some n.val))).laceTimesOut p.val ch.val
      else s.sendPorts (s.endMessages p.val ch.val (some n.val))) := by
  have hexec : exec (.domainEndMessage p ch n) s = execDomainEndMessage p ch n s := rfl
  rw [hexec, execDomainEndMessage, if_pos h, State.laceEnded, State.laceEndOut_eq]
  rfl

/-- Where the channel has no domain, an end message does nothing, and there is no port to pass one on by. -/
theorem exec_domainEndMessage_of_not_domainScope {p : PartId} {ch : Chan} (n : NewenId) {s : State}
    (h : s.domainScope p.val ch.val = false) :
    exec (.domainEndMessage p ch n) s = .next (s.sendPorts (s.endMessages p.val ch.val (some n.val))) := by
  have hexec : exec (.domainEndMessage p ch n) s = execDomainEndMessage p ch n s := rfl
  rw [hexec, execDomainEndMessage, ← State.laceEndOut_eq, State.laceEndOut, if_neg (by simp [h]), if_neg (by simp [h])]

/-- What is asked of a state `u` in which the operation of a context of `s` has ended for the whole context, `sent` being the end
messages (R221, R222, R240). -/
structure State.TimedOut (s : State) (p ch : Nat) (sent : List (Nat × Nat × Bool × LaceMsg)) (u : State) : Prop where
  ended : (u.ctx p ch).ended = ((s.ctx p ch).ended + 1) % 2 ^ 32
  result : (u.ctx p ch).result = none
  counter : Sparse.get 0 u.lacing.counters (3 * p) = (Sparse.get 0 s.lacing.counters (3 * p) + 1) % 2 ^ 32
  mem : u.mem = s.mem
  toPorts : u.lacing.toPorts = s.lacing.toPorts ++ sent
  tile : ∀ t : TileId, u.tile t =
    if t.val ∈ (s.ctx p ch).expected ∧ s.laceAwaits p ch t.val = true then (s.tile t).laceFaulted ch .laceTimeout else s.tile t

theorem State.timedOut_laceTimesOut (s : State) (p ch : Nat) (sent : List (Nat × Nat × Bool × LaceMsg)) :
    s.TimedOut p ch sent ((s.sendPorts sent).laceTimesOut p ch) := by
  obtain ⟨y, v, hout, hended, hresult⟩ := (s.sendPorts sent).laceTimesOut_eq p ch
  obtain ⟨hsame, hlacing⟩ := (s.sendPorts sent).membersFaulted_same p ch .laceTimeout
  have hctx : ((s.sendPorts sent).laceTimesOut p ch).ctx p ch = y := by
    rw [hout]
    exact State.ctx_setCtx_self ..
  refine ⟨by rw [hctx, hended]; rfl, by rw [hctx, hresult], ?counter, ?mem, ?toPorts, fun t => ?tile⟩
  case counter =>
    rw [hout]
    refine (Sparse.get_set_self ..).trans ?_
    rw [State.setCtx, hlacing]
    rfl
  case mem =>
    rw [hout]
    exact hsame.mem
  case toPorts =>
    rw [hout]
    exact congrArg Lacing.toPorts hlacing
  case tile =>
    rw [hout]
    exact (s.sendPorts sent).membersFaulted_tile p ch .laceTimeout t

/-! ### The obligation -/

theorem State.domainScope_of_passesIdentity {s : State} {p ch : Nat} (h : s.passesIdentity p ch = true) : s.domainScope p ch = true := by
  simp only [State.passesIdentity, Bool.and_eq_true] at h
  obtain ⟨⟨⟨hdomain, -⟩, -⟩, -⟩ := h
  exact hdomain

theorem State.eyeletWorks_of_open {s : State} {p ch e : Nat} (hhung : (s.partition p).state ≠ .hung) (he : e ≤ 586)
    (hopen : (s.ctx p ch).active = true ∨ (e = 586 ∧ s.passesIdentity p ch = true)) (hresult : (s.ctx p ch).result = none)
    (hpassed : Sparse.get none (s.ctx p ch).passed e = none)
    (hlevel : eyeletLevel e < eyeletLevel (s.apex p ch) ∨ e = s.apex p ch)
    (hbelow : (s.ctx p ch).expected.any (belowEyelet e) = true ∨ (e = 586 ∧ s.domainScope p ch = true)) : s.eyeletWorks p ch e = true := by
  have hle : eyeletLevel e ≤ eyeletLevel (s.apex p ch) := hlevel.elim Nat.le_of_lt fun h => h ▸ Nat.le_refl _
  have hopen' : (s.ctx p ch).active = true ∨ (e = 586 ∧ s.domainScope p ch = true) ∧ s.passesIdentity p ch = true := by
    refine hopen.imp_right fun ⟨h586, hidentity⟩ => ⟨⟨h586, State.domainScope_of_passesIdentity hidentity⟩, hidentity⟩
  simp only [State.eyeletWorks, Bool.and_eq_true, Bool.or_eq_true, decide_eq_true_eq, hresult, hpassed, Option.isNone_none, ne_eq,
    hhung, not_false_eq_true, he, hle, hopen', hbelow.symm, and_true]

theorem State.countUpset_eq (s : State) (e upset : Nat) : s.countUpset e upset =
    if e < 584 ∧ upset = 1 then s.lightBump (clusterOfEyelet e) 4 1
    else if e < 584 ∧ upset = 2 then s.lightBump (clusterOfEyelet e) 5 1 else s := by
  unfold State.countUpset State.laceUpset
  by_cases he : e < 584
  · simp only [he, if_true, true_and]
  · simp only [he, if_false, false_and]

theorem State.countCombine_eq (s : State) (p ch e upset : Nat) (mis : Bool) : s.countCombine p ch e upset mis =
    if mis = true ∧ (s.ctx p ch).mismatch = false then (s.countUpset e upset).laceCount p 1 else s.countUpset e upset := by
  unfold State.countCombine State.countMismatch
  rw [State.ctx_countUpset]
  simp only [Bool.and_eq_true, Bool.not_eq_true']

/-- Settles O33: the combine by the three places an eyelet can stand at, the ends by what `laceFinish` and `laceTimesOut` leave. -/
theorem lacingOperationsCombineAndEnd : Obligations.LacingOperationsCombineAndEnd := by
  unfold Obligations.LacingOperationsCombineAndEnd
  refine ⟨?combine, fun p ch e upset s h => exec_eyeletCombine_of_idle upset h, fun p ch s hactive hresult hall => ?opEnd,
    fun p ch n s i skip => ?timeout⟩
  case combine =>
    intro p ch e upset s l x parent hhung he hopen hresult hpassed hlevel hbelow hl order herr own first mis err joined m c s1 s2 y send down
      sums out
    have hworks := State.eyeletWorks_of_open hhung he hopen hresult hpassed hlevel hbelow
    have hs2 : s.countCombine p.val ch.val e upset mis = s2 := by
      rw [State.countCombine_eq, State.countUpset_eq]
      rfl
    have hpassedOn : s.passedOn p.val ch.val e upset l = s2.setCtx p.val ch.val y := by
      rw [← hs2]
      rfl
    have hdown : ∀ r, s2.downMessages p.val ch.val r = down r := fun r => by
      rw [← hs2, (s.sameButLacing_countCombine ..).downMessages]
      rfl
    refine ⟨fun hne => ?below, fun hapex hroot => ?apex, fun hapex hdomain hparent => ?deviceRoot⟩
    case below =>
      rw [exec_eyeletCombine_of_ne_apex hworks hl herr hne, hpassedOn]
    case apex =>
      rw [exec_eyeletCombine_of_apex hworks hl herr hapex hroot, hpassedOn, State.laceTurn_setCtx, hdown, LaceCtx.turned,
        LaceCtx.turnedMsg_final, State.countConflict_final]
      rfl
    case deviceRoot =>
      rw [exec_eyeletCombine_of_deviceRoot hworks hl herr hapex hdomain hparent, hpassedOn]
      dsimp only
      rw [State.laceTurn_lost _ _ _ _ rfl, hdown, State.ctx_setCtx_self, State.setCtx_setCtx, State.sendPorts_setCtx]
      rfl
  case opEnd =>
    obtain ⟨y, hfinish, hnext⟩ := s.laceFinish_nextOp p.val ch.val
    rw [exec_laceOpEnd_of_delivered hactive hresult hall, hfinish]
    refine ⟨_, rfl, ?_⟩
    rw [State.ctx_setCtx_self]
    exact ⟨hnext.ended, hnext.result, hnext.closed, hnext.opened, rfl, rfl, fun a b hne => s.ctx_setCtx_of_ne y hne⟩
  case timeout =>
    intro parent ports sent
    refine ⟨fun hi hactive => ?ends, fun hi hskip hidle => ?passes⟩
    case ends =>
      have hexec : exec i s = .next ((s.sendPorts sent).laceTimesOut p.val ch.val) := by
        rcases hi with ⟨rfl, hskip, hhung, htimed, hwaits⟩ | ⟨rfl, hskip, hdomain⟩
        · subst hskip
          exact exec_laceTimeout_of_due hhung hactive htimed hwaits
        · subst hskip
          exact (exec_domainEndMessage_of_domainScope n hdomain).trans (by rw [if_pos hactive]; rfl)
      have hout := s.timedOut_laceTimesOut p.val ch.val sent
      refine ⟨_, hexec, hout.ended, hout.result, hout.counter, hout.mem, hout.toPorts, fun t w ht hawaits hfind => ?hit, fun t hnot => ?other⟩
      case hit => rw [hout.tile, if_pos ⟨ht, hawaits⟩, Tile.laceFaulted_of_find? _ hfind]
      case other =>
        rw [hout.tile, if_neg]
        rintro ⟨ht, hawaits⟩
        rcases hnot with hnot | hnot
        · exact hnot ht
        · exact absurd hawaits (by simp [hnot])
    case passes =>
      subst hi hskip
      cases hdomain : s.domainScope p.val ch.val with
      | true => exact (exec_domainEndMessage_of_domainScope n hdomain).trans (by rw [hidle]; rfl)
      | false => exact exec_domainEndMessage_of_not_domainScope n hdomain

end Sys2Proof.Machine

/-! What a packet sent depends on, and what it leaves as it was (R253, R258, R289): the route tables alone decide its way, and the
sending of any packet writes packets in flight and the counts of the network alone. -/

namespace Sys2Proof.Machine

/-! ### The route tables -/

/-- Two states with the same route tables: links to avoid, Welt lanes, tiles left out, and whether the tables are loaded. Unlike
`State.sameWays`, the rest of the network may differ. -/
structure State.SameTables (r s : State) : Prop where
  avoided : r.avoided = s.avoided
  weltFailed : r.weltFailed = s.weltFailed
  part : r.part = s.part
  selfTestFail : r.selfTestFail = s.selfTestFail
  disabledTiles : r.disabledTiles = s.disabledTiles
  loaded : r.routesLoaded = s.routesLoaded

theorem State.SameTables.trans {r s u : State} (h : r.SameTables s) (k : s.SameTables u) : r.SameTables u :=
  ⟨h.avoided.trans k.avoided, h.weltFailed.trans k.weltFailed, h.part.trans k.part, h.selfTestFail.trans k.selfTestFail,
    h.disabledTiles.trans k.disabledTiles, h.loaded.trans k.loaded⟩

theorem State.sameTables_setPorch (s : State) (d : Nat) (x : Porch) : (s.setPorch d x).SameTables s := ⟨rfl, rfl, rfl, rfl, rfl, rfl⟩

theorem State.sameTables_porchCount (s : State) (a d v : Nat) : (s.porchCount a d v).SameTables s := ⟨rfl, rfl, rfl, rfl, rfl, rfl⟩

theorem State.sameTables_setDomain (s : State) (d : Nat) (x : DomainState) : (s.setDomain d x).SameTables s :=
  ⟨rfl, rfl, rfl, rfl, rfl, rfl⟩

section
variable {r s : State} (h : r.SameTables s)
include h

theorem State.SameTables.leftOut : r.leftOut = s.leftOut := by
  funext n
  rw [State.leftOut, State.enabled, h.part, h.selfTestFail, h.disabledTiles]
  rfl

theorem State.SameTables.reach (c n : Nat) : r.reach c n = s.reach c n := by
  have hnext : r.reachNext = s.reachNext := by
    funext c x
    rw [State.reachNext, h.avoided]
    rfl
  induction n with
  | zero => rfl
  | succ n ih =>
    funext seen front
    rw [State.reach, hnext, ih, State.reach]

theorem State.SameTables.meshCodes : r.meshCodes = s.meshCodes := by
  funext c y x y' x'
  rw [State.meshCodes, State.meshCodes, h.avoided, h.reach]

theorem State.SameTables.weltBundle : r.weltBundle = s.weltBundle := by
  funext dir row
  rw [State.weltBundle, State.weltMap, h.part, h.weltFailed]
  rfl

theorem State.SameTables.switchWay (k : Nat) : r.switchWay k = s.switchWay k := by
  induction k with
  | zero => rfl
  | succ k ih =>
    funext b d
    rw [State.switchWay, State.switchWay, h.avoided, h.weltBundle, ih]

theorem State.SameTables.routerOut : r.routerOut = s.routerOut := by
  funext c y x
  rw [State.routerOut, h.avoided]
  rfl

theorem State.SameTables.nearRoute : r.nearRoute = s.nearRoute := by
  funext a b
  rw [State.nearRoute, State.nearRoute, h.routerOut, h.meshCodes]

theorem State.SameTables.farRoute : r.farRoute = s.farRoute := by
  funext a b
  have hout : r.waysOut = s.waysOut := by
    funext c y x
    rw [State.waysOut, State.waysOut, h.avoided, h.meshCodes]
  have hin : r.waysIn = s.waysIn := by
    funext c y x
    rw [State.waysIn, State.waysIn, h.avoided, h.meshCodes]
  rw [State.farRoute, State.farRoute, hout, hin, h.routerOut, h.switchWay]

theorem State.SameTables.routeVia (a b : Nat) (mesh : Option Bool) : r.routeVia a b mesh = s.routeVia a b mesh := by
  unfold State.routeVia
  rw [h.leftOut, h.nearRoute, h.farRoute]

/-- The packet that leaves a node depends on the route tables alone. -/
theorem State.SameTables.emitPacket_flights (hflights : r.net.flights = s.net.flights) (mesh : Option Bool) (p : Packet) :
    (r.emitPacket mesh p).net.flights = (s.emitPacket mesh p).net.flights := by
  rw [State.emitPacket, State.emitPacket, h.loaded, h.routeVia]
  split
  · exact hflights
  · cases s.routeVia p.src.toNat p.dest.toNat mesh with
    | none => exact hflights
    | some way =>
      dsimp only
      split <;> exact congrArg (· ++ _) hflights

theorem State.SameTables.answerFor_flights (hflights : r.net.flights = s.net.flights) (p : Packet) (mesh : Bool) (st : Status) :
    (r.answerFor p mesh st).net.flights = (s.answerFor p mesh st).net.flights := by
  rw [State.answerFor, State.answerFor]
  split
  · exact h.emitPacket_flights hflights _ _
  · split
    · exact h.emitPacket_flights hflights _ _
    · exact hflights

end

/-! ### What the sending of packets leaves as it was -/

/-- The state with packets in flight and the counts of senders, errors and discards as another state has them. -/
def State.withSendingOf (u s : State) : State :=
  { u with net := { u.net with flights := s.net.flights, initiators := s.net.initiators, errors := s.net.errors,
                               shimDiscards := s.net.shimDiscards } }

/-- Two states that differ in packets in flight and the counts of senders, errors and discards alone. -/
def State.SameButSending (s u : State) : Prop := u.withSendingOf s = s

theorem State.SameButSending.refl (s : State) : s.SameButSending s := rfl

theorem State.SameButSending.trans {s u v : State} (h : s.SameButSending u) (k : u.SameButSending v) : s.SameButSending v :=
  (congrArg (·.withSendingOf s) k : (v.withSendingOf u).withSendingOf s = u.withSendingOf s).trans h

section
variable {s u : State} (h : s.SameButSending u)
include h

theorem State.SameButSending.mem : u.mem = s.mem := (congrArg State.mem (show u.withSendingOf s = s from h) :)

theorem State.SameButSending.tiles : u.tiles = s.tiles := (congrArg State.tiles (show u.withSendingOf s = s from h) :)

theorem State.SameButSending.power : u.power = s.power := (congrArg State.power (show u.withSendingOf s = s from h) :)

theorem State.SameButSending.vigil : u.vigil = s.vigil := (congrArg State.vigil (show u.withSendingOf s = s from h) :)

theorem State.SameButSending.porchCounts : u.net.porchCounts = s.net.porchCounts :=
  (congrArg (·.net.porchCounts) (show u.withSendingOf s = s from h) :)

theorem State.SameButSending.isolated : u.net.isolated = s.net.isolated :=
  (congrArg (·.net.isolated) (show u.withSendingOf s = s from h) :)

theorem State.SameButSending.domain (d : Nat) : u.domain d = s.domain d :=
  (congrArg (State.domain · d) (show u.withSendingOf s = s from h) :)

theorem State.SameButSending.porch (d : Nat) : u.porch d = s.porch d :=
  (congrArg (State.porch · d) (show u.withSendingOf s = s from h) :)

theorem State.SameButSending.target (n : Nat) : u.target n = s.target n :=
  (congrArg (State.target · n) (show u.withSendingOf s = s from h) :)

theorem State.SameButSending.shimActive (n : Nat) : u.shimActive n = s.shimActive n :=
  (congrArg (State.shimActive · n) (show u.withSendingOf s = s from h) :)

theorem State.SameButSending.partOfCluster (c : Nat) : u.partOfCluster c = s.partOfCluster c :=
  (congrArg (State.partOfCluster · c) (show u.withSendingOf s = s from h) :)

end

theorem State.sameButSending_emitPacket (s : State) (mesh : Option Bool) (p : Packet) : s.SameButSending (s.emitPacket mesh p) := by
  unfold State.emitPacket
  split
  · rfl
  · cases s.routeVia p.src.toNat p.dest.toNat mesh with
    | none => rfl
    | some way =>
      dsimp only
      split <;> rfl

theorem State.sameButSending_answerFor (s : State) (p : Packet) (mesh : Bool) (st : Status) :
    s.SameButSending (s.answerFor p mesh st) := by
  unfold State.answerFor
  dsimp only
  split
  · exact s.sameButSending_emitPacket _ _
  · split
    · exact s.sameButSending_emitPacket _ _
    · rfl

/-- Packets answered one after another, as by their shim. -/
theorem State.sameButSending_shimAnswers (s : State) (l : List (Packet × Bool)) :
    s.SameButSending (l.foldl (fun s p => s.shimAnswer p.1 p.2) s) :=
  foldl_related .refl .trans (fun w p => w.sameButSending_answerFor p.1 p.2 .targetIsolated) l s

end Sys2Proof.Machine

/-! A node declared dead (R288 to R291): what its isolation leaves, and the obligation of its triggers (O40). -/

namespace Sys2Proof.Machine

theorem eq_of_nodeKind_mgmt {n : Nat} (h : nodeKind n = some .mgmt) : n = 0x2040 := by
  unfold nodeKind at h
  grind

theorem eq_of_nodeKind_vigil {n : Nat} (h : nodeKind n = some .vigil) : n = 0x2051 := by
  unfold nodeKind at h
  grind

/-- Every node of the device but the management core and Vigil can be declared dead (R288, R291). -/
theorem canIsolate_of_node {n : Nat} (hnode : (nodeKind n).isSome = true) (hmgmt : n ≠ 0x2040) (hvigil : n ≠ 0x2051) :
    canIsolate n = true := by
  unfold canIsolate
  split
  · next h => exact absurd (eq_of_nodeKind_mgmt h) hmgmt
  · next h => exact absurd (eq_of_nodeKind_vigil h) hvigil
  · next h => simp [h] at hnode
  · rfl

/-! ### The isolation of a node -/

/-- A target as its isolation leaves it (R288, R290). -/
def Target.dead (x : Target) : Target :=
  { x with shim := true, notes := x.shimMap.filterMap (fun e => e.2.map (fun tag => (e.1, tag))), shimMap := [], intake := [],
           pullUsed := 0, stallSince := none }

/-- The state with a node's shim active and the node among the isolated ones. -/
def State.isolate (s : State) (n cause : Nat) : State :=
  let s := s.setTarget n (s.target n).dead
  { s with net := { s.net with isolated := s.net.isolated ++ [(n, cause)] } }

/-- The state with the isolated node's packets out of their porch and its event written (R289, R495). -/
def State.shut (s : State) (n cause : Nat) : State := ((s.isolate n cause).emptyPorch n).svcEvent mgmtNode 0x25 n

/-- A dead sequencer of a partition triggers Vigil (R291). -/
def State.triggerDead (s : State) (n : Nat) : State :=
  match nodeKind n with
  | some (.sequencer c) =>
    match s.partOfCluster c with
    | some p => s.trigger 3 p n
    | none => s
  | _ => s

theorem State.declareDead_of_dead {s : State} {n : Nat} (cause : Nat) (h : (s.target n).shim = true ∨ canIsolate n = false) :
    s.declareDead n cause = s :=
  if_pos (by simpa using h)

theorem State.declareDead_of_alive {s : State} {n : Nat} (cause : Nat) (hshim : (s.target n).shim = false) (hnode : canIsolate n = true) :
    s.declareDead n cause = (s.shut n cause).triggerDead n :=
  if_neg (by simp [hshim, hnode])

/-- Vigil alone hears of a dead node. -/
theorem State.triggerDead_eq (s : State) (n : Nat) : ∃ v, s.triggerDead n = { s with vigil := v } := by
  unfold State.triggerDead
  split
  · split
    · exact ⟨_, rfl⟩
    · exact ⟨s.vigil, rfl⟩
  · exact ⟨s.vigil, rfl⟩

theorem State.triggerDead_of_sequencer {s : State} {n c p : Nat} (hnode : nodeKind n = some (.sequencer c))
    (hpart : s.partOfCluster c = some p) : s.triggerDead n = s.trigger 3 p n := by
  simp only [State.triggerDead, hnode, hpart]

/-- A porch emptied of the packets for one node: beside the answers to them only porches change. -/
theorem State.emptyPorch_frame (s : State) (n : Nat) :
    ∃ porches, ({ s with net := { s.net with porches := porches } } : State).SameButSending (s.emptyPorch n) := by
  unfold State.emptyPorch
  split
  · exact ⟨_, State.sameButSending_shimAnswers (s.setPorch _ _) _⟩
  · exact ⟨s.net.porches, rfl⟩

/-- What the isolation of node `n` leaves of state `s` (R288 to R291). -/
structure State.Isolated (s : State) (n cause : Nat) (u : State) : Prop where
  target : u.target n = (s.target n).dead
  other : ∀ k, k ≠ n → u.target k = s.target k
  isolated : u.net.isolated = s.net.isolated ++ [(n, cause)]
  mem : u.mem = s.mem
  tiles : u.tiles = s.tiles
  triggers : ∀ c p, nodeKind n = some (.sequencer c) → s.partOfCluster c = some p →
    u.vigil.triggers = s.vigil.triggers ++ [(3, p, n)]

theorem State.isolated_declareDead {s : State} {n : Nat} (cause : Nat) (hshim : (s.target n).shim = false) (hnode : canIsolate n = true) :
    s.Isolated n cause (s.declareDead n cause) := by
  rw [State.declareDead_of_alive cause hshim hnode]
  obtain ⟨porches, hsame⟩ := (s.isolate n cause).emptyPorch_frame n
  obtain ⟨v, hout⟩ := (s.shut n cause).triggerDead_eq n
  have htarget : ∀ k, (s.shut n cause).target k = (s.setTarget n (s.target n).dead).target k := hsame.target
  have hpartOf : ∀ c, (s.shut n cause).partOfCluster c = s.partOfCluster c := hsame.partOfCluster
  refine ⟨?target, fun k hk => ?other, ?isolated, ?mem, ?tiles, fun c p hseq hpart => ?triggers⟩
  case target =>
    rw [hout]
    exact (htarget n).trans (State.target_setTarget_self ..)
  case other =>
    rw [hout]
    exact (htarget k).trans (State.target_setTarget_of_ne _ _ (Ne.symm hk))
  case isolated =>
    rw [hout]
    exact hsame.isolated
  case mem =>
    rw [hout]
    exact hsame.mem
  case tiles =>
    rw [hout]
    exact hsame.tiles
  case triggers =>
    rw [State.triggerDead_of_sequencer hseq ((hpartOf c).trans hpart)]
    exact congrArg (·.triggers ++ [(3, p, n)]) hsame.vigil

theorem State.shimActive_of_shim {s : State} {n : Nat} (h : (s.target n).shim = true) : s.shimActive n = true := by
  rw [State.shimActive, h]
  rfl

/-! ### The triggers (R288) -/

/-- The state with another list of the TIMEOUT reports it remembers. -/
def State.withReports (s : State) (l : List (Nat × Nat)) : State := { s with net := { s.net with reports := l } }

/-- The reports of the last DEAD_WINDOW, one about node `n` included that comes now. -/
def State.reportsWith (s : State) (n : Nat) : List (Nat × Nat) :=
  (s.net.reports ++ [(n, s.calends)]).filter (fun r => decide (s.calends < r.2 + s.obj 0x3103 3 1000 * 2000))

/-- The report that comes now counts where the window is not empty. -/
theorem State.length_reportsWith (s : State) (n : Nat) : ((s.reportsWith n).filter (fun r => decide (r.1 = n))).length =
    (s.net.reports.filter (fun r => decide (r.1 = n) && decide (s.calends < r.2 + s.obj 0x3103 3 1000 * 2000))).length +
      (if 0 < s.obj 0x3103 3 1000 * 2000 then 1 else 0) := by
  rw [State.reportsWith, List.filter_filter, List.filter_append, List.length_append, List.filter_cons]
  by_cases hwindow : 0 < s.obj 0x3103 3 1000 * 2000 <;> simp [hwindow]

section
variable {n : NodeId} (hnode : (nodeKind n.toNat).isSome = true) (s : State)
include hnode

theorem exec_controlStateError_of_node : exec (.controlStateError n) s = .next (s.declareDead n.toNat 3) :=
  if_neg (by simp [Option.isSome_iff_ne_none.1 hnode])

theorem exec_deadStall_of_node : exec (.deadStall n) s =
    if (s.target n.toNat).intake.isEmpty ∨ !(s.stallCounts n.toNat) then .next s else .next (s.declareDead n.toNat 1) :=
  if_neg (by simp [Option.isSome_iff_ne_none.1 hnode])

theorem exec_timeoutReport_of_node : exec (.timeoutReport n) s =
    if s.obj 0x3103 1 1 = 1 ∧ s.obj 0x3103 2 16 ≤ ((s.reportsWith n.toNat).filter (fun r => decide (r.1 = n.toNat))).length
    then .next ((s.withReports (s.reportsWith n.toNat)).declareDead n.toNat 2) else .next (s.withReports (s.reportsWith n.toNat)) :=
  if_neg (by simp [Option.isSome_iff_ne_none.1 hnode])

end

/-- The stall time of every node counts but of a Newen port proxy whose port is not UP. -/
theorem State.stallCounts_iff {s : State} {n : Nat} :
    s.stallCounts n = true ↔ ∀ k, nodeKind n = some (.newen k) → (s.port k).link = .up := by
  unfold State.stallCounts
  split
  · next h => simp [h]
  · next h => simpa using fun k hk => absurd hk (h k)

/-- A trigger of R288 declares its node dead, beside the reports it may leave. -/
theorem exec_of_deadTrigger {n : NodeId} {s : State} {i : Instr} {cause : Nat} (hnode : (nodeKind n.toNat).isSome = true)
    (h : (i = .controlStateError n ∧ cause = 3) ∨
      (i = .deadStall n ∧ cause = 1 ∧ (s.target n.toNat).intake ≠ [] ∧
        (∀ k, nodeKind n.toNat = some (.newen k) → (s.port k).link = .up)) ∨
      (i = .timeoutReport n ∧ cause = 2 ∧ s.obj 0x3103 1 1 = 1 ∧
        s.obj 0x3103 2 16 ≤ ((s.reportsWith n.toNat).filter (fun r => decide (r.1 = n.toNat))).length)) :
    ∃ l, exec i s = .next ((s.withReports l).declareDead n.toNat cause) := by
  rcases h with ⟨rfl, rfl⟩ | ⟨rfl, rfl, hintake, hport⟩ | ⟨rfl, rfl, hby, hcount⟩
  · exact ⟨s.net.reports, exec_controlStateError_of_node hnode s⟩
  · refine ⟨s.net.reports, (exec_deadStall_of_node hnode s).trans (if_neg ?_)⟩
    simp [hintake, State.stallCounts_iff.2 hport]
  · exact ⟨_, (exec_timeoutReport_of_node hnode s).trans (if_pos ⟨hby, hcount⟩)⟩

/-- Settles O40: every trigger declares its node dead, which the lemma of the isolation spells out; without one the command's own
lemma says what is left. -/
theorem nodesAreIsolatedByTheirTriggers : Obligations.NodesAreIsolatedByTheirTriggers := by
  refine ⟨?dies, fun n s hnode => ⟨fun hintake => ?idle, fun k hk hport => ?down, fun h => ?spared, fun hfew => ?few⟩,
    fun n s hnone => ?fault⟩
  case dies =>
    intro n s i cause hnode hmgmt hvigil hshim window mine htrigger
    obtain ⟨l, hexec⟩ := exec_of_deadTrigger hnode (by rw [State.length_reportsWith]; exact htrigger)
    have hout : s.Isolated n.toNat cause ((s.withReports l).declareDead n.toNat cause) :=
      have h := State.isolated_declareDead (s := s.withReports l) cause hshim (canIsolate_of_node hnode hmgmt hvigil)
      ⟨h.target, h.other, h.isolated, h.mem, h.tiles, h.triggers⟩
    have hdead := congrArg Target.shim hout.target
    exact ⟨_, hexec, hdead, State.shimActive_of_shim hdead, congrArg Target.intake hout.target, congrArg Target.shimMap hout.target,
      congrArg Target.notes hout.target, hout.isolated, hout.other, hout.mem, hout.tiles, hout.triggers⟩
  case idle => exact (exec_deadStall_of_node hnode s).trans (if_pos (.inl (by simp [hintake])))
  case down =>
    have hcounts : ¬ s.stallCounts n.toNat = true := fun h => hport (State.stallCounts_iff.1 h k hk)
    exact (exec_deadStall_of_node hnode s).trans (if_pos (.inr (by simpa using hcounts)))
  case spared =>
    have hstays : ∀ cause, s.declareDead n.toNat cause = s := fun cause => State.declareDead_of_dead cause <| by
      rcases h with h | h | h
      · exact .inl h
      · exact .inr (by rw [h]; decide)
      · exact .inr (by rw [h]; decide)
    rw [exec_controlStateError_of_node hnode, exec_deadStall_of_node hnode, hstays, hstays, ite_self]
    exact ⟨rfl, rfl⟩
  case few =>
    refine (exec_timeoutReport_of_node hnode s).trans (if_neg fun ⟨hby, hcount⟩ => ?_)
    rcases hfew with h | h
    · exact h hby
    · exact absurd hcount (Nat.not_le.2 h)
  case fault =>
    have hres : (nodeKind n.toNat).isNone = true := by rw [hnone]; rfl
    exact ⟨if_pos hres, if_pos hres, if_pos hres, if_pos hres⟩

end Sys2Proof.Machine

/-! Porches and wakes (R292 to R295): what a packet finds at the porch of a domain, what becomes of the packets that wait there when
the domain comes on or fails to, and the obligation of the porches (O39). -/

namespace Sys2Proof.Machine

@[simp] theorem State.domain_setDomain_self (s : State) (d : Nat) (x : DomainState) : (s.setDomain d x).domain d = x :=
  Sparse.get_set_self _ _ _ _

@[simp] theorem State.domain_setDomain_of_ne (s : State) {d k : Nat} (x : DomainState) (h : d ≠ k) :
    (s.setDomain d x).domain k = s.domain k :=
  Sparse.get_set_of_ne _ _ _ h

theorem State.shimActive_of_failed {s : State} {n d : Nat} (hdomain : domainOf n = some d) (hfailed : (s.porch d).failed = true) :
    s.shimActive n = true := by
  simp [State.shimActive, hdomain, hfailed]

/-! ### The entry into a porch (R293, R294) -/

/-- A packet that enters the porch of domain `d` makes it send WAKE_REQ: the domain sleeps and has not been asked yet. -/
def State.asksWake (s : State) (d : Nat) : Bool :=
  (s.domain d = .off || s.domain d = .retain || s.domain d = .deepSleep) && !(s.porch d).wakeSent

theorem State.asksWake_of_asleep {s : State} {d : Nat} (hsleeps : s.domain d = .off ∨ s.domain d = .retain ∨ s.domain d = .deepSleep)
    (hsent : (s.porch d).wakeSent = false) : s.asksWake d = true := by
  rcases hsleeps with h | h | h <;> simp [State.asksWake, h, hsent]

theorem State.not_asksWake_of_woken {s : State} {d : Nat} (h : (s.porch d).wakeSent = true ∨ s.domain d = .on ∨ s.domain d = .waking) :
    s.asksWake d = false := by
  rcases h with h | h | h <;> simp [State.asksWake, h]

/-- The state with a packet at the end of the porch of domain `d`, and the porch's peak counted. -/
def State.porched (s : State) (d : Nat) (p : Packet) (mesh : Bool) : State :=
  let o := s.porch d
  let l := o.packets ++ [(p, mesh)]
  let s := s.setPorch d { o with packets := l, wakeSent := o.wakeSent || s.asksWake d,
                                 since := if s.asksWake d then s.calends else o.since }
  s.porchCount 1 d (max (Sparse.get 0 s.net.porchCounts (20 + d)) l.length)

/-- The state with one more wake of domain `d` counted. -/
def State.countWake (s : State) (d : Nat) : State := s.porchCount 0 d (Sparse.get 0 s.net.porchCounts d + 1)

/-- The WAKE_REQ of a porch for the packet that wakes its domain. -/
def wakeReq (d : Nat) (p : Packet) : Packet := controlPacket cmdWakeReq p.dest.toNat mgmtNode 0 d (0, p.part.toNat, 2) 0 0

section
variable {s : State} {d : Nat} {p : Packet}

theorem State.porchEnter_of_isolated (mesh : Bool) (hshim : s.shimActive p.dest.toNat = true) :
    s.porchEnter d p mesh = s.answerFor p mesh .targetIsolated :=
  if_pos hshim

theorem State.porchEnter_of_noPartition (mesh : Bool) (hshim : s.shimActive p.dest.toNat = false) (hcluster : d < 16)
    (hpart : s.partOfCluster (d % 8) = none) : s.porchEnter d p mesh = s.answerFor p mesh .outOfRange :=
  (if_neg (by simp [hshim])).trans (if_pos ⟨hcluster, by rw [hpart]; rfl⟩)

theorem State.porchEnter_of_open (mesh : Bool) (hshim : s.shimActive p.dest.toNat = false)
    (hpart : d < 16 → (s.partOfCluster (d % 8)).isSome = true) : s.porchEnter d p mesh =
      if s.asksWake d then ((s.porched d p mesh).countWake d).emitPacket none (wakeReq d p) else s.porched d p mesh :=
  (if_neg (by simp [hshim])).trans (if_neg fun ⟨hcluster, hnone⟩ => by simp_all)

/-- What a packet held at the porch of domain `d` leaves of state `s`. -/
structure State.Held (s : State) (d : Nat) (p : Packet) (mesh : Bool) (u : State) : Prop where
  packets : (u.porch d).packets = (s.porch d).packets ++ [(p, mesh)]
  other : ∀ k, k ≠ d → u.porch k = s.porch k
  mem : u.mem = s.mem
  power : u.power = s.power
  wakes : s.asksWake d = true → (u.porch d).wakeSent = true ∧ (u.porch d).since = s.calends ∧
    Sparse.get 0 u.net.porchCounts d = Sparse.get 0 s.net.porchCounts d + 1 ∧
    u.net.flights = (s.emitPacket none (wakeReq d p)).net.flights
  waits : s.asksWake d = false → u.net.flights = s.net.flights ∧ Sparse.get 0 u.net.porchCounts d = Sparse.get 0 s.net.porchCounts d

theorem State.porch_porched_self (mesh : Bool) : (s.porched d p mesh).porch d =
    { s.porch d with packets := (s.porch d).packets ++ [(p, mesh)], wakeSent := (s.porch d).wakeSent || s.asksWake d,
                     since := if s.asksWake d then s.calends else (s.porch d).since } :=
  State.porch_setPorch_self ..

theorem State.porch_porched_of_ne (mesh : Bool) {k : Nat} (hk : k ≠ d) : (s.porched d p mesh).porch k = s.porch k :=
  State.porch_setPorch_of_ne _ _ (Ne.symm hk)

theorem State.wakeCount_porched (mesh : Bool) :
    Sparse.get 0 (s.porched d p mesh).net.porchCounts d = Sparse.get 0 s.net.porchCounts d :=
  Sparse.get_set_of_ne _ _ _ (by omega)

theorem State.mem_porched (mesh : Bool) : (s.porched d p mesh).mem = s.mem := rfl

theorem State.power_porched (mesh : Bool) : (s.porched d p mesh).power = s.power := rfl

theorem State.flights_porched (mesh : Bool) : (s.porched d p mesh).net.flights = s.net.flights := rfl

theorem State.sameTables_porched (mesh : Bool) : (s.porched d p mesh).SameTables s :=
  (State.sameTables_porchCount ..).trans (State.sameTables_setPorch ..)

theorem State.mem_countWake : (s.countWake d).mem = s.mem := rfl

theorem State.power_countWake : (s.countWake d).power = s.power := rfl

theorem State.flights_countWake : (s.countWake d).net.flights = s.net.flights := rfl

theorem State.porch_countWake (k : Nat) : (s.countWake d).porch k = s.porch k := rfl

theorem State.wakeCount_countWake : Sparse.get 0 (s.countWake d).net.porchCounts d = Sparse.get 0 s.net.porchCounts d + 1 := by
  rw [State.countWake, State.porchCount, Nat.mul_zero, Nat.zero_add, Sparse.get_set_self]

theorem State.held_porchEnter (mesh : Bool) (hshim : s.shimActive p.dest.toNat = false)
    (hpart : d < 16 → (s.partOfCluster (d % 8)).isSome = true) : s.Held d p mesh (s.porchEnter d p mesh) := by
  have hpackets : ((s.porched d p mesh).porch d).packets = (s.porch d).packets ++ [(p, mesh)] := by rw [State.porch_porched_self]
  rw [State.porchEnter_of_open mesh hshim hpart]
  cases hwake : s.asksWake d with
  | false =>
    exact ⟨hpackets, fun k => State.porch_porched_of_ne mesh, State.mem_porched mesh, State.power_porched mesh,
      fun h => by simp [hwake] at h, fun _ => ⟨State.flights_porched mesh, State.wakeCount_porched mesh⟩⟩
  | true =>
    have hsame := ((s.porched d p mesh).countWake d).sameButSending_emitPacket none (wakeReq d p)
    have htables : ((s.porched d p mesh).countWake d).SameTables s :=
      (State.sameTables_porchCount ..).trans (State.sameTables_porched mesh)
    have hporch : ∀ k, (((s.porched d p mesh).countWake d).emitPacket none (wakeReq d p)).porch k = (s.porched d p mesh).porch k :=
      fun k => by rw [hsame.porch, State.porch_countWake]
    rw [if_pos rfl]
    refine ⟨?packets, fun k hk => ?other, ?mem, ?power, fun _ => ⟨?sent, ?since, ?count, ?flights⟩, fun h => by simp [hwake] at h⟩
    case packets => rw [hporch, hpackets]
    case other => rw [hporch, State.porch_porched_of_ne mesh hk]
    case mem => rw [hsame.mem, State.mem_countWake, State.mem_porched]
    case power => rw [hsame.power, State.power_countWake, State.power_porched]
    case flights => exact htables.emitPacket_flights (by rw [State.flights_countWake, State.flights_porched]) none (wakeReq d p)
    case sent =>
      rw [hporch, State.porch_porched_self]
      simp [hwake]
    case since =>
      rw [hporch, State.porch_porched_self]
      simp [hwake]
    case count => rw [hsame.porchCounts, State.wakeCount_countWake, State.wakeCount_porched]

end

/-! ### PORCH_ARRIVAL -/

section
variable {d : Fin 20} {p : Packet} {s : State}

theorem exec_porchArrival_of_otherDomain (h : domainOf p.dest.toNat ≠ some d.val) : exec (.porchArrival d p) s = .next s :=
  if_neg h

theorem exec_porchArrival_of_almanac (h : domainOf p.dest.toNat = some d.val) (hd : d.val = 19) :
    exec (.porchArrival d p) s = .next ((s.consume p).fly (.node p.dest.toNat false) p) :=
  (if_pos h).trans (if_pos hd)

theorem exec_porchArrival_of_passes (h : domainOf p.dest.toNat = some d.val) (hd : d.val ≠ 19)
    (hpasses : (s.domain d.val = .on ∧ (s.porch d.val).packets = [] ∧ s.shimActive p.dest.toNat = false) ∨
      64 ≤ (s.porch d.val).packets.length) :
    exec (.porchArrival d p) s = .next ((s.consume p).fly (.switch (switchOf p.dest.toNat) (.node p.src.toNat)) p) := by
  refine (if_pos h).trans ((if_neg hd).trans (if_pos ?_))
  rcases hpasses with ⟨hon, hempty, hshim⟩ | hfull
  · exact .inl ⟨hon, hempty, congrArg not hshim⟩
  · exact .inr (decide_eq_true hfull)

theorem exec_porchArrival_of_stays (h : domainOf p.dest.toNat = some d.val) (hd : d.val ≠ 19)
    (hfull : ¬ 64 ≤ (s.porch d.val).packets.length)
    (hpasses : ¬ (s.domain d.val = .on ∧ (s.porch d.val).packets = [] ∧ s.shimActive p.dest.toNat = false)) :
    exec (.porchArrival d p) s = .next ((s.consume p).porchEnter d.val p false) := by
  refine (if_pos h).trans ((if_neg hd).trans (if_neg ?_))
  rintro (⟨hon, hempty, hshim⟩ | h)
  · exact hpasses ⟨hon, hempty, Bool.eq_false_of_not_eq_true' hshim⟩
  · exact hfull (of_decide_eq_true h)

end

/-! ### DOMAIN_ON -/

/-- The state with HBM, Newen ports and event rings as another state has them. -/
def State.withWokenOf (u s : State) : State := { u with hbm := s.hbm, newen := s.newen, rings := s.rings }

/-- Two states that differ in HBM, Newen ports and event rings alone: the units of a domain that comes on. -/
def State.SameButWoken (s u : State) : Prop := u.withWokenOf s = s

theorem State.SameButWoken.refl (s : State) : s.SameButWoken s := rfl

theorem State.SameButWoken.trans {s u v : State} (h : s.SameButWoken u) (k : u.SameButWoken v) : s.SameButWoken v :=
  (congrArg (·.withWokenOf s) k : (v.withWokenOf u).withWokenOf s = u.withWokenOf s).trans h

section
variable {s u : State} (h : s.SameButWoken u)
include h

theorem State.SameButWoken.mem : u.mem = s.mem := (congrArg State.mem (show u.withWokenOf s = s from h) :)

theorem State.SameButWoken.tiles : u.tiles = s.tiles := (congrArg State.tiles (show u.withWokenOf s = s from h) :)

theorem State.SameButWoken.net : u.net = s.net := (congrArg State.net (show u.withWokenOf s = s from h) :)

theorem State.SameButWoken.domain (d : Nat) : u.domain d = s.domain d :=
  (congrArg (State.domain · d) (show u.withWokenOf s = s from h) :)

theorem State.SameButWoken.porch (d : Nat) : u.porch d = s.porch d :=
  (congrArg (State.porch · d) (show u.withWokenOf s = s from h) :)

theorem State.SameButWoken.portEnabled (n : Nat) : u.portEnabled n = s.portEnabled n :=
  (congrArg (State.portEnabled · n) (show u.withWokenOf s = s from h) :)

end

theorem State.sameButWoken_leaveSelfRefresh (s : State) (d : Nat) : s.SameButWoken (s.leaveSelfRefresh d) :=
  foldl_related (R := State.SameButWoken) (f := fun (w : State) i =>
    { w with hbm := Sparse.set {} w.hbm (16 * (d - 16) + i)
              { Sparse.get {} w.hbm (16 * (d - 16) + i) with selfRefresh := false, powerDown := false } })
    .refl .trans (fun _ _ => rfl) (List.range 16) s

theorem State.sameButWoken_setPort (s : State) (n : Nat) (x : NewenPort) : s.SameButWoken (s.setPort n x) := rfl

theorem State.sameButWoken_svcEvent (s : State) (node code payload : Nat) : s.SameButWoken (s.svcEvent node code payload) := rfl

theorem State.sameButWoken_setLink (s : State) (n : Nat) (l : LinkState) (phase : Nat) : s.SameButWoken (s.setLink n l phase) := by
  unfold State.setLink
  exact (s.sameButWoken_setPort n _).trans (State.sameButWoken_svcEvent ..)

theorem State.port_setLink_self (s : State) (n : Nat) (l : LinkState) (phase : Nat) :
    (s.setLink n l phase).port n = { s.port n with link := l, phase := phase } :=
  State.port_setPort_self s n _

theorem State.port_setLink_of_ne (s : State) {n k : Nat} (l : LinkState) (phase : Nat) (hk : n ≠ k) :
    (s.setLink n l phase).port k = s.port k :=
  State.port_setPort_of_ne s { s.port n with link := l, phase := phase } hk

/-- A port that begins to train: DOWN, enabled and powered (R430). -/
def State.trains (s : State) (n : Nat) : Prop := (s.port n).link = .down ∧ s.portEnabled n = true ∧ s.domain 18 = .on

theorem State.startTraining_of_trains {s : State} {n : Nat} (h : s.trains n) : s.startTraining n = s.setLink n .training 1 :=
  if_pos h

theorem State.startTraining_of_not_trains {s : State} {n : Nat} (h : ¬ s.trains n) : s.startTraining n = s :=
  if_neg h

theorem State.sameButWoken_startTraining (s : State) (n : Nat) : s.SameButWoken (s.startTraining n) := by
  by_cases h : s.trains n
  · rw [State.startTraining_of_trains h]
    exact s.sameButWoken_setLink n .training 1
  · rw [State.startTraining_of_not_trains h]
    rfl

theorem State.port_startTraining_of_ne (s : State) {n k : Nat} (hk : n ≠ k) : (s.startTraining n).port k = s.port k := by
  by_cases h : s.trains n
  · rw [State.startTraining_of_trains h, State.port_setLink_of_ne _ _ _ hk]
  · rw [State.startTraining_of_not_trains h]

theorem State.link_startTraining_self {s : State} {n : Nat} (h : s.trains n) : ((s.startTraining n).port n).link = .training := by
  rw [State.startTraining_of_trains h, State.port_setLink_self]

/-- The ports begin to train in turn, and none changes another. -/
theorem State.startTrainings (s : State) (n : Nat) :
    s.SameButWoken ((List.range n).foldl State.startTraining s) ∧
      (∀ k < n, s.trains k → (((List.range n).foldl State.startTraining s).port k).link = .training) ∧
      (∀ k, n ≤ k → ((List.range n).foldl State.startTraining s).port k = s.port k) := by
  induction n with
  | zero => exact ⟨rfl, fun k hk => absurd hk (Nat.not_lt_zero k), fun _ _ => rfl⟩
  | succ n ih =>
    obtain ⟨hsame, htraining, hlater⟩ := ih
    rw [List.range_succ, List.foldl_append, List.foldl_cons, List.foldl_nil]
    refine ⟨hsame.trans (State.sameButWoken_startTraining ..), fun k hk htrains => ?_,
      fun k hk => (State.port_startTraining_of_ne _ (by omega)).trans (hlater k (by omega))⟩
    by_cases hkn : k = n
    · subst hkn
      refine State.link_startTraining_self ?_
      rw [State.trains, hsame.portEnabled, hsame.domain, hlater k le_rfl]
      exact htrains
    · rw [State.port_startTraining_of_ne _ (Ne.symm hkn)]
      exact htraining k (by omega) htrains

/-- The HBM ports of domain `d`, where it has some, leave self-refresh. -/
def State.wakeMemory (s : State) (d : Nat) : State := if d = 16 ∨ d = 17 then s.leaveSelfRefresh d else s

/-- The Newen ports, where domain `d` is theirs, begin to train. -/
def State.wakePorts (s : State) (d : Nat) : State := if d = 18 then (List.range 8).foldl State.startTraining s else s

theorem State.sameButWoken_wakeMemory (s : State) (d : Nat) : s.SameButWoken (s.wakeMemory d) := by
  unfold State.wakeMemory
  split
  · exact s.sameButWoken_leaveSelfRefresh d
  · rfl

theorem State.sameButWoken_wakePorts (s : State) (d : Nat) : s.SameButWoken (s.wakePorts d) := by
  unfold State.wakePorts
  split
  · exact (s.startTrainings 8).1
  · rfl

theorem State.link_wakePorts_of_trains {s : State} {n : Nat} (hn : n < 8) (h : s.trains n) :
    ((s.wakePorts 18).port n).link = .training := by
  rw [State.wakePorts, if_pos rfl]
  exact (s.startTrainings 8).2.1 n hn h

/-- The units of a domain that has come on. -/
def State.wakeUnits (s : State) (d : Nat) : State := (s.wakeMemory d).wakePorts d

theorem State.sameButWoken_wakeUnits (s : State) (d : Nat) : s.SameButWoken (s.wakeUnits d) :=
  (s.sameButWoken_wakeMemory d).trans ((s.wakeMemory d).sameButWoken_wakePorts d)

theorem State.link_wakeUnits_of_trains {s : State} {n : Nat} (hn : n < 8) (h : s.trains n) :
    ((s.wakeUnits 18).port n).link = .training := by
  have hmemory : s.wakeMemory 18 = s := if_neg (by decide)
  rw [State.wakeUnits, hmemory]
  exact State.link_wakePorts_of_trains hn h

/-- A waking domain that is on, with its porch empty. -/
def State.domainWoken (s : State) (d : Nat) : State :=
  (s.setDomain d .on).setPorch d { s.porch d with packets := [], wakeSent := false }

/-- The packets of a porch on their way inward. -/
def State.released (s : State) (d : Nat) : List Flight :=
  (s.porch d).packets.map (fun p => ⟨if p.2 then .node p.1.dest.toNat true else .switch (switchOf p.1.dest.toNat) (.porch d), p.1⟩)

/-- The state with more packets in flight. -/
def State.flyAll (s : State) (l : List Flight) : State := { s with net := { s.net with flights := s.net.flights ++ l } }

theorem State.domain_flyAll (s : State) (l : List Flight) (d : Nat) : (s.flyAll l).domain d = s.domain d := rfl

theorem State.porch_flyAll (s : State) (l : List Flight) (d : Nat) : (s.flyAll l).porch d = s.porch d := rfl

theorem State.port_flyAll (s : State) (l : List Flight) (n : Nat) : (s.flyAll l).port n = s.port n := rfl

theorem exec_domainOn_of_waking {d : Fin 20} {s : State} (h : s.domain d.val = .waking) :
    exec (.domainOn d) s = .next (((s.domainWoken d.val).wakeUnits d.val).flyAll (s.released d.val)) :=
  if_pos h

theorem exec_domainOn_of_not_waking {d : Fin 20} {s : State} (h : s.domain d.val ≠ .waking) : exec (.domainOn d) s = .next s :=
  if_neg h

/-! ### WAKE_FAIL -/

/-- A domain that has failed to wake, with its porch emptied and the failure counted (R294, R298). -/
def State.wakeFailed (s : State) (d : Nat) : State :=
  ((s.setDomain d .off).setPorch d { s.porch d with packets := [], wakeSent := false, failed := true }).porchCount 2 d
    (Sparse.get 0 s.net.porchCounts (40 + d) + 1)

theorem State.porch_wakeFailed (s : State) (d : Nat) :
    (s.wakeFailed d).porch d = { s.porch d with packets := [], wakeSent := false, failed := true } :=
  State.porch_setPorch_self ..

theorem State.failCount_wakeFailed (s : State) (d : Nat) :
    Sparse.get 0 (s.wakeFailed d).net.porchCounts (40 + d) = Sparse.get 0 s.net.porchCounts (40 + d) + 1 := by
  simp only [State.wakeFailed, State.porchCount, Nat.reduceMul, Sparse.get_set_self]

theorem State.sameTables_wakeFailed (s : State) (d : Nat) : (s.wakeFailed d).SameTables s :=
  (State.sameTables_porchCount ..).trans ((State.sameTables_setPorch ..).trans (State.sameTables_setDomain ..))

theorem exec_wakeFail_of_due {d : Fin 20} {s : State}
    (h : s.domain d.val = .waking ∨ (s.domain d.val ≠ .on ∧ (s.porch d.val).wakeSent = true)) :
    exec (.wakeFail d) s = .next ((s.porch d.val).packets.foldl (fun s p => s.shimAnswer p.1 p.2) (s.wakeFailed d.val)) :=
  if_pos h

/-! ### The obligation -/

/-- Settles O39: the four commands in turn, each from the lemma that says what it leaves. -/
theorem porchesHoldAndReleasePackets : Obligations.PorchesHoldAndReleasePackets := by
  refine ⟨fun d p s => ?arrival, fun d s => ⟨exec_domainOn_of_not_waking, fun hwaking => ?on⟩, fun d s hdue => ?fail,
    fun s => ?routes⟩
  case arrival =>
    intro n t full passes before
    refine ⟨exec_porchArrival_of_otherDomain, exec_porchArrival_of_almanac, fun hdomain hd =>
      ⟨exec_porchArrival_of_passes hdomain hd, fun hfull hshim => ?isolated, fun hfull hpasses hshim hcluster hpart => ?noPartition,
        fun hfull hpasses hshim hpart => ?held⟩⟩
    case isolated =>
      have hpasses : ¬ passes := fun ⟨_, _, h⟩ => by simp [hshim] at h
      rw [exec_porchArrival_of_stays hdomain hd hfull hpasses]
      exact congrArg _ (State.porchEnter_of_isolated (s := t) false hshim)
    case noPartition =>
      rw [exec_porchArrival_of_stays hdomain hd hfull hpasses]
      exact congrArg _ (State.porchEnter_of_noPartition (s := t) false hshim hcluster hpart)
    case held =>
      have hout := State.held_porchEnter (s := t) (d := d.val) false hshim hpart
      exact ⟨_, exec_porchArrival_of_stays hdomain hd hfull hpasses, hout.packets, hout.other, hout.mem, hout.power,
        fun hsleeps hsent => hout.wakes (State.asksWake_of_asleep (s := t) hsleeps hsent),
        fun h => hout.waits (State.not_asksWake_of_woken (s := t) h)⟩
  case on =>
    have hsame := (s.domainWoken d.val).sameButWoken_wakeUnits d.val
    refine ⟨_, exec_domainOn_of_waking hwaking, ?isOn, fun k hk => ?otherDomains, ?empty, ?inward, hsame.mem, hsame.tiles,
      fun hd n hn henabled hlink => ?trains⟩
    case isOn =>
      rw [State.domain_flyAll, hsame.domain]
      exact State.domain_setDomain_self ..
    case otherDomains =>
      rw [State.domain_flyAll, hsame.domain]
      exact State.domain_setDomain_of_ne s .on (Ne.symm hk)
    case empty => rw [State.porch_flyAll, hsame.porch, State.domainWoken, State.porch_setPorch_self]
    case inward => exact congrArg (·.flights ++ s.released d.val) hsame.net
    case trains =>
      have hon : (s.domainWoken 18).domain 18 = .on := State.domain_setDomain_self ..
      rw [State.port_flyAll, hd]
      exact State.link_wakeUnits_of_trains hn ⟨hlink, henabled, hon⟩
  case fail =>
    have hsame := State.sameButSending_shimAnswers (s.wakeFailed d.val) (s.porch d.val).packets
    have hporch := (hsame.porch d.val).trans (s.porch_wakeFailed d.val)
    refine ⟨_, exec_wakeFail_of_due hdue, ?off, by rw [hporch], by rw [hporch],
      fun n hn => State.shimActive_of_failed hn (by rw [hporch]), ?counted, hsame.mem, hsame.tiles, fun p m hone => ?answered,
      fun hempty => ?none⟩
    case off => exact (hsame.domain d.val).trans (State.domain_setDomain_self ..)
    case counted => rw [hsame.porchCounts, State.failCount_wakeFailed]
    case answered =>
      rw [hone]
      exact (s.sameTables_wakeFailed d.val).answerFor_flights rfl p m .targetIsolated
    case none =>
      rw [hempty]
      rfl
  case routes =>
    refine ⟨_, rfl, rfl, rfl, ?_, rfl, rfl, rfl⟩
    exact List.filter_eq_self.2 fun _ _ => rfl

end Sys2Proof.Machine

/-! The HBM ports (R309, R361, R385): which entries in service touch a common line, what the completion of one does, and what a
fence lets pass. -/

namespace Sys2Proof.Machine

/-! ### HBM_ENTRY_COMPLETE -/

theorem takeWhile_append_cons {α : Type} {p : α → Bool} {l r : List α} {a : α} (hl : ∀ x ∈ l, p x = true) (ha : p a = false) :
    (l ++ a :: r).takeWhile p = l := by
  rw [List.takeWhile_append_of_pos hl, List.takeWhile_cons_of_neg (by simp [ha]), List.append_nil]

theorem sharesLine_iff {x y : Packet} (hx : 0 < x.bytes.toNat) (hy : 0 < y.bytes.toNat) : sharesLine x y = true ↔
    ∃ k, x.address.toNat / 64 ≤ k ∧ k ≤ (x.address.toNat + x.bytes.toNat - 1) / 64 ∧
      y.address.toNat / 64 ≤ k ∧ k ≤ (y.address.toNat + y.bytes.toNat - 1) / 64 := by
  simp only [sharesLine, Bool.and_eq_true, decide_eq_true_eq]
  constructor
  · intro ⟨hxy, hyx⟩
    refine ⟨max (x.address.toNat / 64) (y.address.toNat / 64), ?_⟩
    omega
  · intro ⟨k, hx1, hx2, hy1, hy2⟩
    exact ⟨hx1.trans hy2, hy1.trans hx2⟩

theorem mem_linesOf {a n k : Nat} (h : k ∈ linesOf a n) : a / 64 ≤ k ∧ k ≤ (a + n - 1) / 64 := by
  obtain ⟨i, hi, rfl⟩ := List.mem_map.1 h
  have := List.mem_range.1 hi
  omega

theorem State.heldLines_eq_nil {s : State} {a n : Nat}
    (h : s.host.cxl ≠ 3 ∨ ∀ k ∈ s.host.hostLines, k < a / 64 ∨ (a + n - 1) / 64 < k) : s.heldLines a n = [] := by
  unfold State.heldLines
  split
  next hcxl =>
    have hapart := h.resolve_left (not_not.2 hcxl)
    refine List.filter_eq_nil_iff.2 fun k hk hheld => ?_
    have := mem_linesOf hk
    have := hapart k (by simpa using hheld)
    omega
  · rfl

/-- An entry before it in service touches one of an entry's lines. -/
def State.sharesBefore (s : State) (p : Nat) (e : IntakeEntry) : Bool :=
  ((s.inService p).takeWhile (fun x => x ≠ e)).any (fun x => sharesLine x.pkt e.pkt)

/-- The lines that the host has to give back before an entry takes effect (R385). -/
def State.linesToSnoop (s : State) (e : IntakeEntry) : List Nat :=
  if e.pkt.cmd.toNat = cmdRead ∨ e.pkt.src.toNat = pcieNode then []
  else s.heldLines e.pkt.address.toNat e.pkt.bytes.toNat

/-- Back-invalidate snoops asked for (R385), of the lines that none is asked for yet. -/
def State.askSnoops (s : State) (lines : List Nat) : State :=
  let fresh := lines.filter (fun k => !(s.host.snoops.contains k))
  { s with host := { s.host with snoops := s.host.snoops ++ fresh, answers := s.host.answers ++ fresh.map (fun k => .snoop (64 * k)) } }

section
variable {s : State} {p ondie : Nat} {e : IntakeEntry}

theorem State.hbmComplete_of_shares (h : s.sharesBefore p e = true) : s.hbmComplete p e ondie = s := if_pos h

theorem State.hbmComplete_of_held (hfree : s.sharesBefore p e = false) (hheld : s.linesToSnoop e ≠ []) :
    s.hbmComplete p e ondie = s.askSnoops (s.linesToSnoop e) :=
  (if_neg (Bool.eq_false_iff.1 hfree)).trans (if_pos hheld)

theorem State.hbmComplete_of_free (hfree : s.sharesBefore p e = false) (hheld : s.linesToSnoop e = []) :
    s.hbmComplete p e ondie = (s.hbmCount (p / 4) 2 ondie).answerEntry (hbmNode p) e
      ((s.hbmCount (p / 4) 2 ondie).hbmAccess e.pkt (e.pkt.cmd.toNat ≠ cmdRead)) :=
  (if_neg (Bool.eq_false_iff.1 hfree)).trans (if_neg (not_not.2 hheld))

end

theorem State.hbmAccess_read_of_clean {s : State} {r : Packet} (h : s.condsIn r.address.toNat r.bytes.toNat = []) :
    s.hbmAccess r false = ⟨.ok, memNat s.mem.cells r.address.toNat r.bytes.toNat, 0, s⟩ := by
  simp only [State.hbmAccess, State.load, h]
  rfl

section
variable {p : HbmPort} {src : NodeId} {tag : BitVec 12} {s : State} {e : IntakeEntry} {before after : List IntakeEntry}

theorem exec_hbmEntryComplete_of_inService (ondie : Nat) (hqueue : s.inService p.val = before ++ e :: after)
    (hsrc : e.pkt.src = src) (htag : e.pkt.tag = tag) (hfirst : ∀ x ∈ before, ¬ (x.pkt.src = src ∧ x.pkt.tag = tag)) :
    exec (.hbmEntryComplete p src tag ondie) s = .next (s.hbmComplete p.val e ondie) := by
  have hfind : (s.inService p.val).find? (fun e => e.pkt.src = src && e.pkt.tag = tag) = some e :=
    List.find?_eq_some_iff_append.2 ⟨by simp [hsrc, htag], before, after, hqueue, fun x hx => by simpa [imp_iff_not_or] using hfirst x hx⟩
  show execHbmEntryComplete p src tag ondie s = _
  rw [execHbmEntryComplete, hfind]

theorem State.sharesBefore_iff (hqueue : s.inService p.val = before ++ e :: after) (hnew : e ∉ before)
    (hlen : ∀ x ∈ before, 0 < x.pkt.bytes.toNat) (hn : 0 < e.pkt.bytes.toNat) : s.sharesBefore p.val e = true ↔
    ∃ x ∈ before, ∃ k, x.pkt.address.toNat / 64 ≤ k ∧ k ≤ (x.pkt.address.toNat + x.pkt.bytes.toNat - 1) / 64 ∧
      e.pkt.address.toNat / 64 ≤ k ∧ k ≤ (e.pkt.address.toNat + e.pkt.bytes.toNat - 1) / 64 := by
  have htaken : (before ++ e :: after).takeWhile (fun x => x ≠ e) = before :=
    takeWhile_append_cons (fun x hx => decide_eq_true fun heq => hnew (heq ▸ hx)) (by simp)
  rw [State.sharesBefore, hqueue, htaken, List.any_eq_true]
  exact exists_congr fun x => and_congr_right fun hx => sharesLine_iff (hlen x hx) hn

end

theorem State.linesToSnoop_of_read {s : State} {e : IntakeEntry} (h : e.pkt.cmd = 0x01) : s.linesToSnoop e = [] :=
  if_pos (.inl (by rw [h]; rfl))

theorem cmd_toNat_ne_cmdRead {e : IntakeEntry} (h : e.pkt.cmd ≠ 0x01) : e.pkt.cmd.toNat ≠ cmdRead :=
  fun heq => h (BitVec.eq_of_toNat_eq heq)

/-- The lines of a write that the host holds; the host's own writes snoop none. -/
theorem State.linesToSnoop_of_write {s : State} {e : IntakeEntry} (h : e.pkt.cmd ≠ 0x01) : s.linesToSnoop e =
    if e.pkt.src = 0x2041 then [] else s.heldLines e.pkt.address.toNat e.pkt.bytes.toNat := by
  refine if_congr ⟨fun hor => BitVec.eq_of_toNat_eq (hor.resolve_left (cmd_toNat_ne_cmdRead h)), fun hsrc => .inr (by rw [hsrc]; rfl)⟩ rfl rfl

theorem State.hbmComplete_read {s : State} {p ondie : Nat} {e : IntakeEntry} (hfree : s.sharesBefore p e = false)
    (hread : e.pkt.cmd = 0x01) (hclean : s.condsIn e.pkt.address.toNat e.pkt.bytes.toNat = []) : s.hbmComplete p e ondie =
      (s.hbmCount (p / 4) 2 ondie).finishEntry (hbmNode p) e .ok (memNat s.mem.cells e.pkt.address.toNat e.pkt.bytes.toNat) 0 := by
  have hcmd : decide (e.pkt.cmd.toNat ≠ cmdRead) = false := by rw [hread]; rfl
  rw [State.hbmComplete_of_free hfree (State.linesToSnoop_of_read hread), hcmd,
    State.hbmAccess_read_of_clean (s := s.hbmCount (p / 4) 2 ondie) hclean]
  rfl

theorem State.hbmComplete_write {s : State} {p ondie : Nat} {e : IntakeEntry} (hfree : s.sharesBefore p e = false)
    (hwrite : e.pkt.cmd ≠ 0x01) (hheld : s.linesToSnoop e = []) : s.hbmComplete p e ondie =
      ((s.hbmCount (p / 4) 2 ondie).store e.pkt.address.toNat e.pkt.bytes.toNat e.pkt.payload e.pkt.poisoned).finishEntry
        (hbmNode p) e .ok 0 (Packet.damage e.pkt) := by
  rw [State.hbmComplete_of_free hfree hheld, decide_eq_true (cmd_toNat_ne_cmdRead hwrite)]
  rfl

/-! ### Fences (R361) -/

theorem State.inFence_iff {s : State} {part a n : Nat} : s.inFence part a n = true ↔
    ∃ i < 4, s.obj (0x5001 + 0x100 * part) i 0 ≤ a ∧ a + n ≤ s.obj (0x5001 + 0x100 * part) i 0 + s.obj (0x5001 + 0x100 * part) (4 + i) 0 := by
  simp [State.inFence, State.fences, inside]

theorem overlaps_eq_false_iff {a n b m : Nat} (hn : 0 < n) : overlaps a n b m = false ↔ a + n ≤ b ∨ b + m ≤ a ∨ m = 0 := by
  simp only [overlaps, Bool.and_eq_false_iff, decide_eq_false_iff_not]
  omega

theorem State.fencePasses_iff {s : State} {part a n : Nat} {write priv : Bool} (hn : 0 < n) :
    s.fencePasses part a n write priv = true ↔ a + n ≤ hbmBytes s ∧
      (priv = true ∨ ((∃ i < 4, s.obj (0x5001 + 0x100 * part) i 0 ≤ a ∧
        a + n ≤ s.obj (0x5001 + 0x100 * part) i 0 + s.obj (0x5001 + 0x100 * part) (4 + i) 0) ∧
      (write = true → a + n ≤ (s.ptRegion part).1 ∨ (s.ptRegion part).1 + (s.ptRegion part).2 ≤ a ∨ (s.ptRegion part).2 = 0))) := by
  rw [← State.inFence_iff, ← overlaps_eq_false_iff hn]
  cases write <;> simp [State.fencePasses]

end Sys2Proof.Machine

/-! The upkeep of memory (R303, R305, R311, R314, R539): what a scrubber makes of a word and of a whole storage, and what refresh,
power-down and deep sleep leave as it was. -/

namespace Sys2Proof.Machine

/-! ### What a scrubber does to a word (R303, R305) -/

/-- The condition in which a scrubber leaves a word. -/
def WordCond.scrubbed (c : WordCond) : WordCond :=
  match c with
  | .single => .clean
  | .uncorrectable => .marked
  | c => c

theorem WordCond.scrubbed_cases (c : WordCond) : c.scrubbed = .clean ∨ c.scrubbed = .marked := by
  cases c <;> decide

theorem State.countUncorrected_cond (s : State) (a f : Nat) : (s.countUncorrected a f).mem.cond = s.mem.cond := by
  unfold State.countUncorrected
  dsimp only
  split <;> rfl

theorem State.sameButMemory_scrubAt (s : State) (a : Nat) : s.SameButMemory (s.scrubAt a) := by
  unfold State.scrubAt
  dsimp only
  split
  · exact .trans (u := { s with mem := { s.mem with cond := Sparse.set .clean s.mem.cond (a / 8) .clean
                                                    writebacks := s.mem.writebacks.erase (a / 8) } }) rfl
      (State.sameButMemory_countCorrected ..)
  · split
    · rfl
    · exact (s.sameButMemory_countUncorrected a 1).trans rfl
  · rfl

theorem State.scrubAt_cells (s : State) (a : Nat) : (s.scrubAt a).mem.cells = s.mem.cells := by
  unfold State.scrubAt
  dsimp only
  split
  · rw [State.countCorrected_mem]
  · split
    · rfl
    · exact s.countUncorrected_cells a 1
  · rfl

theorem State.scrubAt_cond (s : State) (a k : Nat) : Sparse.get .clean (s.scrubAt a).mem.cond k =
    if a / 8 = k then (s.condAt a).scrubbed else Sparse.get .clean s.mem.cond k := by
  unfold State.scrubAt
  dsimp only
  split
  case h_1 h => rw [State.countCorrected_mem, Sparse.get_set, h]; rfl
  case h_2 h =>
    rw [Sparse.get_set, h]
    split
    · rfl
    · split
      · rfl
      · rw [State.countUncorrected_cond]
  case h_3 hsingle hunc =>
    have hkept : (s.condAt a).scrubbed = s.condAt a := by
      cases h : s.condAt a
      case single => exact absurd h hsingle
      case uncorrectable => exact absurd h hunc
      all_goals rfl
    split
    next hk => rw [hkept, ← hk]; rfl
    next => rfl

/-- The counts of passes, and of what the ports saw, are all that the end of a pass changes. -/
theorem State.passEnds_eq (s : State) (n since : Nat) (burst : Bool) :
    ∃ ecc counts, s.passEnds n since burst = { s with memEcc := ecc, hbmCounts := counts } := by
  unfold State.passEnds
  dsimp only
  split
  iterate 3
    · split <;> exact ⟨_, _, rfl⟩
  · exact ⟨_, _, rfl⟩

theorem State.passEnds_mem (s : State) (n since : Nat) (burst : Bool) : (s.passEnds n since burst).mem = s.mem := by
  obtain ⟨ecc, counts, h⟩ := s.passEnds_eq n since burst
  rw [h]

theorem State.sameButMemory_passEnds (s : State) (n since : Nat) (burst : Bool) : s.SameButMemory (s.passEnds n since burst) := by
  obtain ⟨ecc, counts, h⟩ := s.passEnds_eq n since burst
  rw [h]
  rfl

/-! ### SCRUB_WORD (R305) -/

/-- The scrubber of a node. -/
def State.scrub (s : State) (n : Nat) : Scrub := Sparse.get {} s.scrubs n

/-- The state with a scrubber replaced. -/
def State.setScrub (s : State) (n : Nat) (x : Scrub) : State := { s with scrubs := Sparse.set {} s.scrubs n x }

theorem State.scrub_setScrub_self (s : State) (n : Nat) (x : Scrub) : (s.setScrub n x).scrub n = x := Sparse.get_set_self ..

theorem State.SameButMemory.scrub {s u : State} (h : s.SameButMemory u) (n : Nat) : u.scrub n = s.scrub n :=
  (congrArg (State.scrub · n) (show u.withMemoryOf s = s from h) :)

/-- The progress of a scrubber once it has read the word after `x`, at a cycle. -/
def Scrub.advanced (x : Scrub) (cal : Nat) : Scrub :=
  ⟨x.next + 1, if x.next = 0 then cal else x.since, x.next ≠ 0 && x.slept⟩

section
variable {n : NodeId} {s : State} {words : Nat} {addr : Nat → Nat} (hspace : s.scrubSpace n.toNat = some (words, addr))
include hspace

theorem exec_scrubWord_of_off (h : s.obj 0x3300 2 1 = 0) :
    exec (.scrubWord n) s = .next (s.setScrub n.toNat {}) := by
  show execScrubWord n s = _
  simp only [execScrubWord, hspace, h, if_true, State.setScrub]

theorem exec_scrubWord_of_asleep {d : Nat} (h : s.obj 0x3300 2 1 ≠ 0) (hdomain : domainOf n.toNat = some d) (hd : s.domain d ≠ .on) :
    exec (.scrubWord n) s = .next s := by
  show execScrubWord n s = _
  simp [execScrubWord, hspace, h, hdomain, hd]

theorem exec_scrubWord_of_on (h : s.obj 0x3300 2 1 ≠ 0) (hon : ∀ d, domainOf n.toNat = some d → s.domain d = .on) :
    let x := s.scrub n.toNat
    let u := s.scrubAt (addr x.next)
    exec (.scrubWord n) s = .next (if x.next + 1 < words then u.setScrub n.toNat (x.advanced s.calends)
      else (u.setScrub n.toNat {}).passEnds n.toNat (x.advanced s.calends).since x.slept) := by
  have hawake : (domainOf n.toNat).any (fun d => s.domain d ≠ .on) = false := by
    cases hd : domainOf n.toNat with
    | none => rfl
    | some d => simp [hon d hd]
  show execScrubWord n s = _
  simp only [execScrubWord, hspace, if_neg h, hawake, Bool.false_eq_true, if_false]
  exact (apply_ite Host.Outcome.next ..).symm

end

/-- What reading the next word leaves: that word's condition and the scrubber's own progress are all that changes but counts. -/
structure State.WordScrubbed (s : State) (n words w : Nat) (u : State) : Prop where
  cells : u.mem.cells = s.mem.cells
  tiles : u.tiles = s.tiles
  cond : ∀ k, Sparse.get .clean u.mem.cond k =
    if w = k then (Sparse.get WordCond.clean s.mem.cond w).scrubbed else Sparse.get .clean s.mem.cond k
  goesOn : (s.scrub n).next + 1 < words → u.scrub n = (s.scrub n).advanced s.calends
  ends : words ≤ (s.scrub n).next + 1 → u.scrub n = {}

theorem State.wordScrubbed_of_on {n : NodeId} {s : State} {words : Nat} {addr : Nat → Nat}
    (hspace : s.scrubSpace n.toNat = some (words, addr)) (h : s.obj 0x3300 2 1 ≠ 0)
    (hon : ∀ d, domainOf n.toNat = some d → s.domain d = .on) : ∃ u, exec (.scrubWord n) s = .next u ∧
      s.WordScrubbed n.toNat words (addr (s.scrub n.toNat).next / 8) u := by
  refine ⟨_, exec_scrubWord_of_on hspace h hon, ?_⟩
  generalize addr (s.scrub n.toNat).next = a
  have hsame := s.sameButMemory_scrubAt a
  split
  next hlt =>
    exact { cells := s.scrubAt_cells a, tiles := hsame.tiles, cond := s.scrubAt_cond a, goesOn := fun _ => State.scrub_setScrub_self ..,
            ends := fun hle => absurd hlt (by omega) }
  next hge =>
    have hmem := State.passEnds_mem
    have hpass := State.sameButMemory_passEnds
    exact { cells := by rw [hmem]; exact s.scrubAt_cells a
            tiles := by rw [(hpass ..).tiles]; exact hsame.tiles
            cond := fun k => by rw [hmem]; exact s.scrubAt_cond a k
            goesOn := fun hlt => absurd hlt hge
            ends := fun _ => by rw [(hpass ..).scrub, State.scrub_setScrub_self] }

/-! ### SCRUB_BURST (R539) -/

/-- A scrubber leaves the word it reads clean or marked, and a word that is so it leaves so. -/
theorem State.foldl_scrubAt_cond {l : List Nat} {s : State} {k : Nat} (h : (∃ a ∈ l, a / 8 = k) ∨
    Sparse.get .clean s.mem.cond k = .clean ∨ Sparse.get .clean s.mem.cond k = .marked) :
    Sparse.get .clean (l.foldl (fun s a => s.scrubAt a) s).mem.cond k = .clean ∨
      Sparse.get .clean (l.foldl (fun s a => s.scrubAt a) s).mem.cond k = .marked := by
  induction l generalizing s with
  | nil => exact h.resolve_left (by simp)
  | cons a r ih =>
    refine ih ?_
    rw [s.scrubAt_cond]
    by_cases hk : a / 8 = k
    · rw [if_pos hk]
      exact .inr (WordCond.scrubbed_cases _)
    · rw [if_neg hk]
      simpa [hk] using h

theorem State.foldl_scrubAt_faultyWords (s : State) {f : Nat → Bool} {a : Nat} (hf : f (8 * (a / 8)) = true) :
    ((s.faultyWords f).foldl (fun s a => s.scrubAt a) s).condAt a = .clean ∨
      ((s.faultyWords f).foldl (fun s a => s.scrubAt a) s).condAt a = .marked := by
  refine State.foldl_scrubAt_cond ?_
  by_cases hlisted : ∃ e ∈ s.mem.cond, e.1 = a / 8
  · obtain ⟨e, he, hkey⟩ := hlisted
    refine .inl ⟨8 * (a / 8), List.mem_filter.2 ⟨List.mem_map.2 ⟨e, he, by rw [hkey]⟩, hf⟩, by omega⟩
  · exact .inr (.inl (Sparse.get_of_not_mem _ fun e he hkey => hlisted ⟨e, he, hkey⟩))

theorem hbmBytes_le_sliceBase (s : State) : hbmBytes s ≤ sliceBase := by
  unfold hbmBytes
  split <;> decide

/-- Words do not cross the bounds of a slice. -/
theorem regionOf_sliceWord (s : State) {sl b : Nat} (hsl : sl < 512) (hb : b < 0xC0000) :
    regionOf s (8 * (sliceAddr sl b / 8)) = .sliceDirect sl (8 * (b / 8)) := by
  have hhbm := hbmBytes_le_sliceBase s
  have hword : 8 * (sliceAddr sl b / 8) = sliceBase + (sl * sliceBytes + 8 * (b / 8)) := by
    unfold sliceAddr sliceBase sliceBytes
    omega
  unfold regionOf
  rw [hword, if_neg (by omega), if_pos (by unfold sliceBytes; omega), Nat.add_sub_cancel_left]
  unfold sliceBytes
  congr 1 <;> omega

/-- Words do not cross the bounds of a tile's store. -/
theorem regionOf_tileWord (s : State) {t o : Nat} (ht : t < 4096) (ho : o < 0x18000) :
    regionOf s (8 * (tileAddr t o / 8)) = .tile t (8 * (o / 8)) := by
  have hhbm := hbmBytes_le_sliceBase s
  have hword : 8 * (tileAddr t o / 8) = tileBase + (t * 0x20000 + 8 * (o / 8)) := by
    unfold tileAddr tileBase
    omega
  unfold regionOf
  rw [hword, if_neg (by unfold sliceBase tileBase at *; omega), if_neg (by unfold sliceBase sliceBytes tileBase; omega),
    if_neg (by unfold stripedBase sliceBytes tileBase; omega), if_pos (by omega), Nat.add_sub_cancel_left]
  congr 1 <;> omega

/-- The addresses of the storage that the scrubbers of domain `d` read. -/
def State.inDomain (s : State) (d a : Nat) : Bool :=
  match regionOf s a with
  | .sliceDirect sl _ => decide (8 ≤ d ∧ sl / 64 = d % 8)
  | .tile t o => decide (d < 8 ∧ t / 512 = d % 8 ∧ o < 0x18000)
  | _ => false

theorem State.inDomain_sliceWord (s : State) {sl b : Nat} (hsl : sl < 512) (hb : b < 0xC0000) :
    s.inDomain (8 + sl / 64) (8 * (sliceAddr sl b / 8)) = true := by
  rw [State.inDomain, regionOf_sliceWord s hsl hb]
  exact decide_eq_true ⟨by omega, by omega⟩

theorem State.inDomain_tileWord (s : State) {t o : Nat} (ht : t < 4096) (ho : o < 0x18000) :
    s.inDomain (t / 512) (8 * (tileAddr t o / 8)) = true := by
  rw [State.inDomain, regionOf_tileWord s ht ho]
  exact decide_eq_true ⟨by omega, by omega, by omega⟩

/-- The scrubbers of domain `d` have read every word of theirs that holds an error. -/
def State.scrubDomain (s : State) (d : Nat) : State := (s.faultyWords (s.inDomain d)).foldl (fun s a => s.scrubAt a) s

theorem State.scrubDomain_cells (s : State) (d : Nat) : (s.scrubDomain d).mem.cells = s.mem.cells :=
  foldl_related (R := fun s u : State => u.mem.cells = s.mem.cells) (fun _ => rfl) (fun h k => k.trans h)
    (fun s a => s.scrubAt_cells a) _ s

theorem State.sameButMemory_scrubDomain (s : State) (d : Nat) : s.SameButMemory (s.scrubDomain d) :=
  foldl_related .refl .trans (fun s a => s.sameButMemory_scrubAt a) _ s

/-- The passes of some nodes end with a burst. -/
def State.endBursts (s : State) (nodes : List Nat) : State := nodes.foldl (fun s n => s.passEnds n 0 true) s

theorem State.endBursts_mem (s : State) (nodes : List Nat) : (s.endBursts nodes).mem = s.mem :=
  foldl_related (R := fun s u : State => u.mem = s.mem) (fun _ => rfl) (fun h k => k.trans h)
    (fun s n => s.passEnds_mem n 0 true) nodes s

theorem State.sameButMemory_endBursts (s : State) (nodes : List Nat) : s.SameButMemory (s.endBursts nodes) :=
  foldl_related .refl .trans (fun s n => s.sameButMemory_passEnds n 0 true) nodes s

theorem exec_scrubBurst_of_idle {d : Fin 16} {s : State}
    (h : s.domain d.val = .on ∨ s.partOfCluster (d.val % 8) = none ∨ s.obj 0x3300 2 1 = 0) : exec (.scrubBurst d) s = .next s :=
  if_pos (h.imp_right (.imp_left Option.isNone_iff_eq_none.2))

theorem exec_scrubBurst_of_due {d : Fin 16} {s : State} (hd : s.domain d.val ≠ .on)
    (hpart : (s.partOfCluster (d.val % 8)).isSome = true) (hon : s.obj 0x3300 2 1 ≠ 0) :
    ∃ nodes, exec (.scrubBurst d) s = .next ((s.scrubDomain d.val).endBursts nodes) := by
  have hdue : ¬ (s.domain d.val = .on ∨ (s.partOfCluster (d.val % 8)).isNone ∨ s.obj 0x3300 2 1 = 0) := by
    simp [hd, hon, Option.isSome_iff_ne_none.1 hpart]
  exact ⟨_, if_neg hdue⟩

/-! ### Refresh, power-down and deep sleep (R311, R314) -/

theorem State.refreshing_of_empty {s : State} {p : HbmPort} (h : (s.target (hbmNode p.val)).intake = []) : s.refreshing p = s :=
  if_pos (List.isEmpty_iff.2 h)

theorem State.refreshing_of_waiting {s : State} {p : HbmPort} (h : (s.target (hbmNode p.val)).intake ≠ []) : s.refreshing p =
    { s with hbm := Sparse.set {} s.hbm p.val { Sparse.get ({} : HbmPortState) s.hbm p.val with refreshAt := some s.calends } } :=
  if_neg (mt List.isEmpty_iff.1 h)

/-- The states of the ports are all that a refresh changes. -/
theorem State.refreshing_eq (s : State) (p : HbmPort) : ∃ hbm, s.refreshing p = { s with hbm := hbm } := by
  by_cases h : (s.target (hbmNode p.val)).intake = []
  · exact ⟨s.hbm, State.refreshing_of_empty h⟩
  · exact ⟨_, State.refreshing_of_waiting h⟩

/-- A pause is all that a refresh leaves of the test of a stack. -/
theorem State.pauseTest_eq (s : State) (stack : Nat) : s.pauseTest stack =
    { s with test := if s.test.looping = some stack then { s.test with pauses := s.test.pauses + 1 } else s.test } := by
  unfold State.pauseTest
  split <;> rfl

theorem exec_hbmRefresh (p : HbmPort) (s : State) : ∃ u, exec (.hbmRefresh p) s = .next u ∧ u.mem = s.mem ∧ u.net = s.net ∧
    u.hbm = (s.refreshing p).hbm ∧
    u.test = if s.test.looping = some (p.val / 4) then { s.test with pauses := s.test.pauses + 1 } else s.test := by
  obtain ⟨hbm, h⟩ := s.refreshing_eq p
  refine ⟨(s.refreshing p).pauseTest (p.val / 4), rfl, ?_⟩
  rw [State.pauseTest_eq, h]
  exact ⟨rfl, rfl, rfl, rfl⟩

theorem Sparse.get_bump_self (m : Sparse Nat) (k n : Nat) : Sparse.get 0 (Sparse.bump m k n) k = Sparse.get 0 m k + n :=
  Sparse.get_set_self 0 m k _

theorem exec_hbmRfm (p : HbmPort) (bank : Nat) (s : State) : ∃ u, exec (.hbmRfm p bank) s = .next u ∧ u.mem = s.mem ∧
    Sparse.get 0 u.hbmCounts (8 * (p.val / 4) + 3) = Sparse.get 0 s.hbmCounts (8 * (p.val / 4) + 3) + 1 := by
  obtain ⟨hbm, h⟩ := s.refreshing_eq p
  refine ⟨(s.refreshing p).hbmCount (p.val / 4) 3 1, rfl, ?_⟩
  rw [h]
  exact ⟨rfl, Sparse.get_bump_self s.hbmCounts _ 1⟩

theorem exec_hbmPowerDown_of_idle {p : HbmPort} {s : State} (hidle : (s.target (hbmNode p.val)).intake = [])
    (hon : s.domain (16 + p.val / 16) = .on) : exec (.hbmPowerDown p) s =
      .next { s with hbm := Sparse.set {} s.hbm p.val { Sparse.get ({} : HbmPortState) s.hbm p.val with powerDown := true } } :=
  if_pos ⟨List.isEmpty_iff.2 hidle, hon⟩

theorem exec_hbmPowerDown_of_busy {p : HbmPort} {s : State}
    (h : (s.target (hbmNode p.val)).intake ≠ [] ∨ s.domain (16 + p.val / 16) ≠ .on) : exec (.hbmPowerDown p) s = .next s :=
  if_neg fun ⟨hidle, hon⟩ => h.elim (fun hbusy => hbusy (List.isEmpty_iff.1 hidle)) fun hoff => hoff hon

/-- The ports of group `g`. -/
def portsOfGroup (g : Nat) : List Nat := (List.range 16).map (· + 16 * g)

/-- The channels of some ports go to self-refresh. -/
def selfRefreshed (hbm : Sparse HbmPortState) (ports : List Nat) : Sparse HbmPortState :=
  ports.foldl (fun m p => Sparse.set {} m p ⟨false, true, none⟩) hbm

theorem get_selfRefreshed {hbm : Sparse HbmPortState} {ports : List Nat} {p : Nat}
    (h : p ∈ ports ∨ (Sparse.get {} hbm p).selfRefresh = true) : (Sparse.get {} (selfRefreshed hbm ports) p).selfRefresh = true := by
  induction ports generalizing hbm with
  | nil => exact h.resolve_left List.not_mem_nil
  | cons q r ih =>
    refine ih (Classical.or_iff_not_imp_left.2 fun hr => ?_)
    rw [Sparse.get_set]
    split
    next => rfl
    next hne => exact h.resolve_left fun hmem => (List.mem_cons.1 hmem).elim (fun heq => hne heq.symm) hr

/-- No entry at any port of the group. -/
def State.groupIdle (s : State) (g : Nat) : Prop := ∀ i < 16, (s.target (0x2020 + 16 * g + i)).intake = []

theorem State.all_portsOfGroup_iff {s : State} {g : Nat} :
    (portsOfGroup g).all (fun p => (s.target (hbmNode p)).intake.isEmpty) = true ↔ s.groupIdle g := by
  simp [portsOfGroup, State.groupIdle, hbmNode, Nat.add_assoc, Nat.add_comm, List.isEmpty_iff]

/-- The channels in some states of self-refresh, their domain in deep sleep, and the scrubbers told. -/
def State.deepSlept (s : State) (d : Nat) (hbm : Sparse HbmPortState) : State :=
  (({ s with hbm := hbm } : State).setDomain d .deepSleep).scrubsSleep d

theorem State.mem_deepSlept (s : State) (d : Nat) (hbm : Sparse HbmPortState) : (s.deepSlept d hbm).mem = s.mem := rfl

theorem State.hbm_deepSlept (s : State) (d : Nat) (hbm : Sparse HbmPortState) : (s.deepSlept d hbm).hbm = hbm := rfl

theorem State.domain_deepSlept_self (s : State) (d : Nat) (hbm : Sparse HbmPortState) : (s.deepSlept d hbm).domain d = .deepSleep :=
  State.domain_setDomain_self ({ s with hbm := hbm } : State) d .deepSleep

theorem State.domain_deepSlept_of_ne (s : State) {d k : Nat} (hbm : Sparse HbmPortState) (hk : k ≠ d) :
    (s.deepSlept d hbm).domain k = s.domain k :=
  State.domain_setDomain_of_ne ({ s with hbm := hbm } : State) .deepSleep hk.symm

theorem exec_hbmDeepSleepEntry_of_idle {g : Fin 2} {s : State} (hobj : s.obj 0x9031 0 0 = 1) (hon : s.domain (16 + g.val) = .on)
    (hidle : s.groupIdle g.val) : exec (.hbmDeepSleepEntry g) s =
      .next (s.deepSlept (16 + g.val) (selfRefreshed s.hbm (portsOfGroup g.val))) := by
  have hports : (portsOfGroup g.val).foldl (fun (s : State) p => { s with hbm := Sparse.set {} s.hbm p ⟨false, true, none⟩ }) s =
      { s with hbm := selfRefreshed s.hbm (portsOfGroup g.val) } :=
    List.foldl_hom (fun hbm : Sparse HbmPortState => { s with hbm := hbm }) fun _ _ => rfl
  refine (if_pos ⟨hobj, hon, State.all_portsOfGroup_iff.2 hidle⟩).trans ?_
  rw [State.deepSlept, ← hports]
  rfl

theorem exec_hbmDeepSleepEntry_of_busy {g : Fin 2} {s : State}
    (h : s.obj 0x9031 0 0 ≠ 1 ∨ s.domain (16 + g.val) ≠ .on ∨ ¬ s.groupIdle g.val) : exec (.hbmDeepSleepEntry g) s = .next s :=
  if_neg fun ⟨hobj, hon, hports⟩ =>
    h.elim (fun hne => hne hobj) fun h => h.elim (fun hne => hne hon) fun hbusy => hbusy (State.all_portsOfGroup_iff.1 hports)

/-! ### ECC_WRITEBACK and POISON_MARK (R303) -/

theorem exec_eccWriteback_of_waits {a : BitVec 48} {s : State} (h : a.toNat / 8 ∈ s.mem.writebacks) : exec (.eccWriteback a) s =
    .next { s with mem := { s.mem with writebacks := s.mem.writebacks.erase (a.toNat / 8)
                                       cond := Sparse.set .clean s.mem.cond (a.toNat / 8) .clean } } :=
  if_pos (List.contains_iff_mem.2 h)

theorem exec_poisonMark_of_waits {a : BitVec 48} {s : State} (h : a.toNat / 8 ∈ s.mem.marks) : exec (.poisonMark a) s =
    .next { s with mem := { s.mem with marks := s.mem.marks.erase (a.toNat / 8)
                                       cond := Sparse.set .clean s.mem.cond (a.toNat / 8) .marked } } :=
  if_pos (List.contains_iff_mem.2 h)

/-! ### The obligation -/

/-- Settles O41: the completion of an entry by what it shares and what the host holds, the scrubbers by the condition in which they
leave a word, the other commands each by its lemma. -/
theorem memoryUpkeepFollowsItsRules : Obligations.MemoryUpkeepFollowsItsRules := by
  unfold Obligations.MemoryUpkeepFollowsItsRules
  refine ⟨fun p src tag ondie s e before after hqueue hsrc htag hnew hfirst => ?complete,
    fun part a n write priv s hn => State.fencePasses_iff hn, fun n s words addr hspace => ?scrub, fun a s k => ?mark,
    fun d s => exec_scrubBurst_of_idle, fun d s hd hpart hon => ?burst, fun p bank st celsius s => ?ports, fun g s => ?sleep⟩
  case complete =>
    intro a n shares t hlen hn
    have hexec := exec_hbmEntryComplete_of_inService ondie hqueue hsrc htag hfirst
    have hshares : s.sharesBefore p.val e = true ↔ shares := State.sharesBefore_iff hqueue hnew hlen hn
    have hfree : ¬ shares → s.sharesBefore p.val e = false := fun h => Bool.eq_false_iff.2 (mt hshares.1 h)
    refine ⟨fun h => ?waits, fun h hread hclean => ?read, fun h hwrite hheld => ?write, fun h hwrite hdevice hheld => ?snoop⟩
    case waits => rw [hexec, State.hbmComplete_of_shares (hshares.2 h)]
    case read =>
      exact hexec.trans (congrArg _ (State.hbmComplete_read (hfree h) hread hclean))
    case write =>
      have hnone : s.linesToSnoop e = [] := by
        rw [State.linesToSnoop_of_write hwrite]
        split
        next => rfl
        next hother => exact State.heldLines_eq_nil (hheld.imp_right (·.resolve_left fun h => hother (hsrc.trans h)))
      exact hexec.trans (congrArg _ (State.hbmComplete_write (hfree h) hwrite hnone))
    case snoop =>
      have hlines : s.linesToSnoop e = s.heldLines a n := by
        rw [State.linesToSnoop_of_write hwrite, if_neg fun h => hdevice (hsrc.symm.trans h)]
      rw [hexec, State.hbmComplete_of_held (hfree h) (hlines ▸ hheld), hlines]
      rfl
  case scrub =>
    refine ⟨exec_scrubWord_of_off hspace, fun hon hdomain => ?_, fun d hon hd hasleep => exec_scrubWord_of_asleep hspace hon hd hasleep⟩
    obtain ⟨u, hexec, hu⟩ := State.wordScrubbed_of_on hspace hon hdomain
    refine ⟨u, hexec, hu.cells, hu.tiles, fun k => ?_, hu.goesOn, hu.ends⟩
    rw [hu.cond k, ite_not]
    exact if_congr eq_comm rfl rfl
  case mark =>
    refine ⟨fun h => ⟨_, exec_eccWriteback_of_waits h, rfl, rfl, ?_⟩, fun h => ⟨_, exec_poisonMark_of_waits h, rfl, rfl, ?_⟩,
      fun h => if_neg (mt List.contains_iff_mem.1 h), fun h => if_neg (mt List.contains_iff_mem.1 h)⟩
    all_goals
      rw [Sparse.get_set]
      exact if_congr eq_comm rfl rfl
  case burst =>
    obtain ⟨nodes, hexec⟩ := exec_scrubBurst_of_due hd hpart hon
    have hmem := (s.scrubDomain d.val).endBursts_mem nodes
    have hsame := (s.sameButMemory_scrubDomain d.val).trans (State.sameButMemory_endBursts _ nodes)
    have hclean : ∀ a, s.inDomain d.val (8 * (a / 8)) = true → ((s.scrubDomain d.val).endBursts nodes).condAt a = .clean ∨
        ((s.scrubDomain d.val).endBursts nodes).condAt a = .marked := fun a ha => by
      rw [State.condAt, hmem]
      exact s.foldl_scrubAt_faultyWords ha
    refine ⟨_, hexec, by rw [hmem, s.scrubDomain_cells], hsame.tiles, fun sl b hslice hsl hb => hclean _ ?_,
      fun t o htile ho => hclean _ ?_⟩
    · rw [hslice]
      exact s.inDomain_sliceWord hsl hb
    · rw [htile]
      exact s.inDomain_tileWord t.isLt ho
  case ports =>
    obtain ⟨r, hrefresh, hmem, hnet, hhbm, htest⟩ := exec_hbmRefresh p s
    obtain ⟨w, hrfm, hrfmMem, hcount⟩ := exec_hbmRfm p bank s
    refine ⟨⟨w, hrfm, hcount, hrfmMem⟩, rfl, ⟨r, hrefresh, hmem, hnet, fun hempty => ?_, htest, fun hwaiting => ?_⟩,
      fun hidle hon => ⟨_, exec_hbmPowerDown_of_idle hidle hon, ?_, rfl, fun q hq => ?_⟩,
      exec_hbmPowerDown_of_busy⟩
    · rw [hhbm, State.refreshing_of_empty hempty]
    · rw [hhbm, State.refreshing_of_waiting hwaiting, Sparse.get_set_self]
    · rw [Sparse.get_set_self]
    · rw [Sparse.get_set_of_ne _ _ _ hq.symm]
  case sleep =>
    refine ⟨fun hobj hon hidle => ⟨_, exec_hbmDeepSleepEntry_of_idle hobj hon hidle, s.domain_deepSlept_self .., s.mem_deepSlept ..,
      fun i hi => ?_, fun k hk => s.domain_deepSlept_of_ne _ hk⟩, exec_hbmDeepSleepEntry_of_busy⟩
    rw [State.hbm_deepSlept]
    exact get_selfRefreshed (.inl (List.mem_map.2 ⟨i, List.mem_range.2 hi, Nat.add_comm ..⟩))

end Sys2Proof.Machine

/-! Copy descriptors in their queues (R319, R320, R322, R324): the engine a descriptor enters, the one that becomes active, and what
the completion of one leaves. -/

namespace Sys2Proof.Machine

/-! ### Placement (R322) -/

/-- An element of a list with the least of a measure, the lowest of those on a tie. -/
def LeastBy (f : Nat → Nat) (l : List Nat) (e : Nat) : Prop := e ∈ l ∧ ∀ k ∈ l, f e < f k ∨ f e = f k ∧ e ≤ k

theorem leastBy_concat (f : Nat → Nat) (l : List Nat) (a : Nat) : leastBy f (l ++ [a]) =
    some (match leastBy f l with | none => a | some b => if f a < f b then a else b) := by
  rw [leastBy, List.foldl_append, ← leastBy]
  cases leastBy f l with
  | none => rfl
  | some b => exact (apply_ite some ..).symm

theorem leastBy_of_sorted (f : Nat → Nat) {l : List Nat} (h : l.Pairwise (· < ·)) :
    l = [] ∧ leastBy f l = none ∨ ∃ e, leastBy f l = some e ∧ LeastBy f l e := by
  induction l using List.reverseRecOn with
  | nil => exact .inl ⟨rfl, rfl⟩
  | append_singleton l a ih =>
    obtain ⟨hl, -, hlast⟩ := List.pairwise_append.1 h
    refine .inr ⟨_, leastBy_concat f l a, ?_⟩
    obtain ⟨rfl, hnone⟩ | ⟨b, hb, hmem, hleast⟩ := ih hl
    · rw [hnone]
      exact ⟨by simp, by simp⟩
    · have hba := hlast b hmem a (by simp)
      rw [hb]
      dsimp only
      split
      next hlt =>
        refine ⟨by simp, fun k hk => ?_⟩
        obtain hk | hk := List.mem_append.1 hk
        · have := hleast k hk
          omega
        · rw [List.mem_singleton.1 hk]
          omega
      next hge =>
        refine ⟨by simp [hmem], fun k hk => ?_⟩
        obtain hk | hk := List.mem_append.1 hk
        · exact hleast k hk
        · rw [List.mem_singleton.1 hk]
          omega

/-- The engines that a waiting descriptor can enter, lowest first. -/
def State.candidates (s : State) (d : CopyDesc) : List Nat :=
  let q := d.owner.queue d.vi
  let e := (copyFields d.words).engine
  (if e < 16 then [e] else (if q = 1 then List.range 16 else s.ceMask d.vi).filter (fun e => !(s.ceIsolated e))).filter
    (fun e => decide (((s.engine e).queue q).length < 8))

theorem State.placeFor_eq (s : State) (d : CopyDesc) : s.placeFor d = leastBy (fun e => (s.engine e).load) (s.candidates d) := by
  unfold State.placeFor State.candidates
  dsimp only
  split <;> rfl

theorem State.mem_candidates {s : State} {d : CopyDesc} {k : Nat} : k ∈ s.candidates d ↔
    k < 16 ∧ ((s.engine k).queue (d.owner.queue d.vi)).length < 8 ∧
      (if (copyFields d.words).engine < 16 then k = (copyFields d.words).engine
        else s.ceIsolated k = false ∧ (d.owner.queue d.vi = 1 ∨ k ∈ s.ceMask d.vi)) := by
  have hmask : k ∈ s.ceMask d.vi → k < 16 := fun h => List.mem_range.1 (List.mem_filter.1 h).1
  unfold State.candidates
  dsimp only
  split
  next hnamed =>
    simp only [List.mem_filter, List.mem_singleton, decide_eq_true_eq]
    exact ⟨fun ⟨hk, hroom⟩ => ⟨hk ▸ hnamed, hroom, hk⟩, fun ⟨_, hroom, hk⟩ => ⟨hk, hroom⟩⟩
  next =>
    split
    next hmgmt =>
      simp only [List.mem_filter, List.mem_range, decide_eq_true_eq, Bool.not_eq_true', hmgmt]
      tauto
    next hmgmt =>
      simp only [List.mem_filter, decide_eq_true_eq, Bool.not_eq_true', hmgmt]
      tauto

theorem State.candidates_sorted (s : State) (d : CopyDesc) : (s.candidates d).Pairwise (· < ·) := by
  have hrange : (List.range 16).Pairwise (· < ·) := List.pairwise_lt_range
  unfold State.candidates
  dsimp only
  refine List.Pairwise.filter _ ?_
  split
  · exact List.pairwise_singleton ..
  · refine List.Pairwise.filter _ ?_
    split
    · exact hrange
    · exact hrange.filter _

theorem State.placeFor_cases (s : State) (d : CopyDesc) : s.candidates d = [] ∧ s.placeFor d = none ∨
    ∃ e, s.placeFor d = some e ∧ LeastBy (fun e => (s.engine e).load) (s.candidates d) e := by
  rw [State.placeFor_eq]
  exact leastBy_of_sorted _ (s.candidates_sorted d)

theorem State.leastBy_of_placeFor {s : State} {d : CopyDesc} {e : Nat} (h : s.placeFor d = some e) :
    LeastBy (fun e => (s.engine e).load) (s.candidates d) e := by
  obtain ⟨-, hnone⟩ | ⟨k, hk, hleast⟩ := s.placeFor_cases d
  · cases hnone.symm.trans h
  · cases hk.symm.trans h
    exact hleast

theorem State.candidates_of_placeFor_none {s : State} {d : CopyDesc} (h : s.placeFor d = none) : s.candidates d = [] := by
  obtain ⟨hnil, -⟩ | ⟨k, hk, -⟩ := s.placeFor_cases d
  · exact hnil
  · cases hk.symm.trans h

/-! ### COPY_ENQUEUE (R322) -/

theorem State.placeable_of_first {s : State} {before after : List CopyDesc} {d : CopyDesc} {e : Nat}
    (hbefore : ∀ c ∈ before, s.placeFor c = none) (hd : s.placeFor d = some e) :
    s.placeable (before ++ d :: after) = some (d, e) := by
  induction before with
  | nil => simp only [List.nil_append, State.placeable, hd]
  | cons c r ih =>
    simp only [List.cons_append, State.placeable, hbefore c List.mem_cons_self]
    exact ih fun x hx => hbefore x (List.mem_cons_of_mem c hx)

theorem State.placeable_eq_none {s : State} {l : List CopyDesc} (h : ∀ c ∈ l, s.placeFor c = none) : s.placeable l = none := by
  induction l with
  | nil => rfl
  | cons c r ih =>
    simp only [State.placeable, h c List.mem_cons_self]
    exact ih fun x hx => h x (List.mem_cons_of_mem c hx)

theorem exec_copyEnqueue_of_placeable {s : State} {d : CopyDesc} {e : Nat} (h : s.placeable s.copyWait = some (d, e)) :
    exec .copyEnqueue s = .next (({ s with copyWait := s.copyWait.erase d } : State).enqueueCopy e d) := by
  show execCopyEnqueue s = _
  rw [execCopyEnqueue, h]

theorem exec_copyEnqueue_of_none {s : State} (h : s.placeable s.copyWait = none) : exec .copyEnqueue s = .next s := by
  show execCopyEnqueue s = _
  rw [execCopyEnqueue, h]

theorem erase_append_cons {α : Type} [DecidableEq α] {l r : List α} {a : α} (h : a ∉ l) : (l ++ a :: r).erase a = l ++ r := by
  rw [List.erase_append_right _ h, List.erase_cons_head]

theorem State.queue_enqueueCopy_self (s : State) (e : Nat) (d : CopyDesc) :
    ((s.enqueueCopy e d).engine e).queue (d.owner.queue d.vi) = (s.engine e).queue (d.owner.queue d.vi) ++ [d] := by
  rw [State.enqueueCopy, State.engine_setEngine_self, CopyEngine.queue, Sparse.get_set_self]

theorem State.engine_enqueueCopy_of_ne (s : State) {e k : Nat} (d : CopyDesc) (h : k ≠ e) :
    (s.enqueueCopy e d).engine k = s.engine k :=
  State.engine_setEngine_of_ne _ _ h.symm

/-! ### Changes of one engine -/

/-- The state with the copy engines and the rings of the service nodes as another state has them. -/
def State.withEnginesOf (u s : State) : State := { u with engines := s.engines, rings := s.rings }

/-- Two states that differ in one copy engine, and in rings of the service nodes, alone. -/
structure State.SameButEngine (s : State) (e : Nat) (u : State) : Prop where
  same : u.withEnginesOf s = s
  others : ∀ k, k ≠ e → u.engine k = s.engine k

theorem State.SameButEngine.refl (s : State) (e : Nat) : s.SameButEngine e s := ⟨rfl, fun _ _ => rfl⟩

theorem State.SameButEngine.trans {s u v : State} {e : Nat} (h : s.SameButEngine e u) (k : u.SameButEngine e v) :
    s.SameButEngine e v where
  same := (congrArg (·.withEnginesOf s) k.same : (v.withEnginesOf u).withEnginesOf s = u.withEnginesOf s).trans h.same
  others := fun j hj => (k.others j hj).trans (h.others j hj)

theorem State.SameButEngine.mem {s u : State} {e : Nat} (h : s.SameButEngine e u) : u.mem = s.mem :=
  (congrArg State.mem h.same :)

theorem State.SameButEngine.net {s u : State} {e : Nat} (h : s.SameButEngine e u) : u.net = s.net :=
  (congrArg State.net h.same :)

theorem State.SameButEngine.host {s u : State} {e : Nat} (h : s.SameButEngine e u) : u.host = s.host :=
  (congrArg State.host h.same :)

theorem State.sameButEngine_setEngine (s : State) (e : Nat) (x : CopyEngine) : s.SameButEngine e (s.setEngine e x) :=
  ⟨rfl, fun _ hk => State.engine_setEngine_of_ne s x hk.symm⟩

theorem State.sameButEngine_setCopy (s : State) (e q : Nat) (d : CopyDesc) : s.SameButEngine e (s.setCopy e q d) :=
  s.sameButEngine_setEngine e _

theorem State.sameButEngine_ceCount (s : State) (e w n : Nat) : s.SameButEngine e (s.ceCount e w n) := by
  unfold State.ceCount
  dsimp only
  split
  · exact (s.sameButEngine_setEngine e _).trans (State.sameButEngine_setEngine ..)
  · exact s.sameButEngine_setEngine e _

/-! ### Completion of a descriptor (R319) -/

/-- A descriptor in place of the one with its id. -/
def replaceCopy (d c : CopyDesc) : CopyDesc := if c.id = d.id then d else c

theorem State.queue_setCopy (s : State) (e q r : Nat) (d : CopyDesc) : ((s.setCopy e q d).engine e).queue r =
    if q = r then ((s.engine e).queue q).map (replaceCopy d) else (s.engine e).queue r := by
  rw [State.setCopy, State.engine_setEngine_self]
  exact Sparse.get_set [] _ _ _ _

/-- What a statistics word that grows leaves of its engine. -/
theorem State.engine_ceCount (s : State) (e w n : Nat) : ((s.ceCount e w n).engine e).queues = (s.engine e).queues ∧
    ((s.ceCount e w n).engine e).stats = Sparse.bump (s.engine e).stats w n := by
  unfold State.ceCount
  dsimp only
  split <;> simp only [State.engine_setEngine_self, and_self]

theorem State.queue_ceCount (s : State) (e w n r : Nat) : ((s.ceCount e w n).engine e).queue r = (s.engine e).queue r := by
  rw [CopyEngine.queue, (s.engine_ceCount e w n).1, CopyEngine.queue]

/-- The statistics of a descriptor's completion. -/
def State.countCompletion (s : State) (e : Nat) (voided : Bool) (st : Status) : State :=
  if voided then (s.ceCount e (if st = .ok then 0 else 1) 1).ceCount e 5 1 else s.ceCount e (if st = .ok then 0 else 1) 1

theorem State.completeCopy_eq (s : State) (e q : Nat) (d : CopyDesc) (st : Status) : s.completeCopy e q d st =
    ((s.setCopy e q { d with done := some st }).countCompletion e d.voided st).svcEvent (ceNode e) 0x40
      (Status.code st * 65536 + (copyFields d.words).id % 65536) := rfl

theorem State.sameButEngine_countCompletion (s : State) (e : Nat) (voided : Bool) (st : Status) :
    s.SameButEngine e (s.countCompletion e voided st) := by
  unfold State.countCompletion
  split
  · exact (s.sameButEngine_ceCount ..).trans (State.sameButEngine_ceCount ..)
  · exact s.sameButEngine_ceCount ..

theorem State.queue_countCompletion (s : State) (e r : Nat) (voided : Bool) (st : Status) :
    ((s.countCompletion e voided st).engine e).queue r = (s.engine e).queue r := by
  unfold State.countCompletion
  split
  · rw [State.queue_ceCount, State.queue_ceCount]
  · rw [State.queue_ceCount]

theorem State.stats_countCompletion (s : State) (e : Nat) (voided : Bool) (st : Status) :
    Sparse.get 0 ((s.countCompletion e voided st).engine e).stats (if st = .ok then 0 else 1) =
      Sparse.get 0 (s.engine e).stats (if st = .ok then 0 else 1) + 1 := by
  have hword : 5 ≠ if st = .ok then 0 else 1 := by split <;> decide
  unfold State.countCompletion
  split
  · rw [(State.engine_ceCount ..).2, Sparse.bump, Sparse.get_set_of_ne _ _ _ hword, (s.engine_ceCount ..).2, Sparse.get_bump_self]
  · rw [(s.engine_ceCount ..).2, Sparse.get_bump_self]

theorem State.sameButEngine_completeCopy (s : State) (e q : Nat) (d : CopyDesc) (st : Status) :
    s.SameButEngine e (s.completeCopy e q d st) :=
  ((s.sameButEngine_setCopy ..).trans (State.sameButEngine_countCompletion ..)).trans ⟨rfl, fun _ _ => rfl⟩

theorem State.queue_completeCopy (s : State) (e q r : Nat) (d : CopyDesc) (st : Status) :
    ((s.completeCopy e q d st).engine e).queue r =
      if q = r then ((s.engine e).queue q).map (replaceCopy { d with done := some st }) else (s.engine e).queue r :=
  (State.queue_countCompletion ..).trans (s.queue_setCopy ..)

theorem State.stats_completeCopy (s : State) (e q : Nat) (d : CopyDesc) (st : Status) :
    Sparse.get 0 ((s.completeCopy e q d st).engine e).stats (if st = .ok then 0 else 1) =
      Sparse.get 0 (s.engine e).stats (if st = .ok then 0 else 1) + 1 := by
  refine (State.stats_countCompletion ..).trans ?_
  rw [State.setCopy, State.engine_setEngine_self]

/-! ### COPY_ACTIVATE (R318, R320) -/

/-- The next descriptor to activate, where all before it have ended and none after it is active. -/
theorem nextActive_of_first {shelf : Bool} {before after : List CopyDesc} {d : CopyDesc}
    (hbefore : ∀ c ∈ before, c.done.isSome = true ∧ c.id ≠ d.id) (hafter : ∀ c ∈ after, c.active = false)
    (hinactive : d.active = false) (hopen : d.done = none) : nextActive shelf (before ++ d :: after) = some d := by
  have hworking : (before ++ d :: after).filter (fun d => d.active && !d.allIssued) = [] := by
    refine List.filter_eq_nil_iff.2 fun c hc => ?_
    obtain hc | hc := List.mem_append.1 hc
    · simp [CopyDesc.allIssued, (hbefore c hc).1]
    · obtain rfl | hc := List.mem_cons.1 hc
      · simp [hinactive]
      · simp [hafter c hc]
  have hfind : (before ++ d :: after).find? (fun d => !d.active && d.done.isNone) = some d :=
    List.find?_eq_some_iff_append.2 ⟨by simp [hinactive, hopen], before, after, rfl, fun c hc => by
      simp [(hbefore c hc).1]⟩
  have htaken : (before ++ d :: after).takeWhile (fun c => c.id ≠ d.id) = before :=
    takeWhile_append_cons (fun c hc => decide_eq_true (hbefore c hc).2) (by simp)
  have hended : before.getLast?.any (fun c => c.done.isNone) = false := by
    cases h : before.getLast? with
    | none => rfl
    | some c => simp [(hbefore c (List.mem_of_getLast? h)).1]
  unfold nextActive
  dsimp only
  rw [hworking, hfind]
  dsimp only
  rw [htaken, hended, Bool.and_false, if_neg Bool.false_ne_true, if_pos (by cases shelf <;> decide)]

/-- The conversion value that the activation of a descriptor latches (R318, log entry 41). -/
def State.latchedConv (s : State) (d : CopyDesc) : Nat :=
  d.carried.getD (if (copyFields d.words).conv = 0 then 0 else s.obj (0x5010 + 0x100 * d.part) (copyFields d.words).conv 0)

/-- The bytes to which that conversion brings one row of a descriptor. -/
def State.rowConverted (s : State) (d : CopyDesc) : Option Nat :=
  (convMode (if d.carried.isSome then 1 else (copyFields d.words).conv) (s.latchedConv d)).bind
    (fun m => convBytes m (copyFields d.words).x)

section
variable {e : CeId} {q : Nat} {s : State} {d : CopyDesc} (hfree : s.ceIsolated e.val = false)
  (hnext : nextActive (q = 0) ((s.engine e.val).queue q) = some d)
include hfree hnext

theorem exec_copyActivate_of_next : exec (.copyActivate e q) s =
    if (copyFields d.words).x = 0 ∨ (copyFields d.words).y = 0 ∨ (copyFields d.words).z = 0 then
      .next (s.completeCopy e.val q { d with active := true, conv := s.latchedConv d } .ok)
    else if s.rowConverted d = none then
      .next (s.completeCopy e.val q { d with active := true, conv := s.latchedConv d } .badDescriptor)
    else .next (s.setCopy e.val q { d with active := true, conv := s.latchedConv d }) := by
  show execCopyActivate e q s = _
  simp only [execCopyActivate, hfree, hnext, Bool.false_eq_true, if_false]
  refine if_congr Iff.rfl rfl ?_
  show (match s.rowConverted d with | none => _ | some _ => _) = _
  cases s.rowConverted d <;> rfl

end

/-! ### ENGINE_ISOLATION_DRAIN (R324) -/

/-- A descriptor of an isolated engine, which ends TARGET_ISOLATED unless it has ended. -/
def CopyDesc.drained (d : CopyDesc) : CopyDesc := if d.done.isNone then { d with done := some .targetIsolated } else d

/-- What the draining of `d` makes of a descriptor of its queue. -/
def drainStep (c d : CopyDesc) : CopyDesc := if d.done.isNone then replaceCopy { d with done := some .targetIsolated } c else c

theorem CopyDesc.id_drained (d : CopyDesc) : d.drained.id = d.id := by
  unfold CopyDesc.drained
  split <;> rfl

theorem drainStep_self (d : CopyDesc) : drainStep d d = d.drained := by
  rw [drainStep, replaceCopy, if_pos rfl]
  rfl

theorem drainStep_of_ne {c d : CopyDesc} (h : c.id ≠ d.id) : drainStep c d = c := by
  rw [drainStep, replaceCopy, if_neg h, ite_self]

theorem foldl_drainStep_of_ne {c : CopyDesc} {l : List CopyDesc} (h : ∀ d ∈ l, c.id ≠ d.id) : l.foldl drainStep c = c := by
  induction l with
  | nil => rfl
  | cons d r ih =>
    rw [List.foldl_cons, drainStep_of_ne (h d List.mem_cons_self)]
    exact ih fun x hx => h x (List.mem_cons_of_mem d hx)

theorem foldl_drainStep_of_mem {c : CopyDesc} {l : List CopyDesc} (hnodup : (l.map (·.id)).Nodup) (hc : c ∈ l) :
    l.foldl drainStep c = c.drained := by
  obtain ⟨before, after, rfl⟩ := List.append_of_mem hc
  rw [List.map_append, List.map_cons, List.nodup_middle, List.nodup_cons, ← List.map_append] at hnodup
  have hne : ∀ d ∈ before ++ after, c.id ≠ d.id := fun d hd heq => hnodup.1 (heq ▸ List.mem_map_of_mem hd)
  rw [List.foldl_append, foldl_drainStep_of_ne fun d hd => hne d (List.mem_append_left _ hd), List.foldl_cons, drainStep_self]
  exact foldl_drainStep_of_ne fun d hd => c.id_drained ▸ hne d (List.mem_append_right _ hd)

/-- One descriptor of a queue drained. -/
def State.drainCopy (e q : Nat) (s : State) (d : CopyDesc) : State :=
  if d.done.isNone then s.completeCopy e q d .targetIsolated else s

theorem State.sameButEngine_drainCopy (e q : Nat) (s : State) (d : CopyDesc) : s.SameButEngine e (s.drainCopy e q d) := by
  unfold State.drainCopy
  split
  · exact s.sameButEngine_completeCopy ..
  · exact .refl s e

theorem State.queue_drainCopy (s : State) (e q r : Nat) (d : CopyDesc) : ((s.drainCopy e q d).engine e).queue r =
    if q = r then ((s.engine e).queue r).map (drainStep · d) else (s.engine e).queue r := by
  unfold State.drainCopy drainStep
  split
  next =>
    rw [State.queue_completeCopy]
    split
    next hq => rw [hq]
    next => rfl
  next => rw [List.map_id', ite_self]

/-- The descriptors of a queue drained, as its entry lists them. -/
def State.drainQueue (e : Nat) (s : State) (x : Nat × List CopyDesc) : State := x.2.foldl (State.drainCopy e x.1) s

theorem State.sameButEngine_drainQueue (e : Nat) (s : State) (x : Nat × List CopyDesc) : s.SameButEngine e (s.drainQueue e x) :=
  foldl_related (State.SameButEngine.refl · e) .trans (State.sameButEngine_drainCopy e x.1) x.2 s

theorem State.queue_drainQueue (s : State) (e r : Nat) (x : Nat × List CopyDesc) : ((s.drainQueue e x).engine e).queue r =
    if x.1 = r then ((s.engine e).queue r).map (x.2.foldl drainStep ·) else (s.engine e).queue r := by
  obtain ⟨q, l⟩ := x
  unfold State.drainQueue
  induction l generalizing s with
  | nil => simp
  | cons d l ih =>
    rw [List.foldl_cons, ih, State.queue_drainCopy]
    split
    · rw [List.map_map]
      rfl
    · rfl

theorem State.queue_drainQueues (s : State) (e r : Nat) {qs : Sparse (List CopyDesc)} (h : qs.Pairwise (fun x y => x.1 < y.1)) :
    ((qs.foldl (State.drainQueue e) s).engine e).queue r = ((s.engine e).queue r).map ((Sparse.get [] qs r).foldl drainStep ·) := by
  induction qs generalizing s with
  | nil => simp
  | cons x qs ih =>
    obtain ⟨hx, hqs⟩ := List.pairwise_cons.1 h
    rw [List.foldl_cons, ih _ hqs, State.queue_drainQueue, Sparse.get]
    split
    next hr =>
      have hone : Sparse.get [] qs r = [] := Sparse.get_of_not_mem _ fun y hy => by
        have := hx y hy
        omega
      rw [hone]
      simp
    next => rfl

theorem exec_engineIsolationDrain_of_isolated {e : CeId} {s : State} (h : s.ceIsolated e.val = true) :
    exec (.engineIsolationDrain e) s = .next ((s.engine e.val).queues.foldl (State.drainQueue e.val) s) := if_pos h

theorem State.queue_drained {s : State} {e q : Nat} (hwf : Sparse.wf [] (s.engine e).queues)
    (hnodup : (((s.engine e).queue q).map (·.id)).Nodup) :
    (((s.engine e).queues.foldl (State.drainQueue e) s).engine e).queue q = ((s.engine e).queue q).map CopyDesc.drained := by
  rw [s.queue_drainQueues e q hwf.1]
  exact List.map_congr_left fun c hc => foldl_drainStep_of_mem hnodup hc

end Sys2Proof.Machine

/-! Requests of the copy engines (R318, R321), and the report of an ended descriptor (R320). -/

namespace Sys2Proof.Machine

/-! ### The read position -/

theorem le_advance (len : Nat → Nat) (k : Nat) : ∀ (ahead : List Nat) (pos : Nat), pos ≤ (advance len ahead k pos).1 := by
  induction k with
  | zero => exact fun _ pos => Nat.le_refl pos
  | succ k ih =>
    intro ahead pos
    rw [advance]
    split
    · exact (Nat.le_add_right pos (len pos)).trans (ih ..)
    · exact Nat.le_refl pos

theorem CopyFields.readLen_pos {f : CopyFields} (hx : 0 < f.x) (i : Nat) : 0 < f.readLen i := by
  have := Nat.mod_lt i hx
  unfold CopyFields.readLen
  omega

/-- The position passes over the piece that left. -/
theorem CopyDesc.readPos_lt_readIssued {d : CopyDesc} (hx : 0 < (copyFields d.words).x) :
    d.readPos < (d.readIssued d.readPos).readPos := by
  show d.readPos < (advance (copyFields d.words).readLen (d.readPos :: d.readAhead) (d.readAhead.length + 1) d.readPos).1
  rw [advance, if_pos (by simp)]
  exact (Nat.lt_add_of_pos_right (CopyFields.readLen_pos hx d.readPos)).trans_le (le_advance ..)

/-- The descriptor once the read at its read position has left. -/
def CopyDesc.readSent (d : CopyDesc) : CopyDesc := { d.readIssued d.readPos with out := (d.readIssued d.readPos).out + 1 }

/-! ### One read (R318) -/

/-- The read request of a local descriptor of a VI's queue, `n` bytes at `a`. -/
def copyReadPacket (e : Nat) (d : CopyDesc) (a n : Nat) : Packet :=
  mkPacket cmdRead (ceNode e) 0 0 a n (copyFields d.words).conv d.vi d.part 2 0 0 0

theorem State.copyRemote_of_local {s : State} {d : CopyDesc} (h : (copyFields d.words).side = 0) (write : Bool) :
    s.copyRemote d write = false := by
  simp [State.copyRemote, State.remote, h]

theorem State.copyPacket_of_local {s : State} {e q : Nat} {d : CopyDesc} (h : (copyFields d.words).side = 0) (hq : q ≠ 0) (a n : Nat) :
    s.copyPacket e q d false a n 0 0 = copyReadPacket e d a n := by
  unfold State.copyPacket
  simp only [State.copyRemote_of_local h, hq, if_false, Bool.false_eq_true]
  rfl

theorem State.copySend_of_local {s : State} {e : Nat} {p : Packet} {d : CopyDesc} (h : (copyFields d.words).side = 0) (write : Bool)
    (why : Purpose) : s.copySend e p d write why = s.issueRequest (ceNode e) p why :=
  if_neg fun ⟨hremote, _⟩ => by simp [State.copyRemote_of_local h] at hremote

theorem State.issueRequest_of_sent {s : State} {node dst tag : Nat} {p : Packet} {why : Purpose}
    (htarget : s.requestTarget p why = some dst) (hdst : dst < 2 ^ 14) (hloaded : s.routesLoaded = true)
    (hto : (s.routeTo node dst).isSome = true) (hback : (s.routeBack node dst).isSome = true)
    (htag : s.tagNow node { p with dest := BitVec.ofNat 14 dst } = some tag) :
    s.issueRequest node p why = .sent (s.launch node tag { p with dest := BitVec.ofNat 14 dst } why) := by
  have hdest : (BitVec.ofNat 14 dst).toNat = dst := (BitVec.toNat_ofNat ..).trans (Nat.mod_eq_of_lt hdst)
  unfold State.issueRequest
  simp only [htarget, hloaded, hdest, htag]
  simp [Option.isSome_iff_ne_none.1 hto, Option.isSome_iff_ne_none.1 hback]

theorem State.requestTarget_copyReadPacket {s : State} {e dst a n : Nat} {d : CopyDesc} (hpart : d.part < 8) (ha : a < 2 ^ 48)
    (hnode : s.nodeOfAddr d.part a = some dst) {q id pos len issue : Nat} :
    s.requestTarget (copyReadPacket e d a n) (.copyRead q id pos len issue) = some dst := by
  have hpartNat : (BitVec.ofNat 3 d.part).toNat = d.part := (BitVec.toNat_ofNat ..).trans (Nat.mod_eq_of_lt hpart)
  have haddr : (BitVec.ofNat 48 a).toNat = a := (BitVec.toNat_ofNat ..).trans (Nat.mod_eq_of_lt ha)
  show s.nodeOfAddr (BitVec.ofNat 3 d.part).toNat (BitVec.ofNat 48 a).toNat = some dst
  rw [hpartNat, haddr, hnode]

theorem State.tryRead_of_sent {s w : State} {e q k : Nat} {d : CopyDesc} (hpos : d.readPos < d.total) (hnew : d.readPos ∉ d.readAhead)
    (hroom : s.stagingRoom e ((copyFields d.words).readLen d.readPos) false = true)
    (hsend : s.copySend e (s.copyPacket e q d false ((copyFields d.words).srcAt d.readPos) ((copyFields d.words).readLen d.readPos) 0 0) d
      false (.copyRead q d.id d.readPos ((copyFields d.words).readLen d.readPos) d.issued) = .sent w) :
    s.tryRead e q d (k + 1) d.readPos [] = some ((w.ceCount e 7 1).setCopy e q d.readSent) := by
  rw [State.tryRead]
  simp only [Nat.not_le.2 hpos, if_false, List.contains_eq_mem, hnew, decide_false, Bool.false_eq_true, List.not_mem_nil, ne_eq,
    not_true_eq_false, hroom, Bool.not_true, Bool.or_self, hsend]
  rfl

theorem State.requestLimit_of_tagNow {s : State} {node tag : Nat} {p : Packet} (h : s.tagNow node p = some tag) :
    (s.initiator node).out.length < requestLimit node := by
  by_contra hfull
  unfold State.tagNow at h
  dsimp only at h
  rw [if_pos (Nat.not_lt.1 hfull)] at h
  cases h

/-- A descriptor that can issue, and whose read can: the read goes first where `w` says so. -/
theorem State.tryCopy_of_read {s u : State} {e q : Nat} {d : CopyDesc} (hactive : d.active = true) (hdone : d.done = none)
    (hfirst : d.first = none) (hvoid : d.voided = false) (hlimit : (s.initiator (ceNode e)).out.length < requestLimit (ceNode e))
    (hhung : (s.partition d.part).state ≠ .hung)
    (hread : s.tryRead e q d (d.total - d.readPos) d.readPos [] = some u) : s.tryCopy e q d false = some u := by
  unfold State.tryCopy
  simp [hactive, hdone, hfirst, hvoid, hlimit, hhung, hread]

/-! ### The turn (R321) -/

theorem State.tryVis_of_only {s u : State} {e v : Nat} {w : Bool} {d : CopyDesc} {vs : List Nat} (hmem : v ∈ vs)
    (hothers : ∀ k, k ≠ v → (s.engine e).queue (2 + k) = [])
    (htry : s.tryEach e (2 + v) w ((s.engine e).queue (2 + v)) = some (d, u)) : s.tryVis e w vs = some (v, u) := by
  induction vs with
  | nil => cases hmem
  | cons k vs ih =>
    rw [State.tryVis]
    by_cases hk : k = v
    · subst hk
      rw [htry]
    · rw [hothers k hk, State.tryEach]
      exact ih ((List.mem_cons.1 hmem).resolve_left fun h => hk h.symm)

/-- A request of the only VI whose queue is in use: the engine's turn is all that changes beside what the request leaves. -/
theorem exec_copyRequestIssue_of_only {e : CeId} {v : ViId} {w : Bool} {s u : State} {d : CopyDesc} (hfree : s.ceIsolated e.val = false)
    (hhung : s.vigil.hung = false) (hshelf : (s.engine e.val).queue 0 = []) (hmgmt : (s.engine e.val).queue 1 = [])
    (hothers : ∀ k, k ≠ v.val → (s.engine e.val).queue (2 + k) = [])
    (htry : s.tryEach e.val (2 + v.val) w ((s.engine e.val).queue (2 + v.val)) = some (d, u)) :
    ∃ run, exec (.copyRequestIssue e w) s = .next (u.setEngine e.val { u.engine e.val with lastVi := v.val, run := run }) := by
  have hround : v.val ∈ (List.range 64).map (fun i => ((s.engine e.val).lastVi + 1 + i) % 64) := by
    have := v.isLt
    exact List.mem_map.2 ⟨(v.val + 64 - ((s.engine e.val).lastVi + 1) % 64) % 64, List.mem_range.2 (by omega), by omega⟩
  show ∃ run, execCopyRequestIssue e w s = _
  unfold execCopyRequestIssue
  rw [if_neg (by simp [hfree, hhung])]
  dsimp only
  rw [hshelf, hmgmt]
  simp only [List.filter_nil, List.append_nil, State.tryEach]
  rw [State.tryVis_of_only (by split <;> simp [hround]) hothers htry]
  exact ⟨_, rfl⟩

theorem State.SameButSending.engines {s u : State} (h : s.SameButSending u) : u.engines = s.engines :=
  (congrArg State.engines (show u.withSendingOf s = s from h) :)

theorem State.sameButSending_sendPacket (s : State) (p : Packet) : s.SameButSending (s.sendPacket p) := by
  unfold State.sendPacket State.sendBy
  split
  · rfl
  · exact s.sameButSending_emitPacket none p

theorem State.sameButSending_launch (s : State) (node tag : Nat) (p : Packet) (why : Purpose) :
    s.SameButSending (s.launch node tag p why) := by
  have hinitiator : ∀ x, s.SameButSending (s.setInitiator node x) := fun _ => rfl
  unfold State.launch
  dsimp only
  split
  · exact (hinitiator _).trans (State.sameButSending_sendPacket ..)
  · exact (hinitiator _).trans (State.sameButSending_sendPacket ..)

/-- What the read of the head of the only VI queue in use leaves. -/
structure State.ReadLaunched (s : State) (e q : Nat) (d : CopyDesc) (w u : State) : Prop where
  net : u.net = w.net
  mem : u.mem = s.mem
  sent : d.readSent ∈ (u.engine e).queue q

theorem State.readLaunched_of_sending {s w : State} {e q : Nat} {d : CopyDesc} {l : List CopyDesc} (lastVi run : Nat)
    (hqueue : (s.engine e).queue q = d :: l) (hsame : s.SameButSending w) :
    let u := (w.ceCount e 7 1).setCopy e q d.readSent
    s.ReadLaunched e q d w (u.setEngine e { u.engine e with lastVi := lastVi, run := run }) := by
  intro u
  have hengine : w.SameButEngine e (u.setEngine e { u.engine e with lastVi := lastVi, run := run }) :=
    ((w.sameButEngine_ceCount e 7 1).trans (State.sameButEngine_setCopy ..)).trans (State.sameButEngine_setEngine ..)
  have hkept : (w.engine e).queue q = d :: l := by
    rw [State.engine, hsame.engines]
    exact hqueue
  have hlisted : (u.engine e).queue q = (d :: l).map (replaceCopy d.readSent) := by
    rw [State.queue_setCopy, if_pos rfl, State.queue_ceCount, hkept]
  refine ⟨hengine.net, hengine.mem.trans hsame.mem, ?_⟩
  rw [State.engine_setEngine_self]
  show d.readSent ∈ (u.engine e).queue q
  rw [hlisted]
  exact List.mem_map.2 ⟨d, List.mem_cons_self, if_pos rfl⟩

/-! ### COPY_REPORT (R320) -/

theorem State.engines_store (s : State) (a n v p : Nat) : (s.store a n v p).engines = s.engines :=
  (congrArg State.engines (show (s.store a n v p).withMemoryOf s = s from s.sameButMemory_store a n v p) :)

theorem State.engines_settleAcc (s : State) (t : TileId) (a comp : Bool) (o n : Nat) : (s.settleAcc t a comp o n).engines = s.engines := by
  refine foldl_related (R := fun s u : State => u.engines = s.engines) (fun _ => rfl) (fun h k => k.trans h) (fun w i => ?_) _ s
  refine foldl_related (R := fun s u : State => u.engines = s.engines) (fun _ => rfl) (fun h k => k.trans h) (fun w base => ?_) _ w
  dsimp only
  split <;> rfl

theorem State.engines_writeLocal (s : State) (t : TileId) (row : LocalRow) (o n v p : Nat) :
    (s.writeLocal t row o n v p).engines = s.engines := by
  cases row with
  | acc a comp => exact (State.engines_settleAcc ..).trans (s.engines_store ..)
  | _ => exact s.engines_store ..

theorem State.engines_addTally (s : State) (c n : Nat) (d : BitVec 32) : (s.addTally c n d).engines = s.engines := by
  obtain ⟨net, ws, h⟩ := s.addTally_eq c n d
  rw [h]
  rfl

theorem State.engines_tallySlot (s : State) (c : Nat) (r : Packet) (off : Nat) : (s.tallySlot c r off true).s.engines = s.engines := by
  unfold State.tallySlot
  split
  · rfl
  · split
    · rfl
    · dsimp only
      split
      · rfl
      · exact s.engines_addTally ..

theorem State.engines_controlAccess (s : State) (node : Nat) (r : Packet) : (s.controlAccess node r true).s.engines = s.engines := by
  unfold State.controlAccess
  dsimp only
  split
  · exact s.engines_tallySlot ..
  · split
    · rfl
    · split <;> rfl

theorem State.engines_sliceAccess (s : State) (sl : Nat) (r : Packet) : (s.sliceAccess sl r true).s.engines = s.engines := by
  unfold State.sliceAccess
  dsimp only
  split
  · rfl
  · split
    · rfl
    · exact s.engines_store ..

theorem State.engines_tileAccess (s : State) (t : TileId) (r : Packet) : (s.tileAccess t r true).s.engines = s.engines := by
  unfold State.tileAccess
  split
  · rfl
  · split
    · rfl
    · rw [if_pos rfl]
      split
      iterate 3
        · rfl
      · split
        · rfl
        · exact s.engines_writeLocal ..

/-- A write that a target serves leaves the copy engines as they were. -/
theorem State.engines_access (s : State) (r : Packet) : (s.access r true).s.engines = s.engines := by
  unfold State.access
  split
  · rfl
  · split
    · rfl
    · split
      · split
        · exact s.engines_controlAccess ..
        · exact s.engines_sliceAccess ..
      · split
        · exact s.engines_tileAccess ..
        · rfl
      · split
        · exact s.engines_controlAccess ..
        · split
          · exact s.engines_store ..
          · rfl
      · exact s.engines_controlAccess ..

theorem State.engines_nodeEvent (s : State) (node code payload : Nat) : (s.nodeEvent node code payload).engines = s.engines := by
  unfold State.nodeEvent
  split <;> rfl

theorem State.engines_countAccess (s : State) (r : Packet) (write : Bool) (st : Status) (poison : Nat) :
    (s.countAccess r write st poison).engines = s.engines := by
  have hcount : ∀ (w : State) (node word n : Nat), (w.netCount node word n).engines = w.engines := fun _ _ _ _ => rfl
  simp only [State.countAccess, apply_ite State.engines, hcount, State.engines_nodeEvent, ite_self]

theorem State.engines_deviceAccess (s : State) (r : Packet) : (s.deviceAccess r true).s.engines = s.engines := by
  unfold State.deviceAccess
  dsimp only
  split
  · rfl
  · split
    · rfl
    · split
      · rfl
      · exact (State.engines_countAccess ..).trans (s.engines_access r)

theorem State.engines_deviceWrite (s : State) (src tag vi part a n v : Nat) : (s.deviceWrite src tag vi part a n v).2.engines = s.engines := by
  unfold State.deviceWrite
  split
  · split
    · rfl
    · split
      · rfl
      · split
        · obtain ⟨out, h⟩ := s.hostWrite_eq vi ((s.translated vi (a - hostBase)).getD (a - hostBase)) n v 0
          rw [h]
        · rfl
  · refine foldl_related (R := fun x y : Status × State => y.2.engines = x.2.engines) (fun _ => rfl) (fun h k => k.trans h)
      (fun x p => ?_) _ (.ok, s)
    split
    · rfl
    · exact State.engines_deviceAccess ..

theorem State.engines_putReport (s : State) (v p addr : Nat) (ws : List Nat) : (s.putReport v p addr ws).engines = s.engines := by
  unfold State.putReport
  dsimp only
  split
  · rfl
  · exact State.engines_deviceWrite ..

theorem State.engines_finishLoad (s : State) (k : CmdKey) : (s.finishLoad k).engines = s.engines := by
  unfold State.finishLoad
  split
  · split
    · rfl
    · dsimp only
      split
      · exact State.engines_putReport ..
      · exact State.engines_putReport ..
  · rfl

theorem State.engines_copyReported (s : State) (d : CopyDesc) (st : Status) : (s.copyReported d st).engines = s.engines := by
  unfold State.copyReported
  split
  · rfl
  · exact State.engines_finishLoad ..
  · rfl
  · rfl

/-- The state without the head of a queue of an engine. -/
def State.popCopy (s : State) (e q : Nat) (l : List CopyDesc) : State :=
  s.setEngine e { s.engine e with queues := Sparse.set [] (s.engine e).queues q l }

section
variable {e : CeId} {q : Nat} {s : State} {d : CopyDesc} {l : List CopyDesc} (hqueue : (s.engine e.val).queue q = d :: l)
include hqueue

theorem exec_copyReport_of_open (h : d.done = none) : exec (.copyReport e q) s = .next s := by
  show execCopyReport e q s = _
  simp only [execCopyReport, hqueue, h]

theorem exec_copyReport_of_ended {st : Status} (h : d.done = some st) :
    exec (.copyReport e q) s = .next ((s.popCopy e.val q l).copyReported d st) := by
  show execCopyReport e q s = _
  simp only [execCopyReport, hqueue, h]
  rfl

end

theorem State.queue_reported (s : State) (e q : Nat) (l : List CopyDesc) (d : CopyDesc) (st : Status) :
    (((s.popCopy e q l).copyReported d st).engine e).queue q = l := by
  rw [State.engine, State.engines_copyReported]
  show ((s.popCopy e q l).engine e).queue q = l
  rw [State.popCopy, State.engine_setEngine_self, CopyEngine.queue, Sparse.get_set_self]

/-! ### The obligation -/

/-- Settles O42: placement by the least load among the candidates, the other commands each by what it leaves of its engine's queues.
The conversion that an activation latches is read from the service side of the object space (log entry 41). -/
theorem copyEnginesFollowTheirRules : Obligations.CopyEnginesFollowTheirRules := by
  unfold Obligations.CopyEnginesFollowTheirRules
  refine ⟨fun d s => ?place, fun s before after d e hwait hbefore hd => ?enqueue,
    fun s h => exec_copyEnqueue_of_none (State.placeable_eq_none h),
    fun e q s before after d hfree hqueue hbefore hafter hinactive hopen => ?activate, fun e q d st s => ?complete,
    fun e v s d l dst tag hfree hhung hshelf hmgmt hothers hqueue hactive hdone hfirst hvoid hpart hpos hnew => ?issue,
    fun e q s d l hqueue => ?report, fun e s => ?drain⟩
  case place =>
    refine ⟨fun e he => ?_, fun hnone k hk => ?_⟩
    · obtain ⟨hmem, hleast⟩ := State.leastBy_of_placeFor he
      exact ⟨State.mem_candidates.1 hmem, fun k hk => hleast k (State.mem_candidates.2 hk)⟩
    · have hmem := State.mem_candidates.2 hk
      rw [State.candidates_of_placeFor_none hnone] at hmem
      cases hmem
  case enqueue =>
    have hnew : d ∉ before := fun h => by cases (hbefore d h).symm.trans hd
    have hplace : s.placeable s.copyWait = some (d, e) := by rw [hwait, State.placeable_of_first hbefore hd]
    have herase : s.copyWait.erase d = before ++ after := by rw [hwait, erase_append_cons hnew]
    refine ⟨_, exec_copyEnqueue_of_placeable hplace, herase, State.queue_enqueueCopy_self .., fun k hk =>
      State.engine_enqueueCopy_of_ne _ d hk, rfl, rfl, rfl⟩
  case activate =>
    have hnext : nextActive (q = 0) ((s.engine e.val).queue q) = some d := by
      rw [hqueue, nextActive_of_first hbefore hafter hinactive hopen]
    have hexec := exec_copyActivate_of_next hfree hnext
    intro f v dx
    refine ⟨fun hempty => hexec.trans (if_pos hempty), fun hx hy hz hnone => hexec.trans ?_, fun hx hy hz hsome => hexec.trans ?_⟩
    · rw [if_neg (by tauto)]
      exact if_pos hnone
    · rw [if_neg (by tauto)]
      exact if_neg (Option.isSome_iff_ne_none.1 hsome)
  case complete =>
    have hsame := s.sameButEngine_completeCopy e q d st
    exact ⟨(s.queue_completeCopy ..).trans (if_pos rfl), s.stats_completeCopy e q d st, hsame.others, hsame.mem, hsame.net, hsame.host⟩
  case issue =>
    intro f a n p hlocal hpart8 ha hnode hdst hloaded hto hback hroom htag
    have hsend : s.copySend e.val (s.copyPacket e.val (2 + v.val) d false a n 0 0) d false
        (.copyRead (2 + v.val) d.id d.readPos n d.issued) = .sent (s.launch (0x2010 + e.val) tag p (.copyRead (2 + v.val) d.id d.readPos n d.issued)) := by
      rw [State.copySend_of_local hlocal, State.copyPacket_of_local hlocal (by omega)]
      exact State.issueRequest_of_sent (State.requestTarget_copyReadPacket hpart8 ha hnode) hdst hloaded hto hback htag
    have hfuel : d.total - d.readPos = d.total - d.readPos - 1 + 1 := by omega
    have hread := State.tryRead_of_sent (k := d.total - d.readPos - 1) hpos hnew hroom hsend
    rw [← hfuel] at hread
    have htry := State.tryCopy_of_read hactive hdone hfirst hvoid (State.requestLimit_of_tagNow htag) hpart hread
    obtain ⟨run, hexec⟩ := exec_copyRequestIssue_of_only hfree hhung hshelf hmgmt hothers (by rw [hqueue, State.tryEach, htry])
    have hleft := State.readLaunched_of_sending v.val run hqueue (s.sameButSending_launch (0x2010 + e.val) tag p
      (.copyRead (2 + v.val) d.id d.readPos n d.issued))
    have hx : 0 < (copyFields d.words).x := Nat.pos_of_mul_pos_right (Nat.zero_lt_of_lt hpos)
    exact ⟨_, d.readSent, hexec, hleft.net, hleft.sent, rfl, rfl, rfl, CopyDesc.readPos_lt_readIssued hx, hleft.mem⟩
  case report =>
    refine ⟨exec_copyReport_of_open hqueue, fun st hst => ⟨_, exec_copyReport_of_ended hqueue hst, s.queue_reported .., fun k hk => ?_,
      fun m hm => ?_⟩⟩
    · simp only [State.copyReported, hk]
      rfl
    · simp only [State.copyReported, hm]
      rfl
  case drain =>
    refine ⟨fun hfree => if_neg (by simp [hfree]), fun hisolated hwf hnodup => ⟨_, exec_engineIsolationDrain_of_isolated hisolated,
      fun q => State.queue_drained hwf (hnodup q), ?_⟩⟩
    have hsame : s.SameButEngine e.val ((s.engine e.val).queues.foldl (State.drainQueue e.val) s) :=
      foldl_related (State.SameButEngine.refl · e.val) .trans (State.sameButEngine_drainQueue e.val) _ s
    exact ⟨hsame.mem, hsame.net⟩

end Sys2Proof.Machine

/-! What the operations of the Session Shelf leave as it was (R336, R338, R342): sessions, pages and promotions read back, and what the
end of a RUN, a release of a page and the end of an operation change of a session. -/

namespace Sys2Proof.Machine

/-! ### Sessions and pages read back -/

theorem State.SameButMemory.shelf {s u : State} (h : s.SameButMemory u) : u.shelf = s.shelf :=
  (congrArg State.shelf (show u.withMemoryOf s = s from h) :)

/-- A session written through to HBM changes the Shelf by that session alone (R336). -/
theorem State.shelf_putSession (s : State) (sid : Nat) (x : Session) :
    (s.putSession sid x).shelf = { s.shelf with sessions := Sparse.set {} s.shelf.sessions sid x } :=
  (State.sameButMemory_store ..).shelf

@[simp] theorem State.session_putSession_self (s : State) (sid : Nat) (x : Session) : (s.putSession sid x).session sid = x := by
  rw [State.session, State.shelf_putSession, Sparse.get_set_self]

theorem State.session_putSession (s : State) (sid : Nat) (x : Session) (j : Nat) :
    (s.putSession sid x).session j = if sid = j then x else s.session j := by
  rw [State.session, State.shelf_putSession, Sparse.get_set]
  rfl

@[simp] theorem State.promotions_putSession (s : State) (sid : Nat) (x : Session) :
    (s.putSession sid x).shelf.promotions = s.shelf.promotions := by rw [State.shelf_putSession]

@[simp] theorem State.moves_putSession (s : State) (sid : Nat) (x : Session) : (s.putSession sid x).shelf.moves = s.shelf.moves := by
  rw [State.shelf_putSession]

/-- A session with an entry of its page table replaced. -/
def Session.withPage (x : Session) (i : Nat) (p : Option Page) : Session := { x with pages := Sparse.set none x.pages i p }

theorem Session.page_withPage_self (x : Session) (i : Nat) (p : Option Page) : (x.withPage i p).page i = p :=
  Sparse.get_set_self ..

/-- An entry written through to HBM changes the Shelf by the session's pages alone (R338). -/
theorem State.shelf_putPage (s : State) (sid i : Nat) (p : Option Page) :
    (s.putPage sid i p).shelf = { s.shelf with sessions := Sparse.set {} s.shelf.sessions sid ((s.session sid).withPage i p) } :=
  (State.sameButMemory_store ..).shelf.trans (State.shelf_putSession ..)

@[simp] theorem State.session_putPage_self (s : State) (sid i : Nat) (p : Option Page) :
    (s.putPage sid i p).session sid = (s.session sid).withPage i p := by
  rw [State.session, State.shelf_putPage, Sparse.get_set_self]

@[simp] theorem State.promotions_putPage (s : State) (sid i : Nat) (p : Option Page) :
    (s.putPage sid i p).shelf.promotions = s.shelf.promotions := by rw [State.shelf_putPage]

@[simp] theorem State.moves_putPage (s : State) (sid i : Nat) (p : Option Page) : (s.putPage sid i p).shelf.moves = s.shelf.moves := by
  rw [State.shelf_putPage]

theorem State.page_putPage_self (s : State) (sid i : Nat) (p : Option Page) : ((s.putPage sid i p).session sid).page i = p := by
  rw [State.session_putPage_self, Session.page_withPage_self]

/-! ### Memory and the Shelf -/

/-- The state with the Shelf, memory and the records of its errors as another state has them. -/
def State.withShelfOf (u s : State) : State := { u.withMemoryOf s with shelf := s.shelf }

/-- Two states that differ in the Shelf, and in memory and the records of its errors, alone. -/
def State.SameButShelf (s u : State) : Prop := u.withShelfOf s = s

theorem State.SameButShelf.refl (s : State) : s.SameButShelf s := rfl

theorem State.SameButShelf.trans {s u v : State} (h : s.SameButShelf u) (k : u.SameButShelf v) : s.SameButShelf v :=
  (congrArg (·.withShelfOf s) k : (v.withShelfOf u).withShelfOf s = u.withShelfOf s).trans h

section
variable {s u : State} (h : s.SameButShelf u)
include h

theorem State.SameButShelf.tiles : u.tiles = s.tiles := (congrArg State.tiles (show u.withShelfOf s = s from h) :)

theorem State.SameButShelf.parts : u.parts = s.parts := (congrArg State.parts (show u.withShelfOf s = s from h) :)

theorem State.SameButShelf.dict : u.dict = s.dict := (congrArg State.dict (show u.withShelfOf s = s from h) :)

theorem State.SameButShelf.engines : u.engines = s.engines := (congrArg State.engines (show u.withShelfOf s = s from h) :)

theorem State.SameButShelf.partition (p : Nat) : u.partition p = s.partition p := by
  rw [State.partition, State.partition, h.parts]

theorem State.SameButShelf.engine (e : Nat) : u.engine e = s.engine e := by
  rw [State.engine, State.engine, h.engines]

end

theorem State.SameButMemory.sameButShelf {s u : State} (h : s.SameButMemory u) : s.SameButShelf u := by
  have hs : u.withMemoryOf s = s := h
  rw [State.SameButShelf, State.withShelfOf, hs]

theorem State.sameButShelf_putSession (s : State) (sid : Nat) (x : Session) : s.SameButShelf (s.putSession sid x) :=
  .trans (u := { s with shelf := { s.shelf with sessions := Sparse.set {} s.shelf.sessions sid x } }) rfl
    (State.sameButMemory_store ..).sameButShelf

theorem State.sameButShelf_putPage (s : State) (sid i : Nat) (p : Option Page) : s.SameButShelf (s.putPage sid i p) :=
  (s.sameButShelf_putSession sid _).trans (State.sameButMemory_store ..).sameButShelf

theorem State.sameButShelf_updPromo (s : State) (id : Nat) (f : ShelfOp → ShelfOp) : s.SameButShelf (s.updPromo id f) := rfl

/-! ### Promotions read back -/

/-- The first promotion with a number. -/
def State.promo (s : State) (id : Nat) : Option ShelfOp := s.shelf.promotions.find? (fun o => o.id = id)

theorem State.promo_eq_of_shelf {s u : State} (h : u.shelf.promotions = s.shelf.promotions) (id : Nat) : u.promo id = s.promo id := by
  rw [State.promo, State.promo, h]

theorem State.mem_of_promo {s : State} {id : Nat} {o : ShelfOp} (h : s.promo id = some o) : o ∈ s.shelf.promotions ∧ o.id = id :=
  ⟨List.mem_of_find?_eq_some h, by simpa using List.find?_some h⟩

@[simp] theorem State.session_updPromo (s : State) (id : Nat) (f : ShelfOp → ShelfOp) (sid : Nat) :
    (s.updPromo id f).session sid = s.session sid := rfl

@[simp] theorem State.mem_updPromo (s : State) (id : Nat) (f : ShelfOp → ShelfOp) : (s.updPromo id f).mem = s.mem := rfl

@[simp] theorem State.moves_updPromo (s : State) (id : Nat) (f : ShelfOp → ShelfOp) : (s.updPromo id f).shelf.moves = s.shelf.moves := rfl

@[simp] theorem State.session_updDemo (s : State) (id : Nat) (f : ShelfOp → ShelfOp) (sid : Nat) :
    (s.updDemo id f).session sid = s.session sid := rfl

/-- A change that keeps the numbers of promotions changes the one it names. -/
theorem State.promo_updPromo_self {s : State} {id : Nat} {o : ShelfOp} {f : ShelfOp → ShelfOp} (hf : ∀ o, (f o).id = o.id)
    (h : s.promo id = some o) : (s.updPromo id f).promo id = some (f o) := by
  have hkey : ∀ p : ShelfOp, (if p.id = id then f p else p).id = p.id := fun p => by
    split
    · exact hf p
    · rfl
  have hfind : s.shelf.promotions.find? (fun o => o.id = id) = some o := h
  rw [State.promo, State.updPromo, List.find?_map]
  simp only [Function.comp_def, hkey, hfind, Option.map_some]
  rw [if_pos (State.mem_of_promo h).2]

theorem filter_updPromo (s : State) (id : Nat) {f : ShelfOp → ShelfOp} (hf : ∀ o, (f o).id = o.id) :
    (s.updPromo id f).shelf.promotions.filter (fun p => p.id ≠ id) = s.shelf.promotions.filter (fun p => p.id ≠ id) := by
  show (s.shelf.promotions.map (fun o => if o.id = id then f o else o)).filter (fun p => p.id ≠ id) = _
  induction s.shelf.promotions with
  | nil => rfl
  | cons o r ih => by_cases ho : o.id = id <;> simp [ho, hf] at ih ⊢ <;> exact ih

/-! ### What a RUN's end changes of sessions (R24, R336) -/

/-- A session with what the end of a RUN changes as another has it. -/
def Session.withUseOf (x y : Session) : Session := { x with tokens := y.tokens, lastRun := y.lastRun, idleSince := y.idleSince }

/-- Two Shelves with the same operations and moves, and sessions that differ in what the end of a RUN changes alone. -/
structure Shelf.SameButUse (h k : Shelf) : Prop where
  promotions : k.promotions = h.promotions
  demotions : k.demotions = h.demotions
  moves : k.moves = h.moves
  session : ∀ sid, (Sparse.get {} k.sessions sid).withUseOf (Sparse.get {} h.sessions sid) = Sparse.get {} h.sessions sid

theorem Shelf.SameButUse.refl (h : Shelf) : h.SameButUse h := ⟨rfl, rfl, rfl, fun _ => rfl⟩

theorem Shelf.SameButUse.trans {h k l : Shelf} (a : h.SameButUse k) (b : k.SameButUse l) : h.SameButUse l where
  promotions := b.promotions.trans a.promotions
  demotions := b.demotions.trans a.demotions
  moves := b.moves.trans a.moves
  session sid := (congrArg (·.withUseOf (Sparse.get {} h.sessions sid)) (b.session sid) :
    (Sparse.get {} l.sessions sid).withUseOf (Sparse.get {} h.sessions sid) =
      (Sparse.get {} k.sessions sid).withUseOf (Sparse.get {} h.sessions sid)).trans (a.session sid)

theorem Shelf.sameButUse_of_sessions {h k : Shelf} (hp : k.promotions = h.promotions) (hd : k.demotions = h.demotions)
    (hm : k.moves = h.moves) (hs : k.sessions = h.sessions) : h.SameButUse k :=
  ⟨hp, hd, hm, fun sid => by rw [hs]; rfl⟩

/-- Two states whose Shelves differ in what the end of a RUN changes of sessions alone. -/
def State.SameButUse (s u : State) : Prop := s.shelf.SameButUse u.shelf

theorem State.SameButUse.refl (s : State) : s.SameButUse s := Shelf.SameButUse.refl _

theorem State.SameButUse.trans {s u v : State} (h : s.SameButUse u) (k : u.SameButUse v) : s.SameButUse v :=
  Shelf.SameButUse.trans h k

theorem State.sameButUse_of_shelf {s u : State} (h : u.shelf = s.shelf) : s.SameButUse u := by
  rw [State.SameButUse, h]
  exact .refl _

theorem State.SameButUse.foldl {α : Type} {s u : State} {f : State → α → State} (h : s.SameButUse u)
    (hf : ∀ (w : State) e, w.SameButUse (f w e)) (l : List α) : s.SameButUse (l.foldl f u) :=
  h.trans (foldl_related .refl .trans hf l u)

theorem State.sameButUse_updCmd (s : State) (k : CmdKey) (f : Cmd → Cmd) : s.SameButUse (s.updCmd k f) := .refl s

theorem State.sameButUse_releasePage (s : State) (part vi : Nat) (p : Page) : s.SameButUse (s.releasePage part vi p) := by
  unfold State.releasePage
  split <;> exact Shelf.sameButUse_of_sessions rfl rfl rfl rfl

theorem State.sameButUse_retire (s : State) (part vi : Nat) (p : Page) : s.SameButUse (s.retire part vi p) := by
  unfold State.retire
  dsimp only
  split
  · exact s.sameButUse_releasePage part vi p
  · exact Shelf.sameButUse_of_sessions rfl rfl rfl rfl

theorem State.sameButUse_taskLeft (s : State) (c : Nat) (k : CmdKey) (pos : Nat) : s.SameButUse (s.taskLeft c k pos) :=
  .trans (u := { s with shelf := { s.shelf with retired :=
      (s.shelf.retired.map (fun r => { r with tasks := r.tasks.erase (c, k, pos) })).filter (fun r => !r.tasks.isEmpty) } })
    (Shelf.sameButUse_of_sessions rfl rfl rfl rfl)
    (.foldl (.refl _) (fun w (r : Retired) => w.sameButUse_releasePage r.part r.vi r.page) _)

theorem State.sameButUse_runOver (s : State) (e n : Nat) : s.SameButUse (s.runOver e n) := by
  unfold State.runOver
  split
  · exact .refl s
  · rename_i sid _
    dsimp only
    split
    · exact .refl s
    · rw [State.SameButUse, State.shelf_putSession]
      refine ⟨rfl, rfl, rfl, fun j => ?_⟩
      dsimp only
      rw [Sparse.get_set]
      split
      · next hj => rw [← hj]; rfl
      · rfl

theorem State.sameButUse_finishRun (s : State) (k : CmdKey) : s.SameButUse (s.finishRun k) := by
  unfold State.finishRun
  split
  · exact .refl s
  · dsimp only
    split
    · exact .trans (State.sameButUse_of_shelf (s.endCmd_shelf k _ _)) (State.sameButUse_runOver ..)
    · exact .refl s

theorem State.shelf_taskOut (s : State) (c q : Nat) (t : Task) (e : TaskEnd) :
    ∃ w : State, w.shelf = s.shelf ∧ (s.taskOut c q t e).shelf = (w.taskLeft c t.cmd t.pos).shelf := by
  unfold State.taskOut
  dsimp only
  split <;> exact ⟨_, by rfl, rfl⟩

theorem State.sameButUse_taskOut (s : State) (c q : Nat) (t : Task) (e : TaskEnd) : s.SameButUse (s.taskOut c q t e) := by
  obtain ⟨w, hw, hout⟩ := s.shelf_taskOut c q t e
  rw [State.SameButUse, hout, ← hw]
  exact w.sameButUse_taskLeft ..

theorem State.shelf_withdraw (s : State) (t : Nat) : (s.withdraw t).shelf = s.shelf := by
  unfold State.withdraw
  split
  · rfl
  · refine foldl_related (R := fun s u : State => u.shelf = s.shelf) (fun _ => rfl) (fun h k => k.trans h) (fun w ch => ?_) _ s
    dsimp only
    split <;> rfl

theorem State.shelf_stopTile (s : State) (t : TileId) (st : Status) (id : Nat) : (s.stopTile t st id).shelf = s.shelf := by
  obtain ⟨x, ws, h⟩ := s.stopTile_eq t st id
  rw [h, State.shelf_withdraw]
  rfl

theorem State.shelf_stopTiles (s : State) (ts : List Nat) (st : Status) (id : Nat) : (s.stopTiles ts st id).shelf = s.shelf := by
  refine foldl_related (R := fun s u : State => u.shelf = s.shelf) (fun _ => rfl) (fun h k => k.trans h) (fun w t => ?_) ts s
  split
  · exact w.shelf_stopTile ..
  · rfl

theorem State.sameButUse_cancelTask (s : State) (c q : Nat) (t : Task) : s.SameButUse (s.cancelTask c q t) := by
  unfold State.cancelTask
  split
  · exact (State.sameButUse_of_shelf (s.shelf_stopTiles ..)).trans (State.sameButUse_taskOut ..)
  · exact s.sameButUse_taskOut c q t .cancelled

theorem State.sameButUse_cancelRun (s : State) (k : CmdKey) : s.SameButUse (s.cancelRun k) := by
  unfold State.cancelRun
  dsimp only
  refine .trans ?_ (State.sameButUse_finishRun _ k)
  refine .foldl (s.sameButUse_updCmd k _) (fun w c => ?_) _
  exact .foldl (.refl w) (fun w q => .foldl (.refl w) (fun w t => w.sameButUse_cancelTask c q t) _) _

theorem State.sameButUse_failRun (s : State) (k : CmdKey) (at_ pos : Nat) (st : Status) : s.SameButUse (s.failRun k at_ pos st) :=
  (s.sameButUse_updCmd k _).trans (State.sameButUse_cancelRun _ k)

theorem State.sameButUse_failSession (s : State) (sid : Nat) (st : Status) : s.SameButUse (s.failSession sid st) :=
  .foldl (.refl s) (fun w k => w.sameButUse_failRun k 0 0 st) _

end Sys2Proof.Machine

/-! How operations of the Session Shelf end (R33, R342 to R348): what the end of a promotion, and of a demotion, leaves of sessions, of
the queues and of the moves in flight. -/

namespace Sys2Proof.Machine

/-! ### The end of a promotion -/

/-- A session whose promotion has ended with a status, at the cycle of a state (R336). -/
def Session.wakeEnded (x : Session) (s : State) (o : ShelfOp) (st : Status) : Session :=
  { x with promoting := false, wakeStatus := st, wakeCal := o.tW, wakeDH := s.since16 o.tW, idleSince := s.calends
           h := if o.started then x.h else 0 }

/-- The state without the promotions of a number. -/
def State.dropPromo (s : State) (id : Nat) : State :=
  { s with shelf := { s.shelf with promotions := s.shelf.promotions.filter (fun p => p.id ≠ id) } }

/-- The end of a promotion in its session's descriptor, and its event; a CLOSED session has neither. -/
def State.noteEnd (s : State) (x : Session) (o : ShelfOp) (st : Status) : State :=
  let s := if x.state = .closed then s else s.putSession o.sid (x.wakeEnded s o st)
  if x.state = .closed then s else s.svcEvent mgmtNode 0x20 ((Status.code st) * 65536 + o.sid % 65536)

/-- The RUNs that fail with a promotion's status. -/
def State.failRuns (s : State) (sid : Nat) (st : Status) : State :=
  if st = .noSpace ∨ st = .outOfRange then s.failSession sid st else s

/-- The end of a promotion as its command has it. -/
def State.tellEnd (s : State) (o : ShelfOp) (st : Status) : State :=
  match o.cmd, o.kind with
  | some k, .run _ =>
    if o.started then s
    else if st = .ok then (s.updCmd k (fun c => { c with reserved := true })).finishRun k
    else s.failRun k 0 0 st
  | some k, _ => s.endCmd k st (s.session o.sid).word7
  | none, _ => s

/-- Frames that go back change no more than the partitions. -/
theorem State.foldl_releaseFrame_eq (s : State) (p : Nat) (l : List Nat) :
    ∃ ps, l.foldl (fun w f => w.releaseFrame p f) s = { s with parts := ps } := by
  induction l generalizing s with
  | nil => exact ⟨s.parts, rfl⟩
  | cons f r ih => exact ih (s.releaseFrame p f)

theorem State.endPromo_eq (s : State) (o : ShelfOp) (st : Status) : s.endPromo o st =
    (((o.frames.foldl (fun w f => w.releaseFrame (s.session o.sid).part f) (s.dropPromo o.id)).noteEnd (s.session o.sid) o st).failRuns
      o.sid st).tellEnd o st := rfl

/-- The Shelf once a promotion has ended and its session's descriptor says so. -/
def State.shelfEnded (s : State) (o : ShelfOp) (st : Status) : Shelf :=
  { s.shelf with
    promotions := s.shelf.promotions.filter (fun p => p.id ≠ o.id)
    sessions := if (s.session o.sid).state = .closed then s.shelf.sessions
      else Sparse.set {} s.shelf.sessions o.sid ((s.session o.sid).wakeEnded s o st) }

theorem State.shelf_noteEnd (s : State) (x : Session) (o : ShelfOp) (st : Status) : (s.noteEnd x o st).shelf =
    { s.shelf with sessions := if x.state = .closed then s.shelf.sessions
      else Sparse.set {} s.shelf.sessions o.sid (x.wakeEnded s o st) } := by
  by_cases hx : x.state = .closed
  · rw [State.noteEnd, if_pos hx, if_pos hx, if_pos hx]
  · rw [State.noteEnd, if_neg hx, if_neg hx, if_neg hx, State.svcEvent_shelf, State.shelf_putSession]

theorem State.shelf_noted (s : State) (o : ShelfOp) (st : Status) :
    ((o.frames.foldl (fun w f => w.releaseFrame (s.session o.sid).part f) (s.dropPromo o.id)).noteEnd (s.session o.sid) o st).shelf =
      s.shelfEnded o st := by
  obtain ⟨ps, hps⟩ := (s.dropPromo o.id).foldl_releaseFrame_eq (s.session o.sid).part o.frames
  rw [hps, State.shelf_noteEnd]
  rfl

theorem State.sameButUse_failRuns (s : State) (sid : Nat) (st : Status) : s.SameButUse (s.failRuns sid st) := by
  unfold State.failRuns
  split
  · exact s.sameButUse_failSession sid st
  · exact .refl s

theorem State.sameButUse_tellEnd (s : State) (o : ShelfOp) (st : Status) : s.SameButUse (s.tellEnd o st) := by
  unfold State.tellEnd
  split
  · split
    · exact .refl s
    · split
      · exact (s.sameButUse_updCmd _ _).trans (State.sameButUse_finishRun ..)
      · exact s.sameButUse_failRun ..
  · exact State.sameButUse_of_shelf (s.endCmd_shelf ..)
  · exact .refl s

/-- What the end of a promotion leaves of the Shelf, up to what the end of a RUN changes of sessions. -/
theorem State.sameButUse_endPromo (s : State) (o : ShelfOp) (st : Status) : (s.shelfEnded o st).SameButUse (s.endPromo o st).shelf := by
  rw [State.endPromo_eq, ← State.shelf_noted]
  exact (State.sameButUse_failRuns ..).trans (State.sameButUse_tellEnd ..)

/-- The promotion of a session that is not CLOSED has ended with a status: its descriptor says so, and keeps pages, state and PIN. -/
structure State.PromoEnded (s : State) (o : ShelfOp) (st : Status) (u : State) : Prop where
  promotions : u.shelf.promotions = s.shelf.promotions.filter (fun p => p.id ≠ o.id)
  status : (u.session o.sid).wakeStatus = st
  cal : (u.session o.sid).wakeCal = o.tW
  pages : (u.session o.sid).pages = (s.session o.sid).pages
  state : (u.session o.sid).state = (s.session o.sid).state
  pin : (u.session o.sid).pin = (s.session o.sid).pin

theorem State.promoEnded_endPromo {s : State} {o : ShelfOp} (hopen : (s.session o.sid).state ≠ .closed) (st : Status) :
    s.PromoEnded o st (s.endPromo o st) := by
  have hsame := s.sameButUse_endPromo o st
  have hown : ((s.endPromo o st).session o.sid).withUseOf ((s.session o.sid).wakeEnded s o st) = (s.session o.sid).wakeEnded s o st := by
    have h := hsame.session o.sid
    rwa [State.shelfEnded, if_neg hopen, Sparse.get_set_self] at h
  exact ⟨hsame.promotions, (congrArg Session.wakeStatus hown :), (congrArg Session.wakeCal hown :),
    (congrArg Session.pages hown :), (congrArg Session.state hown :), (congrArg Session.pin hown :)⟩

/-- The promotion of a CLOSED session ends in the queue, its partition and its command alone. -/
theorem State.endPromo_of_closed {s : State} {o : ShelfOp} (hclosed : (s.session o.sid).state = .closed) :
    ∃ ps, s.endPromo o .notFound = ({ s.dropPromo o.id with parts := ps } : State).tellEnd o .notFound := by
  obtain ⟨ps, hps⟩ := (s.dropPromo o.id).foldl_releaseFrame_eq (s.session o.sid).part o.frames
  refine ⟨ps, ?_⟩
  rw [State.endPromo_eq, hps]
  simp only [State.noteEnd, State.failRuns, hclosed, if_true, reduceCtorEq, or_self, if_false]

/-! ### What the end of an operation leaves of pages -/

/-- Two Shelves with the same moves, and sessions with the same pages, failed moves and waiting CLOSE. -/
structure Shelf.SamePages (h k : Shelf) : Prop where
  moves : k.moves = h.moves
  pages : ∀ sid, (Sparse.get {} k.sessions sid).pages = (Sparse.get {} h.sessions sid).pages
  failed : ∀ sid, (Sparse.get {} k.sessions sid).failed = (Sparse.get {} h.sessions sid).failed
  closing : ∀ sid, (Sparse.get {} k.sessions sid).closing = (Sparse.get {} h.sessions sid).closing

theorem Shelf.SamePages.trans {h k l : Shelf} (a : h.SamePages k) (b : k.SamePages l) : h.SamePages l where
  moves := b.moves.trans a.moves
  pages sid := (b.pages sid).trans (a.pages sid)
  failed sid := (b.failed sid).trans (a.failed sid)
  closing sid := (b.closing sid).trans (a.closing sid)

theorem Shelf.SameButUse.samePages {h k : Shelf} (a : h.SameButUse k) : h.SamePages k where
  moves := a.moves
  pages sid := (congrArg Session.pages (a.session sid) :)
  failed sid := (congrArg Session.failed (a.session sid) :)
  closing sid := (congrArg Session.closing (a.session sid) :)

/-- A session replaced by one with the same pages, failed moves and waiting CLOSE. -/
theorem Shelf.samePages_set {h k : Shelf} {sid : Nat} {x : Session} (hm : k.moves = h.moves)
    (hs : k.sessions = Sparse.set {} h.sessions sid x) (hp : x.pages = (Sparse.get {} h.sessions sid).pages)
    (hf : x.failed = (Sparse.get {} h.sessions sid).failed) (hc : x.closing = (Sparse.get {} h.sessions sid).closing) : h.SamePages k := by
  refine ⟨hm, fun j => ?_, fun j => ?_, fun j => ?_⟩ <;> rw [hs, Sparse.get_set] <;> split
  case refine_1.isTrue hj => exact hj ▸ hp
  case refine_2.isTrue hj => exact hj ▸ hf
  case refine_3.isTrue hj => exact hj ▸ hc
  all_goals rfl

/-- Two states whose Shelves have the same moves and pages. -/
def State.SamePages (s u : State) : Prop := s.shelf.SamePages u.shelf

theorem State.SamePages.refl (s : State) : s.SamePages s := ⟨rfl, fun _ => rfl, fun _ => rfl, fun _ => rfl⟩

theorem State.SamePages.trans {s u v : State} (h : s.SamePages u) (k : u.SamePages v) : s.SamePages v := Shelf.SamePages.trans h k

theorem State.SamePages.failed_session {s u : State} (h : s.SamePages u) (sid : Nat) : (u.session sid).failed = (s.session sid).failed :=
  h.failed sid

theorem State.samePages_of_shelf {s u : State} (hm : u.shelf.moves = s.shelf.moves) (hs : u.shelf.sessions = s.shelf.sessions) :
    s.SamePages u :=
  ⟨hm, fun _ => by rw [hs], fun _ => by rw [hs], fun _ => by rw [hs]⟩

theorem State.samePages_putSession {s : State} {sid : Nat} {x : Session} (hp : x.pages = (s.session sid).pages)
    (hf : x.failed = (s.session sid).failed) (hc : x.closing = (s.session sid).closing) : s.SamePages (s.putSession sid x) := by
  rw [State.SamePages, State.shelf_putSession]
  exact Shelf.samePages_set rfl rfl hp hf hc

theorem State.samePages_updPromo (s : State) (id : Nat) (f : ShelfOp → ShelfOp) : s.SamePages (s.updPromo id f) :=
  State.samePages_of_shelf rfl rfl

theorem State.samePages_updDemo (s : State) (id : Nat) (f : ShelfOp → ShelfOp) : s.SamePages (s.updDemo id f) :=
  State.samePages_of_shelf rfl rfl

theorem State.samePages_endPromo (s : State) (o : ShelfOp) (st : Status) : s.SamePages (s.endPromo o st) := by
  refine Shelf.SamePages.trans (k := s.shelfEnded o st) ?_ (s.sameButUse_endPromo o st).samePages
  by_cases hclosed : (s.session o.sid).state = .closed
  · rw [State.shelfEnded, if_pos hclosed]
    exact ⟨rfl, fun _ => rfl, fun _ => rfl, fun _ => rfl⟩
  · rw [State.shelfEnded, if_neg hclosed]
    exact Shelf.samePages_set rfl rfl rfl rfl rfl

theorem State.samePages_publish (s : State) (o : ShelfOp) : s.SamePages (s.publish o) := by
  unfold State.publish
  split
  · refine .trans (State.samePages_putSession ?_ ?_ ?_) (State.samePages_updPromo ..) <;> rfl
  · exact .refl s

theorem State.samePages_settlePromo (s : State) (id : Nat) : s.SamePages (s.settlePromo id) := by
  unfold State.settlePromo
  split
  · exact .refl s
  · dsimp only
    split
    · exact (s.samePages_publish _).trans (State.samePages_endPromo ..)
    · exact s.samePages_publish _

theorem State.samePages_endDemo (s : State) (o : ShelfOp) : s.SamePages (s.endDemo o) := by
  unfold State.endDemo
  extract_lets _ s₁ x y parked was y' s₂ s₃ _ s₄
  have hqueue : s.SamePages s₁ := State.samePages_of_shelf rfl rfl
  have hown : y'.pages = x.pages ∧ y'.failed = x.failed ∧ y'.closing = x.closing := by
    dsimp only [y']
    split <;> exact ⟨rfl, rfl, rfl⟩
  have hsession : s₁.SamePages s₂ := by
    dsimp only [s₂]
    split
    · exact .refl s₁
    · exact State.samePages_putSession hown.1 hown.2.1 hown.2.2
  have hevent : s₂.SamePages s₃ := by
    dsimp only [s₃]
    split
    · exact State.samePages_of_shelf rfl rfl
    · exact .refl s₂
  have hcount : s₃.SamePages s₄ := by
    dsimp only [s₄]
    split
    · exact State.samePages_of_shelf rfl rfl
    · exact .refl s₃
  refine ((hqueue.trans hsession).trans (hevent.trans hcount)).trans ?_
  split
  · split
    · exact State.samePages_of_shelf rfl rfl
    · split
      · exact .refl s₄
      · exact s₄.samePages_updPromo _ _
  · exact State.samePages_of_shelf rfl rfl
  · exact .refl s₄

theorem State.samePages_settleDemo (s : State) (id : Nat) : s.SamePages (s.settleDemo id) := by
  unfold State.settleDemo
  split
  · exact .refl s
  · split
    · exact s.samePages_endDemo _
    · exact .refl s

theorem State.samePages_afterMove (s : State) (op : Nat) : s.SamePages (s.afterMove op) :=
  (s.samePages_settlePromo op).trans (State.samePages_settleDemo ..)

end Sys2Proof.Machine

/-! Page moves (R33, R338, R345): the copy a move queues, the issue of the next move of a promotion, and step 3 of a move whose copy has
been reported. -/

namespace Sys2Proof.Machine

/-! ### The copy of a move -/

section
variable (src dst n e : Nat)

theorem src_shelfCopy : (copyFields (shelfCopy src dst n e)).src = src % 2 ^ 48 := by
  simp only [copyFields, shelfCopy, laneNat_ofLanes, bitsAt, Nat.shiftRight_zero, List.getD_cons_zero]
  exact Nat.mod_mod_of_dvd src (by decide)

theorem dst_shelfCopy : (copyFields (shelfCopy src dst n e)).dst = dst % 2 ^ 48 := by
  simp only [copyFields, shelfCopy, laneNat_ofLanes, bitsAt, Nat.shiftRight_zero, List.getD_cons_zero, List.getD_cons_succ]
  exact Nat.mod_mod_of_dvd dst (by decide)

theorem x_shelfCopy (hn : n < 2 ^ 32) : (copyFields (shelfCopy src dst n e)).x = n := by
  simp only [copyFields, shelfCopy, laneNat_ofLanes, bitsAt, Nat.shiftRight_zero, List.getD_cons_zero, List.getD_cons_succ]
  omega

end

/-- The copy descriptor of a move (R338): one row, whole or compressed, that carries its conversion. -/
def State.moveCopy (s : State) (m : PageMove) (src : Page) (x : Session) (e : Nat) : CopyDesc :=
  { id := s.serial, owner := .shelf m.id, vi := x.vi, part := x.part
    words := shelfCopy src.addr m.target.addr (if src.c then 32768 else 65536) e
    carried := if src.c = m.target.c then none else some (carriedConv x m.target.c) }

theorem State.queueMove_eq (s : State) (m : PageMove) (src : Page) (x : Session) (e : Nat) :
    s.queueMove m src x e = ({ s with serial := s.serial + 1 } : State).enqueueCopy e (s.moveCopy m src x e) := by
  by_cases hc : src.c = m.target.c <;> simp only [State.queueMove, State.moveCopy, hc, if_true, if_false]

theorem State.shelf_queueMove (s : State) (m : PageMove) (src : Page) (x : Session) (e : Nat) :
    (s.queueMove m src x e).shelf = s.shelf := rfl

theorem State.queue_queueMove (s : State) (m : PageMove) (src : Page) (x : Session) (e : Nat) :
    ((s.queueMove m src x e).engine e).queue 0 = (s.engine e).queue 0 ++ [s.moveCopy m src x e] := by
  rw [State.queueMove_eq]
  exact State.queue_enqueueCopy_self { s with serial := s.serial + 1 } e (s.moveCopy m src x e)

/-! ### PAGE_MOVE_ISSUE (R345) -/

/-- The state with a move in flight. -/
def State.addMove (s : State) (op sid entry : Nat) (target : Page) : State :=
  { s with serial := s.serial + 1, shelf := { s.shelf with moves := s.shelf.moves ++
    [{ id := s.serial, op := op, sid := sid, entry := entry, target := target }] } }

theorem State.beginMove_eq (s : State) (op sid entry : Nat) (src target : Page) (e : Nat) : s.beginMove op sid entry src target e =
    ((s.addMove op sid entry target).putPage sid entry (some { src with moving := true })).queueMove
      { id := s.serial, op := op, sid := sid, entry := entry, target := target } src (s.session sid) e := rfl

/-- A move of a page has begun (R338, steps 1 and 2): it is in flight, its entry reads MOVING, and its copy is queued. -/
structure State.MoveBegun (s : State) (op sid entry : Nat) (src target : Page) (e : Nat) (u : State) : Prop where
  moves : u.shelf.moves = s.shelf.moves ++ [⟨s.serial, op, sid, entry, target, false, none, 0⟩]
  page : (u.session sid).page entry = some { src with moving := true }
  copy : ∃ w : State, (u.engine e).queue 0 = (s.engine e).queue 0 ++
    [w.moveCopy ⟨s.serial, op, sid, entry, target, false, none, 0⟩ src (s.session sid) e]
  tiles : u.tiles = s.tiles

theorem State.moveBegun_beginMove (s : State) (op sid entry : Nat) (src target : Page) (e : Nat) :
    s.MoveBegun op sid entry src target e (s.beginMove op sid entry src target e) := by
  have hput := (s.addMove op sid entry target).sameButShelf_putPage sid entry (some { src with moving := true })
  rw [State.beginMove_eq]
  refine ⟨?moves, ?page, ?copy, hput.tiles⟩
  case moves =>
    rw [State.shelf_queueMove, State.moves_putPage]
    rfl
  case page => exact State.page_putPage_self ..
  case copy =>
    refine ⟨(s.addMove op sid entry target).putPage sid entry (some { src with moving := true }), ?_⟩
    rw [State.queue_queueMove, hput.engine]
    rfl

/-- With no operation of a HUNG partition none is stopped. -/
theorem State.stopHung_of_none {s : State}
    (h : ∀ y ∈ s.shelf.promotions ++ s.shelf.demotions, (s.partition (s.session y.sid).part).state ≠ .hung) : s.stopHung = s := by
  have hpromo : s.shelf.promotions.filter (fun o => o.started && !o.todo.isEmpty &&
      decide ((s.partition (s.session o.sid).part).state = .hung)) = [] :=
    List.filter_eq_nil_iff.2 fun o ho => by simp [h o (List.mem_append_left _ ho)]
  have hdemo : s.shelf.demotions.filter (fun o => decide ((s.partition (s.session o.sid).part).state = .hung)) = [] :=
    List.filter_eq_nil_iff.2 fun o ho => by simp [h o (List.mem_append_right _ ho)]
  unfold State.stopHung
  dsimp only
  rw [hpromo, List.foldl_nil, hdemo, List.foldl_nil]

theorem exec_pageMoveIssue_of_promo {s : State} {e : Nat} {o : ShelfOp} (hvigil : s.vigil.hung = false) (hengine : s.shelfEngine = some e)
    (hstop : s.stopHung = s) (hnext : s.shelf.promotions.find? (fun o => o.started && !o.todo.isEmpty && s.mayMove o) = some o) :
    exec .pageMoveIssue s = .next (s.issuePromo o e) := by
  show execPageMoveIssue s = _
  unfold execPageMoveIssue
  dsimp only
  rw [hstop, hvigil, if_neg Bool.false_ne_true, hengine]
  dsimp only
  rw [hnext]

theorem State.issuePromo_of_page {s : State} {o : ShelfOp} {i f : Nat} {rest fs : List Nat} {p : Page} (e : Nat) (htodo : o.todo = i :: rest)
    (hframes : o.frames = f :: fs) (hpage : (s.session o.sid).page i = some p) (htier : p.tier ≠ .t0) :
    s.issuePromo o e = (s.updPromo o.id (fun o => { o with todo := rest, frames := fs })).beginMove o.id o.sid i p
      ⟨.t0, false, false, s.frameAddr (s.session o.sid).part f⟩ e := by
  unfold State.issuePromo
  rw [htodo, hframes]
  dsimp only
  rw [hpage]
  exact if_neg htier

/-! ### PAGE_MOVE_COMPLETE (R33, R338) -/

/-- A move whose copy ended with a status is issued once more (R33). -/
def State.movesAgain (s : State) (m : PageMove) (st : Status) (old : Page) : Bool :=
  !m.again && !(s.session m.sid).closing && ((st = .timeout && old.tier = .t2) || st = .targetIsolated)

theorem State.movesAgain_iff {s : State} {m : PageMove} {st : Status} {old : Page} (hopen : (s.session m.sid).closing = false) :
    s.movesAgain m st old = true ↔ m.again = false ∧ ((st = .timeout ∧ old.tier = .t2) ∨ st = .targetIsolated) := by
  simp [State.movesAgain, hopen]

/-- The state without the moves of a number. -/
def State.endMove (s : State) (mv : Nat) : State :=
  { s with shelf := { s.shelf with moves := s.shelf.moves.filter (fun y : PageMove => y.id ≠ mv) } }

/-- The state with the moves of a number replaced. -/
def State.setMove (s : State) (mv : Nat) (m : PageMove) : State :=
  { s with shelf := { s.shelf with moves := s.shelf.moves.map (fun y : PageMove => if y.id = mv then m else y) } }

/-- Step 3 of a move whose copy succeeded (R338): the new location is published and the old one retired. -/
def State.publishMove (s : State) (m : PageMove) (old : Page) : State :=
  let x := s.session m.sid
  let s := s.putPage m.sid m.entry (some m.target)
  let y := s.session m.sid
  let y := { y with h := if old.tier = .t2 then max y.h m.longest else y.h
                    failed := y.failed.filter (fun f => f.1 ≠ m.entry) }
  let s := s.putSession m.sid y
  let s := if y.state = .live then s else s.putSession m.sid { s.session m.sid with state := (s.session m.sid).parkedState }
  s.retire x.part x.vi { old with moving := false }

/-- A move that failed for good (R33, R338): its entry stays, and its operation notes the status. -/
def State.failMove (s : State) (m : PageMove) (st : Status) : State :=
  let s := s.dropMove m
  let y := s.session m.sid
  let s := if m.target.tier = .t0 then
      s.putSession m.sid { y with failed := y.failed.filter (fun f => f.1 ≠ m.entry) ++ [(m.entry, st, false)] }
    else s
  let note := fun (o : ShelfOp) => { o with status := if o.status = .ok then st else o.status }
  (s.updPromo m.op note).updDemo m.op (fun o => { note o with todo := [] })

section
variable {mv : Nat} {s : State} {m : PageMove} {st : Status} {old : Page} (hfind : s.shelf.moves.find? (fun m => m.id = mv) = some m)
  (hresult : m.result = some st) (hpage : (s.session m.sid).page m.entry = some old)
include hfind hresult hpage

theorem exec_pageMoveComplete_of_reported : exec (.pageMoveComplete mv) s = match s.movesAgain m st old, s.shelfEngine with
    | true, some e => .next ((s.setMove mv { m with again := true, result := none }).queueMove { m with again := true, result := none } old
        (s.session m.sid) e)
    | true, none => .next s
    | false, _ => .next (((if st = .ok then (s.endMove mv).publishMove m old else (s.endMove mv).failMove m st).afterMove m.op).settleClose
        m.sid) := by
  show execPageMoveComplete mv s = _
  unfold execPageMoveComplete
  rw [hfind]
  dsimp only
  rw [hresult, hpage]
  rfl

theorem exec_pageMoveComplete_of_over (hagain : s.movesAgain m st old = false) : exec (.pageMoveComplete mv) s =
    .next (((if st = .ok then (s.endMove mv).publishMove m old else (s.endMove mv).failMove m st).afterMove m.op).settleClose m.sid) := by
  rw [exec_pageMoveComplete_of_reported hfind hresult hpage, hagain]

theorem exec_pageMoveComplete_of_waiting (hagain : s.movesAgain m st old = true) (hengine : s.shelfEngine = none) :
    exec (.pageMoveComplete mv) s = .next s := by
  rw [exec_pageMoveComplete_of_reported hfind hresult hpage, hagain, hengine]

theorem exec_pageMoveComplete_of_again {e : Nat} (hagain : s.movesAgain m st old = true) (hengine : s.shelfEngine = some e) :
    exec (.pageMoveComplete mv) s = .next ((s.setMove mv { m with again := true, result := none }).queueMove
      { m with again := true, result := none } old (s.session m.sid) e) := by
  rw [exec_pageMoveComplete_of_reported hfind hresult hpage, hagain, hengine]

end

/-- A move has ended: its entry reads as stated, no CLOSE of its session waits, and no move of its number is in flight. -/
structure State.MoveOver (mv : Nat) (m : PageMove) (p : Page) (u : State) : Prop where
  page : (u.session m.sid).page m.entry = some p
  closing : (u.session m.sid).closing = false
  moves : ∀ k ∈ u.shelf.moves, k.id ≠ mv

theorem State.MoveOver.of_samePages {mv : Nat} {m : PageMove} {p : Page} {s u : State} (h : State.MoveOver mv m p s) (k : s.SamePages u) :
    State.MoveOver mv m p u where
  page := (congrArg (fun l => Sparse.get none l m.entry) (k.pages m.sid)).trans h.page
  closing := (k.closing m.sid).trans h.closing
  moves := by
    rw [k.moves]
    exact h.moves

/-- The operation of a move that has ended goes on, and leaves what the move left. -/
theorem State.MoveOver.settled {mv : Nat} {m : PageMove} {p : Page} {s : State} (h : State.MoveOver mv m p s) (op : Nat) :
    State.MoveOver mv m p ((s.afterMove op).settleClose m.sid) := by
  have hover := h.of_samePages (s.samePages_afterMove op)
  rwa [State.settleClose, hover.closing, if_neg fun hc => Bool.false_ne_true hc.1]

theorem State.MoveOver.failed_settled {mv : Nat} {m : PageMove} {p : Page} {s : State} (h : State.MoveOver mv m p s) (op : Nat) :
    (((s.afterMove op).settleClose m.sid).session m.sid).failed = (s.session m.sid).failed := by
  have hsame := s.samePages_afterMove op
  rw [State.settleClose, (h.of_samePages hsame).closing, if_neg fun hc => Bool.false_ne_true hc.1, hsame.failed_session]

theorem State.not_mem_endMove (s : State) (mv : Nat) : ∀ k ∈ (s.endMove mv).shelf.moves, k.id ≠ mv :=
  fun k hk => by simpa using (List.mem_filter.1 hk).2

section
variable {s : State} {mv : Nat} {m : PageMove} (hopen : (s.session m.sid).closing = false)
include hopen

theorem State.moveOver_putPage (p : Page) : State.MoveOver mv m p ((s.endMove mv).putPage m.sid m.entry (some p)) where
  page := State.page_putPage_self ..
  closing := by
    rw [State.session_putPage_self]
    exact hopen
  moves := by
    rw [State.moves_putPage]
    exact s.not_mem_endMove mv

end

/-- A session replaced by one with the same pages, and no CLOSE that waits, leaves what a move left. -/
theorem State.MoveOver.putSession {mv : Nat} {m : PageMove} {p : Page} {s : State} (h : State.MoveOver mv m p s) {x : Session}
    (hp : x.pages = (s.session m.sid).pages) (hc : x.closing = (s.session m.sid).closing) :
    State.MoveOver mv m p (s.putSession m.sid x) where
  page := by
    rw [State.session_putSession_self]
    exact (congrArg (fun l => Sparse.get none l m.entry) hp).trans h.page
  closing := by
    rw [State.session_putSession_self]
    exact hc.trans h.closing
  moves := by
    rw [State.moves_putSession]
    exact h.moves

theorem State.moveOver_publishMove {s : State} {mv : Nat} {m : PageMove} (old : Page) (hopen : (s.session m.sid).closing = false) :
    State.MoveOver mv m m.target ((s.endMove mv).publishMove m old) := by
  unfold State.publishMove
  extract_lets x s₁ y y' s₂ _ s₃
  have hnoted : State.MoveOver mv m m.target s₂ := (State.moveOver_putPage hopen m.target).putSession rfl rfl
  have hstate : State.MoveOver mv m m.target s₃ := by
    dsimp only [s₃]
    split
    · exact hnoted
    · exact hnoted.putSession rfl rfl
  exact hstate.of_samePages (State.sameButUse_retire ..).samePages

theorem State.dropMove_eq {s : State} {m : PageMove} {old : Page} (hpage : (s.session m.sid).page m.entry = some old) :
    s.dropMove m = (s.putPage m.sid m.entry (some { old with moving := false })).releasePage (s.session m.sid).part (s.session m.sid).vi
      m.target := by
  unfold State.dropMove
  dsimp only
  rw [hpage]

section
variable {s : State} {mv : Nat} {m : PageMove} {old : Page} (hpage : (s.session m.sid).page m.entry = some old)
include hpage

theorem State.moveOver_failMove (st : Status) (hopen : (s.session m.sid).closing = false) :
    State.MoveOver mv m { old with moving := false } ((s.endMove mv).failMove m st) := by
  have hdropped : State.MoveOver mv m { old with moving := false } ((s.endMove mv).dropMove m) := by
    rw [State.dropMove_eq (s := s.endMove mv) hpage]
    exact (State.moveOver_putPage hopen _).of_samePages (State.sameButUse_releasePage ..).samePages
  unfold State.failMove
  extract_lets s₁ y s₂ note
  have hnoted : State.MoveOver mv m { old with moving := false } s₂ := by
    dsimp only [s₂]
    split
    · exact hdropped.putSession rfl rfl
    · exact hdropped
  exact hnoted.of_samePages ((State.samePages_updPromo ..).trans (State.samePages_updDemo ..))

/-- A move to T0 that failed leaves its status for the RUNs that read the page (R33). -/
theorem State.failed_failMove (st : Status) (htier : m.target.tier = .t0) : (((s.endMove mv).failMove m st).session m.sid).failed =
    (s.session m.sid).failed.filter (fun f => f.1 ≠ m.entry) ++ [(m.entry, st, false)] := by
  have hdropped : (((s.endMove mv).dropMove m).session m.sid).failed = (s.session m.sid).failed := by
    rw [State.dropMove_eq (s := s.endMove mv) hpage]
    rw [State.SamePages.failed_session (State.sameButUse_releasePage ..).samePages, State.session_putPage_self]
    rfl
  unfold State.failMove
  dsimp only
  rw [if_pos htier, State.session_updDemo, State.session_updPromo, State.session_putSession_self, hdropped]

end

end Sys2Proof.Machine

/-! WAKE (R331, R335, R336, R342): the lookup of the descriptor, the checks that refuse a promotion, and the start of one that has room. -/

namespace Sys2Proof.Machine

/-! ### The lookup (R336) -/

theorem State.load_of_no_conds {s : State} (h : s.mem.cond = []) (a n : Nat) : s.load a n = (⟨memNat s.mem.cells a n, 0⟩, s) := by
  simp [State.load, State.condsIn, h]

/-- The state with the descriptor cache and its counts replaced. -/
def State.withCache (s : State) (cache : List Nat) (hits misses : Nat) : State :=
  { s with shelf := { s.shelf with cache := cache, hits := hits, misses := misses } }

/-- A descriptor that is cached, or in memory without errors, is read. -/
theorem State.lookup_of_readable {s : State} {sid : Nat} (h : sid ∈ s.shelf.cache ∨ s.mem.cond = []) :
    ∃ cache hits misses, s.lookup sid = s.withCache cache hits misses := by
  unfold State.lookup
  dsimp only
  by_cases hcache : s.shelf.cache.contains sid = true
  · rw [if_pos hcache]
    exact ⟨_, _, _, rfl⟩
  · rw [if_neg hcache, State.load_of_no_conds]
    · exact ⟨_, _, _, if_neg (fun hp => hp rfl)⟩
    · exact h.resolve_left fun hc => hcache (List.contains_iff_mem.2 hc)

/-- A promotion once its session's descriptor has been looked up. -/
def State.lookedUp (s : State) (o : ShelfOp) : State :=
  if o.looked then s else (s.lookup o.sid).updPromo o.id (fun o => { o with looked := true })

/-- What a lookup for a promotion leaves of the Shelf. -/
structure Shelf.LookedUp (h : Shelf) (id : Nat) (k : Shelf) : Prop where
  sessions : k.sessions = h.sessions
  moves : k.moves = h.moves
  others : k.promotions.filter (fun p => p.id ≠ id) = h.promotions.filter (fun p => p.id ≠ id)
  promo : ∀ o, h.promotions.find? (fun p => p.id = id) = some o → ∃ p, k.promotions.find? (fun p => p.id = id) = some p

theorem State.lookedUp_of_readable {s : State} {o : ShelfOp} (h : o.looked = true ∨ o.sid ∈ s.shelf.cache ∨ s.mem.cond = []) :
    ∃ k, s.lookedUp o = { s with shelf := k } ∧ s.shelf.LookedUp o.id k := by
  unfold State.lookedUp
  by_cases hlooked : o.looked = true
  · rw [if_pos hlooked]
    exact ⟨s.shelf, rfl, rfl, rfl, rfl, fun o ho => ⟨o, ho⟩⟩
  · obtain ⟨c, n, m, hlookup⟩ := State.lookup_of_readable (h.resolve_left hlooked)
    rw [if_neg hlooked, hlookup]
    exact ⟨_, rfl, rfl, rfl, filter_updPromo (s.withCache c n m) o.id fun _ => rfl,
      fun p hp => ⟨_, State.promo_updPromo_self (s := s.withCache c n m) (fun _ => rfl) hp⟩⟩

/-! ### The checks (R342, steps 1 and 2) -/

theorem exec_wake_of_head {s : State} {o : ShelfOp} {rest : List ShelfOp} (hhead : s.shelf.promotions = o :: rest)
    (hstarted : o.started = false) (hmoves : s.movesIn o.sid = []) : exec (.wake o.sid) s = .next (s.startPromo o) := by
  show execWake o.sid s = _
  unfold execWake
  rw [hhead]
  exact if_neg (by simp [hstarted, hmoves])

theorem exec_wake_of_other {sid : Nat} {s : State} (h : s.shelf.promotions = [] ∨
    (∃ o rest, s.shelf.promotions = o :: rest ∧ (o.sid ≠ sid ∨ o.started = true)) ∨ s.movesIn sid ≠ []) :
    exec (.wake sid) s = .next s := by
  show execWake sid s = _
  unfold execWake
  cases hqueue : s.shelf.promotions with
  | nil => rfl
  | cons o rest =>
    refine if_pos ?_
    rcases h with h | ⟨p, l, h, hp⟩ | h
    · cases hqueue.symm.trans h
    · cases hqueue.symm.trans h
      exact hp.imp_right .inl
    · exact .inr (.inr h)

section
variable {s : State} {o : ShelfOp}

theorem State.startPromo_of_closed (h : ((s.lookedUp o).session o.sid).state = .closed) :
    s.startPromo o = (s.lookedUp o).endPromo o .notFound := if_pos h

section
variable (hopen : ((s.lookedUp o).session o.sid).state ≠ .closed)
include hopen

theorem State.startPromo_of_broken (h : ((s.lookedUp o).session o.sid).broken = true) :
    s.startPromo o = (s.lookedUp o).endPromo o .eccUncorrected := (if_neg hopen).trans (if_pos h)

variable (hread : ((s.lookedUp o).session o.sid).broken ≠ true)
include hread

theorem State.startPromo_of_hung (h : ((s.lookedUp o).partition ((s.lookedUp o).session o.sid).part).state = .hung) :
    s.startPromo o = (s.lookedUp o).endPromo o .hung := (if_neg hopen).trans ((if_neg hread).trans (if_pos h))

variable (hlive : ((s.lookedUp o).partition ((s.lookedUp o).session o.sid).part).state ≠ .hung)
include hlive

theorem State.startPromo_of_stopped (h : o.status ≠ .ok) : s.startPromo o = (s.lookedUp o).endPromo o o.status :=
  (if_neg hopen).trans ((if_neg hread).trans ((if_neg hlive).trans (if_pos h)))

variable (hgoes : ¬ o.status ≠ .ok)
include hgoes

theorem State.startPromo_of_overflow (h : ((s.lookedUp o).session o.sid).maxTokens < ((s.lookedUp o).session o.sid).tokens + o.kind.tokens) :
    s.startPromo o = (s.lookedUp o).endPromo o .outOfRange :=
  (if_neg hopen).trans ((if_neg hread).trans ((if_neg hlive).trans ((if_neg hgoes).trans (if_pos h))))

/-- Steps 3 and 4 of R342 for a promotion that has room. -/
def State.startMoves (s : State) (o : ShelfOp) (p : Nat) (hot app : List Nat) : State :=
  let fs := s.freeFrames p (hot.length + app.length)
  let s := s.takeFrames p fs
  let s := s.putSession o.sid { s.session o.sid with state := .live, h := 0 }
  (s.allocAppend o.sid p (app.zip fs)).updPromo o.id (fun o => { o with started := true, todo := hot, frames := fs.drop app.length })

theorem State.startPromo_of_room {n : Nat} (hkind : o.kind = .wake n)
    (hfits : ¬ ((s.lookedUp o).session o.sid).maxTokens < ((s.lookedUp o).session o.sid).tokens + n)
    (hkept : ¬ (((s.lookedUp o).beginPromo o).session o.sid).broken = true)
    (hroom : (((s.lookedUp o).beginPromo o).hotMissing (((s.lookedUp o).beginPromo o).session o.sid)).length +
      ((((s.lookedUp o).beginPromo o).session o.sid).appendMissing n).length ≤
        ((s.lookedUp o).beginPromo o).freeFrameCount ((s.lookedUp o).session o.sid).part) :
    s.startPromo o = (((s.lookedUp o).beginPromo o).startMoves o ((s.lookedUp o).session o.sid).part
      (((s.lookedUp o).beginPromo o).hotMissing (((s.lookedUp o).beginPromo o).session o.sid))
      ((((s.lookedUp o).beginPromo o).session o.sid).appendMissing n)).settlePromo o.id := by
  have htokens : o.kind.tokens = n := by rw [hkind]; rfl
  rw [← htokens] at hfits hroom ⊢
  refine (if_neg hopen).trans ((if_neg hread).trans ((if_neg hlive).trans ((if_neg hgoes).trans ((if_neg hfits).trans
    ((if_neg hkept).trans ((if_pos hroom).trans ?_))))))
  rw [hkind]
  cases o.cmd <;> rfl

end

end

end Sys2Proof.Machine

/-! The start of a promotion (R335, R342): what its beginning, its frames and its append pages leave, up to the first move. -/

namespace Sys2Proof.Machine

/-! ### The beginning of step 2 (R342) -/

theorem State.cond_store {s : State} (h : s.mem.cond = []) (a n v : Nat) : (s.store a n v 0).mem.cond = [] := by
  unfold State.store
  split
  · exact h
  · dsimp only
    rw [if_pos ⟨rfl, h⟩]
    exact h

theorem State.cond_putSession {s : State} (h : s.mem.cond = []) (sid : Nat) (x : Session) : (s.putSession sid x).mem.cond = [] :=
  State.cond_store (s := { s with shelf := { s.shelf with sessions := Sparse.set {} s.shelf.sessions sid x } }) h _ _ _

/-- In memory without errors the entries of a page table are read. -/
theorem State.readTable_of_no_conds {s : State} (h : s.mem.cond = []) (sid : Nat) (l : List Nat) : s.readTable sid l = s := by
  unfold State.readTable
  dsimp only
  induction l with
  | nil => rfl
  | cons e r ih =>
    rw [List.foldl_cons, State.load_of_no_conds h]
    exact ih

/-- A session whose promotion has begun at a cycle: PROMOTING reads 1 and the pin argument has taken effect (R329, R342). -/
def Session.begun (x : Session) (o : ShelfOp) (cal : Nat) : Session :=
  { x with
    promoting := true, failed := [], pin := if o.pin = 1 then true else if o.pin = 2 then false else x.pin
    idleSince := if o.pin = 2 then cal else x.idleSince }

/-- A promotion noted as begun, in its session and in the queue. -/
def State.noteBegun (s : State) (o : ShelfOp) : State :=
  (s.putSession o.sid ((s.session o.sid).begun o s.calends)).updPromo o.id (fun o => { o with begun := true })

theorem State.beginPromo_of_begun {s : State} {o : ShelfOp} (h : o.begun = true) : s.beginPromo o = s := if_pos h

theorem State.beginPromo_of_not_begun {s : State} {o : ShelfOp} (hclean : s.mem.cond = []) (h : ¬ o.begun = true) :
    s.beginPromo o = s.noteBegun o := by
  have hread : ∃ l, s.beginPromo o = (s.noteBegun o).readTable o.sid l := ⟨_, if_neg h⟩
  obtain ⟨l, hl⟩ := hread
  have hcond : (s.noteBegun o).mem.cond = [] := by
    rw [State.noteBegun, State.mem_updPromo]
    exact State.cond_putSession hclean ..
  rw [hl, State.readTable_of_no_conds hcond]

theorem State.session_noteBegun (s : State) (o : ShelfOp) : (s.noteBegun o).session o.sid = (s.session o.sid).begun o s.calends := by
  rw [State.noteBegun, State.session_updPromo, State.session_putSession_self]

/-- What the beginning of a promotion leaves. -/
structure State.Begun (s : State) (o : ShelfOp) (u : State) : Prop where
  same : s.SameButShelf u
  session : u.session o.sid = s.session o.sid ∨ u.session o.sid = (s.session o.sid).begun o s.calends
  promoting : (o.begun = true → (s.session o.sid).promoting = true) → (u.session o.sid).promoting = true
  moves : u.shelf.moves = s.shelf.moves
  promo : ∀ p, s.promo o.id = some p → ∃ q, u.promo o.id = some q

theorem State.begun_noteBegun (s : State) (o : ShelfOp) : s.Begun o (s.noteBegun o) where
  same := (s.sameButShelf_putSession ..).trans (State.sameButShelf_updPromo ..)
  session := .inr (s.session_noteBegun o)
  promoting _ := by
    rw [State.session_noteBegun]
    rfl
  moves := by rw [State.noteBegun, State.moves_updPromo, State.moves_putSession]
  promo p hp := by
    have hput : (s.putSession o.sid ((s.session o.sid).begun o s.calends)).promo o.id = some p :=
      (State.promo_eq_of_shelf (s.promotions_putSession ..) _).trans hp
    exact ⟨_, State.promo_updPromo_self (fun _ => rfl) hput⟩

theorem State.begun_beginPromo {s : State} (hclean : s.mem.cond = []) (o : ShelfOp) : s.Begun o (s.beginPromo o) := by
  by_cases hbegun : o.begun = true
  · rw [State.beginPromo_of_begun hbegun]
    exact ⟨.refl s, .inl rfl, fun hp => hp hbegun, rfl, fun p hp => ⟨p, hp⟩⟩
  · rw [State.beginPromo_of_not_begun hclean hbegun]
    exact s.begun_noteBegun o

section
variable {s u : State} (hdict : u.dict = s.dict)
include hdict

theorem State.hotMissing_of_dict (x : Session) : u.hotMissing x = s.hotMissing x := by
  simp only [State.hotMissing, State.hotEntries, State.hotPages, State.profile, State.obj, hdict]

theorem State.arenaFrames_of_dict (p : Nat) : u.arenaFrames p = s.arenaFrames p := by
  simp only [State.arenaFrames, State.obj, hdict]

end

theorem State.SameButShelf.freeFrameCount {s u : State} (h : s.SameButShelf u) (p : Nat) : u.freeFrameCount p = s.freeFrameCount p := by
  rw [State.freeFrameCount, State.freeFrameCount, State.arenaFrames_of_dict h.dict, h.partition]

theorem State.SameButShelf.freeFrames {s u : State} (h : s.SameButShelf u) (p k : Nat) : u.freeFrames p k = s.freeFrames p k := by
  rw [State.freeFrames, State.freeFrames, State.arenaFrames_of_dict h.dict, h.partition]

section
variable {s u : State} {o : ShelfOp} (h : s.Begun o u)
include h

theorem State.Begun.broken : (u.session o.sid).broken = (s.session o.sid).broken := by
  rcases h.session with hs | hs
  · rw [hs]
  · rw [hs]
    rfl

/-- The pages a promotion has to move are those it had when it began. -/
theorem State.Begun.hotMissing : u.hotMissing (u.session o.sid) = s.hotMissing (s.session o.sid) := by
  rw [State.hotMissing_of_dict h.same.dict]
  rcases h.session with hs | hs
  · rw [hs]
  · rw [hs]
    rfl

theorem State.Begun.appendMissing (n : Nat) : (u.session o.sid).appendMissing n = (s.session o.sid).appendMissing n := by
  rcases h.session with hs | hs
  · rw [hs]
  · rw [hs]
    rfl

end

/-! ### Frames and append pages (R335, R342 step 3) -/

theorem Sparse.get_foldl_set_true {l : List Nat} {m : Sparse Bool} {f : Nat} (h : f ∈ l ∨ Sparse.get false m f = true) :
    Sparse.get false (l.foldl (fun m f => Sparse.set false m f true) m) f = true := by
  induction l generalizing m with
  | nil => exact h.resolve_left List.not_mem_nil
  | cons g r ih =>
    refine ih ?_
    rw [Sparse.get_set]
    by_cases hg : g = f
    · exact .inr (if_pos hg)
    · rw [if_neg hg]
      exact h.imp_left fun hf => (List.mem_cons.1 hf).resolve_left (Ne.symm hg)

/-- Frames that a promotion takes count as used. -/
theorem State.frames_takeFrames {s : State} {p : Nat} {fs : List Nat} {f : Nat} (h : f ∈ fs) :
    Sparse.get false ((s.takeFrames p fs).partition p).frames f = true := by
  rw [State.takeFrames, State.partition_setPartition_self]
  exact Sparse.get_foldl_set_true (.inl h)

theorem State.zeroFrame_eq (s : State) (p f : Nat) : ∃ m, s.zeroFrame p f = { s with mem := m } := by
  refine foldl_related (R := fun s u : State => ∃ m, u = { s with mem := m }) (fun s => ⟨s.mem, rfl⟩)
    (fun ⟨_, h⟩ ⟨m, k⟩ => ⟨m, by rw [k, h]⟩) (fun w k => ?_) _ s
  split
  · exact ⟨_, rfl⟩
  · exact ⟨w.mem, rfl⟩

/-- Two states with the same promotions and moves, in which a session has the same state and PROMOTING, and which differ in the Shelf and
memory alone. -/
structure State.SameProgress (sid : Nat) (s u : State) : Prop where
  same : s.SameButShelf u
  promotions : u.shelf.promotions = s.shelf.promotions
  moves : u.shelf.moves = s.shelf.moves
  state : (u.session sid).state = (s.session sid).state
  promoting : (u.session sid).promoting = (s.session sid).promoting

theorem State.SameProgress.refl (sid : Nat) (s : State) : s.SameProgress sid s := ⟨.refl s, rfl, rfl, rfl, rfl⟩

theorem State.SameProgress.trans {sid : Nat} {s u v : State} (h : s.SameProgress sid u) (k : u.SameProgress sid v) : s.SameProgress sid v :=
  ⟨h.same.trans k.same, k.promotions.trans h.promotions, k.moves.trans h.moves, k.state.trans h.state, k.promoting.trans h.promoting⟩

theorem State.sameProgress_zeroFrame (sid : Nat) (s : State) (p f : Nat) : s.SameProgress sid (s.zeroFrame p f) := by
  obtain ⟨m, hm⟩ := s.zeroFrame_eq p f
  rw [hm]
  exact ⟨rfl, rfl, rfl, rfl, rfl⟩

theorem State.sameProgress_putPage (sid : Nat) (s : State) (i : Nat) (p : Option Page) : s.SameProgress sid (s.putPage sid i p) where
  same := s.sameButShelf_putPage sid i p
  promotions := s.promotions_putPage sid i p
  moves := s.moves_putPage sid i p
  state := by
    rw [State.session_putPage_self]
    rfl
  promoting := by
    rw [State.session_putPage_self]
    rfl

theorem State.sameProgress_allocAppend (sid : Nat) (s : State) (p : Nat) (l : List (Nat × Nat)) :
    s.SameProgress sid (s.allocAppend sid p l) :=
  foldl_related (.refl sid) .trans (fun w e => (w.sameProgress_zeroFrame sid p e.2).trans (State.sameProgress_putPage ..)) l s

/-! ### The start of the moves (R342, step 4) -/

/-- A promotion with moves to come: its session is LIVE and promoting, and it holds its pages and frames. -/
structure State.Promoting (o : ShelfOp) (hot frames : List Nat) (u : State) : Prop where
  state : (u.session o.sid).state = .live
  promoting : (u.session o.sid).promoting = true
  promo : ∃ q, u.promo o.id = some q ∧ q.started = true ∧ q.todo = hot ∧ q.frames = frames

section
variable {s : State} {o q : ShelfOp} (p : Nat) (hot app : List Nat)

theorem State.promoting_startMoves (hpromoting : (s.session o.sid).promoting = true) (hq : s.promo o.id = some q) :
    State.Promoting o hot ((s.freeFrames p (hot.length + app.length)).drop app.length) (s.startMoves o p hot app) := by
  unfold State.startMoves
  extract_lets fs s₁ _ s₂
  have hlive : s₂.session o.sid = { s.session o.sid with state := .live, h := 0 } := State.session_putSession_self ..
  have happend := s₂.sameProgress_allocAppend o.sid p (app.zip fs)
  have hpromo : (s₂.allocAppend o.sid p (app.zip fs)).promo o.id = some q := by
    rw [State.promo_eq_of_shelf happend.promotions, State.promo_eq_of_shelf (s₁.promotions_putSession ..)]
    exact hq
  refine ⟨?_, ?_, _, State.promo_updPromo_self (fun _ => rfl) hpromo, rfl, rfl, rfl⟩
  · rw [State.session_updPromo, happend.state, hlive]
  · rw [State.session_updPromo, happend.promoting, hlive]
    exact hpromoting

/-- The start of the moves takes the frames, and leaves the moves in flight and the tiles as they were. -/
theorem State.sameButShelf_startMoves (s : State) (o : ShelfOp) :
    (s.takeFrames p (s.freeFrames p (hot.length + app.length))).SameButShelf (s.startMoves o p hot app) ∧
      (s.startMoves o p hot app).shelf.moves = s.shelf.moves := by
  unfold State.startMoves
  extract_lets fs s₁ _ s₂
  have happend := s₂.sameProgress_allocAppend o.sid p (app.zip fs)
  have hput : s₁.SameButShelf s₂ := s₁.sameButShelf_putSession ..
  exact ⟨(hput.trans happend.same).trans (State.sameButShelf_updPromo ..),
    happend.moves.trans (s₁.moves_putSession ..)⟩

end

/-- A promotion with moves to come goes on. -/
theorem State.settlePromo_of_todo {s : State} {id : Nat} {o : ShelfOp} (h : s.promo id = some o) (htodo : o.todo ≠ []) :
    s.settlePromo id = s.publish o := by
  have hfind : s.shelf.promotions.find? (fun o => o.id = id) = some o := h
  unfold State.settlePromo
  rw [hfind]
  exact if_neg fun hc => htodo hc.2.1

/-- What the publication of layer 0 leaves. -/
theorem State.publish_cases (s : State) (o : ShelfOp) : s.publish o = s ∨
    s.publish o = (s.putSession o.sid { s.session o.sid with wakeDL0 := s.since16 o.tW }).updPromo o.id (fun o => { o with shown := true }) := by
  unfold State.publish
  split
  · exact .inr rfl
  · exact .inl rfl

theorem State.sameButShelf_publish (s : State) (o : ShelfOp) : s.SameButShelf (s.publish o) := by
  rcases s.publish_cases o with h | h <;> rw [h]
  · exact .refl s
  · exact (s.sameButShelf_putSession ..).trans (State.sameButShelf_updPromo ..)

/-- Layer 0's publication leaves a promotion with its moves to come. -/
theorem State.Promoting.publish {s : State} {o q : ShelfOp} {hot frames : List Nat} (h : State.Promoting o hot frames s)
    (hq : s.promo o.id = some q) : State.Promoting o hot frames (s.publish q) := by
  obtain ⟨hstate, hpromoting, r, hr, hstarted, htodo, hframes⟩ := h
  obtain rfl : q = r := Option.some.inj (hq.symm.trans hr)
  have hid : q.id = o.id := (State.mem_of_promo hq).2
  rcases s.publish_cases q with h | h <;> rw [h]
  · exact ⟨hstate, hpromoting, q, hq, hstarted, htodo, hframes⟩
  · have hput : (s.putSession q.sid { s.session q.sid with wakeDL0 := s.since16 q.tW }).promo q.id = some q :=
      (State.promo_eq_of_shelf (s.promotions_putSession ..) _).trans (hid ▸ hq)
    refine ⟨?_, ?_, { q with shown := true }, ?_, hstarted, htodo, hframes⟩
    · rw [State.session_updPromo, State.session_putSession]
      split
      · next hs => exact hs ▸ hstate
      · exact hstate
    · rw [State.session_updPromo, State.session_putSession]
      split
      · next hs => exact hs ▸ hpromoting
      · exact hpromoting
    · rw [← hid]
      exact State.promo_updPromo_self (f := fun o => { o with shown := true }) (fun _ => rfl) hput

/-! ### WAKE (R342) -/

section
variable (s : State) {o : ShelfOp} {n : Nat} (hkind : o.kind = .wake n) (st : Status)
include hkind

theorem State.tellEnd_of_cmd {k : CmdKey} (hcmd : o.cmd = some k) : s.tellEnd o st = s.endCmd k st (s.session o.sid).word7 := by
  rw [State.tellEnd, hcmd, hkind]

theorem State.shelf_tellEnd : (s.tellEnd o st).shelf = s.shelf := by
  cases hcmd : o.cmd with
  | none => rw [State.tellEnd, hcmd]
  | some k => rw [s.tellEnd_of_cmd hkind st hcmd, State.endCmd_shelf]

end

/-- A running command whose work ends with a status other than OK has ended with it. -/
theorem State.cmd_endCmd_self {s : State} {k : CmdKey} {c : Cmd} {st : Status} (hc : s.cmd k = some c) (hrunning : c.phase = .running)
    (hst : st ≠ .ok) (res : Nat) : (s.endCmd k st res).cmd k =
      some { c with phase := .ended, tEnd := s.calends, status := st, result := res } := by
  refine (State.cmd_updCmd_self (fun c => ?_) hc).trans ?_
  · split <;> rfl
  · rw [if_pos hrunning, if_neg fun h => hst h.1]

section
variable {s : State} {o : ShelfOp} (hread : o.looked = true ∨ o.sid ∈ s.shelf.cache ∨ s.mem.cond = [])
include hread

theorem State.session_lookedUp (sid : Nat) : (s.lookedUp o).session sid = s.session sid := by
  obtain ⟨k, hk, hlooked⟩ := State.lookedUp_of_readable hread
  rw [State.session, State.session, hk, ← hlooked.sessions]

theorem State.sameButShelf_lookedUp : s.SameButShelf (s.lookedUp o) := by
  obtain ⟨k, hk, -⟩ := State.lookedUp_of_readable hread
  rw [hk]
  rfl

/-- A promotion that ends right after the lookup has ended for the state before it. -/
theorem State.promoEnded_lookedUp (hopen : (s.session o.sid).state ≠ .closed) (st : Status) :
    s.PromoEnded o st ((s.lookedUp o).endPromo o st) := by
  obtain ⟨k, hk, hlooked⟩ := State.lookedUp_of_readable hread
  have hsession := State.session_lookedUp hread o.sid
  have hended := State.promoEnded_endPromo (s := s.lookedUp o) (o := o) (by rwa [hsession]) st
  refine ⟨hended.promotions.trans ?_, hended.status, hended.cal, hended.pages.trans (by rw [hsession]),
    hended.state.trans (by rw [hsession]), hended.pin.trans (by rw [hsession])⟩
  rw [hk]
  exact hlooked.others

/-- The promotion of a CLOSED session ends NOT_FOUND in the queue, a partition and its command alone. -/
theorem State.startPromo_closed (hclosed : (s.session o.sid).state = .closed) : ∃ w : State,
    s.startPromo o = w.tellEnd o .notFound ∧ w.shelf.sessions = s.shelf.sessions ∧
      w.shelf.promotions = s.shelf.promotions.filter (fun p => p.id ≠ o.id) ∧ w.host = s.host := by
  obtain ⟨k, hk, hlooked⟩ := State.lookedUp_of_readable hread
  have hl : ((s.lookedUp o).session o.sid).state = .closed := by rwa [State.session_lookedUp hread]
  obtain ⟨ps, hps⟩ := State.endPromo_of_closed hl
  rw [State.startPromo_of_closed hl, hps, hk]
  exact ⟨_, rfl, hlooked.sessions, hlooked.others, rfl⟩

end

theorem State.SameButShelf.takeFrames {s u : State} (h : s.SameButShelf u) (p : Nat) (fs : List Nat) :
    (s.takeFrames p fs).SameButShelf (u.takeFrames p fs) :=
  (congrArg (·.takeFrames p fs) h : (u.withShelfOf s).takeFrames p fs = s.takeFrames p fs)

/-- The pages a promotion of `n` tokens needs frames for: hot pages not in T0, then append pages (R331, R342). -/
def State.needed (s : State) (x : Session) (n : Nat) : Nat := (s.hotMissing x).length + (x.appendMissing n).length

section
variable {s : State} {o : ShelfOp} {n : Nat} (hkind : o.kind = .wake n) (hclean : s.mem.cond = []) (hqueued : s.promo o.id = some o)
  (hopen : (s.session o.sid).state ≠ .closed) (hunbroken : (s.session o.sid).broken = false)
  (hlive : (s.partition (s.session o.sid).part).state ≠ .hung) (hok : o.status = .ok)
  (hfits : (s.session o.sid).tokens + n ≤ (s.session o.sid).maxTokens) (hbegun : o.begun = true → (s.session o.sid).promoting = true)
  (hhot : s.hotMissing (s.session o.sid) ≠ []) (hroom : s.needed (s.session o.sid) n ≤ s.freeFrameCount (s.session o.sid).part)
include hkind hclean hqueued hopen hunbroken hlive hok hfits hbegun hhot hroom

/-- A promotion with room starts (R342): the session is LIVE and promoting, and its hot pages are to move into the lowest free frames
that its append pages leave (log entry 67). -/
theorem State.startPromo_promotes :
    State.Promoting o (s.hotMissing (s.session o.sid)) ((s.freeFrames (s.session o.sid).part (s.needed (s.session o.sid) n)).drop
      ((s.session o.sid).appendMissing n).length) (s.startPromo o) ∧
    (s.takeFrames (s.session o.sid).part (s.freeFrames (s.session o.sid).part (s.needed (s.session o.sid) n))).SameButShelf (s.startPromo o) ∧
    (s.startPromo o).shelf.moves = s.shelf.moves := by
  have hread : o.looked = true ∨ o.sid ∈ s.shelf.cache ∨ s.mem.cond = [] := .inr (.inr hclean)
  obtain ⟨k, hk, hlooked⟩ := State.lookedUp_of_readable hread
  have hsession := State.session_lookedUp hread o.sid
  have hsame := State.sameButShelf_lookedUp hread
  have hcond : (s.lookedUp o).mem.cond = [] := by rwa [hk]
  have hbeg := State.begun_beginPromo hcond o
  have hall := hsame.trans hbeg.same
  have hhot' : ((s.lookedUp o).beginPromo o).hotMissing (((s.lookedUp o).beginPromo o).session o.sid) = s.hotMissing (s.session o.sid) := by
    rw [hbeg.hotMissing, State.hotMissing_of_dict hsame.dict, hsession]
  have happ' : (((s.lookedUp o).beginPromo o).session o.sid).appendMissing n = (s.session o.sid).appendMissing n := by
    rw [hbeg.appendMissing, hsession]
  have hstart := State.startPromo_of_room (s := s) (o := o) (by rwa [hsession]) (by rw [hsession, hunbroken]; exact Bool.false_ne_true)
    (by rwa [hsession, hsame.partition]) (fun h => h hok) hkind (by rw [hsession]; omega)
    (by rw [hbeg.broken, hsession, hunbroken]; exact Bool.false_ne_true)
    (by rw [hhot', happ', hsession, hall.freeFrameCount]; exact hroom)
  rw [hhot', happ', hsession] at hstart
  obtain ⟨p, hp⟩ := hlooked.promo o hqueued
  obtain ⟨q, hq⟩ := hbeg.promo p (by rw [hk]; exact hp)
  have hpromoting := State.promoting_startMoves (s.session o.sid).part (s.hotMissing (s.session o.sid)) ((s.session o.sid).appendMissing n)
    (hbeg.promoting (by rwa [hsession])) hq
  obtain ⟨hframes, hmoves⟩ := State.sameButShelf_startMoves (s.session o.sid).part (s.hotMissing (s.session o.sid))
    ((s.session o.sid).appendMissing n) ((s.lookedUp o).beginPromo o) o
  rw [hall.freeFrames] at hpromoting hframes
  obtain ⟨r, hr, -, htodo, -⟩ := hpromoting.promo
  rw [State.settlePromo_of_todo hr (by rwa [htodo])] at hstart
  rw [hstart]
  refine ⟨hpromoting.publish hr, ((hall.takeFrames ..).trans hframes).trans (State.sameButShelf_publish ..), ?_⟩
  rw [(State.samePages_publish ..).moves, hmoves, hbeg.moves, hk]
  exact hlooked.moves

end

end Sys2Proof.Machine

/-! Frames and idle parks (R335, R346), and the obligation of the Session Shelf (O43). -/

namespace Sys2Proof.Machine

/-! ### FRAME_ZEROED (R335) -/

/-- The bytes of a granule of the striped view lie together in one slice (R48). -/
theorem State.striped_granule {s : State} {p o sl b : Nat} (h : s.striped p o = some (sl, b)) :
    s.striped p (4096 * (o / 4096)) = some (sl, b - o % 4096) ∧ o % 4096 ≤ b := by
  have hdiv : 4096 * (o / 4096) / 4096 = o / 4096 := Nat.mul_div_cancel_left _ (by decide)
  have hmod : 4096 * (o / 4096) % 4096 = 0 := Nat.mul_mod_right ..
  unfold State.striped at h ⊢
  dsimp only at h ⊢
  rw [hdiv, hmod]
  split at h
  · next hin =>
    rw [if_pos (by omega)]
    split at h
    · next c hc =>
      obtain ⟨rfl, rfl⟩ := Prod.mk.inj (Option.some.inj h)
      exact ⟨by rw [Nat.add_zero, Nat.add_sub_cancel], Nat.le_add_left ..⟩
    · cases h
  · cases h

/-- The bytes from a place in a slice on zeroed, where there is one. The place is an argument of its own, so that a case split on it
evaluates no address. -/
def State.zeroAt (s : State) (place : Option (Nat × Nat)) (n : Nat) : State :=
  match place with
  | some (sl, b) => s.zero (sliceAddr sl b) n
  | none => s

/-- A granule of a frame zeroed. -/
def State.zeroGranule (p f : Nat) (s : State) (k : Nat) : State :=
  s.zeroAt (s.striped p (s.arenaOffset p + 65536 * f + 4096 * k)) 4096

theorem State.zeroFrame_eq_foldl (s : State) (p f : Nat) : s.zeroFrame p f = (List.range 16).foldl (State.zeroGranule p f) s := by
  refine congrArg (fun g => (List.range 16).foldl g s) (funext fun w => funext fun k => ?_)
  unfold State.zeroGranule
  cases w.striped p (w.arenaOffset p + 65536 * f + 4096 * k) <;> rfl

theorem memByte_memZero_of_zero {m : List Host.Cell} {a : Nat} (h : memByte m a = 0) (b n : Nat) : memByte (memZero m b n) a = 0 := by
  by_cases hin : b ≤ a ∧ a < b + n
  · exact memByte_memZero_inside hin.1 hin.2
  · rw [memByte_memZero_outside (by omega), h]

/-- The zeroing of a place changes memory alone, where it keeps zeros. -/
theorem State.zeroAt_cases (s : State) (place : Option (Nat × Nat)) (n : Nat) : (∃ m, s.zeroAt place n = { s with mem := m }) ∧
    ∀ a, memByte s.mem.cells a = 0 → memByte (s.zeroAt place n).mem.cells a = 0 := by
  cases place with
  | none => exact ⟨⟨s.mem, rfl⟩, fun a ha => ha⟩
  | some x => exact ⟨⟨_, rfl⟩, fun a ha => memByte_memZero_of_zero ha ..⟩

theorem State.memByte_zeroAt_inside (s : State) {sl b n a : Nat} (h : sliceAddr sl b ≤ a ∧ a < sliceAddr sl b + n) :
    memByte (s.zeroAt (some (sl, b)) n).mem.cells a = 0 := memByte_memZero_inside h.1 h.2

/-- The granules of a list read as zero once they are zeroed, and what was zero stays so. -/
theorem State.memByte_foldl_zeroGranule {p f k sl b a : Nat} {l : List Nat} {s : State}
    (hgranule : s.striped p (s.arenaOffset p + 65536 * f + 4096 * k) = some (sl, b)) (hin : sliceAddr sl b ≤ a ∧ a < sliceAddr sl b + 4096)
    (h : k ∈ l ∨ memByte s.mem.cells a = 0) : memByte (l.foldl (State.zeroGranule p f) s).mem.cells a = 0 := by
  induction l generalizing s with
  | nil => exact h.resolve_left List.not_mem_nil
  | cons j r ih =>
    obtain ⟨⟨m, hm⟩, hzero⟩ := s.zeroAt_cases (s.striped p (s.arenaOffset p + 65536 * f + 4096 * j)) 4096
    rw [← State.zeroGranule] at hm
    have hstay : (s.zeroGranule p f j).striped p ((s.zeroGranule p f j).arenaOffset p + 65536 * f + 4096 * k) = some (sl, b) := by
      rw [hm]
      exact hgranule
    refine ih hstay ?_
    rcases h with h | h
    · rcases List.mem_cons.1 h with rfl | h
      · refine .inr ?_
        rw [State.zeroGranule, hgranule, State.memByte_zeroAt_inside s hin]
      · exact .inl h
    · exact .inr (hzero a h)

theorem State.arenaOffset_mod (s : State) (p : Nat) : s.arenaOffset p % 4096 = 0 := by
  unfold State.arenaOffset
  omega

/-- Every byte of a zeroed frame reads as zero. -/
theorem State.memByte_zeroFrame {s : State} {p f i sl b : Nat} (hi : i < 65536)
    (h : s.striped p (s.arenaOffset p + 65536 * f + i) = some (sl, b)) : memByte (s.zeroFrame p f).mem.cells (sliceAddr sl b) = 0 := by
  have hbase := s.arenaOffset_mod p
  obtain ⟨hgranule, hle⟩ := State.striped_granule h
  have hoff : 4096 * ((s.arenaOffset p + 65536 * f + i) / 4096) = s.arenaOffset p + 65536 * f + 4096 * (i / 4096) := by omega
  rw [hoff] at hgranule
  rw [State.zeroFrame_eq_foldl]
  refine State.memByte_foldl_zeroGranule hgranule ?_ (.inl (List.mem_range.2 (by omega)))
  unfold sliceAddr
  omega

theorem exec_frameZeroed {p : PartId} {fr : Nat} {s : State} (h : fr ∈ (s.partition p.val).framesZeroing) :
    ∃ m, s.zeroFrame p.val fr = { s with mem := m } ∧ exec (.frameZeroed p fr) s =
      .next (({ s with mem := m } : State).setPartition p.val { s.partition p.val with
        framesZeroing := (s.partition p.val).framesZeroing.erase fr, frames := Sparse.set false (s.partition p.val).frames fr false }) := by
  obtain ⟨m, hm⟩ := s.zeroFrame_eq p.val fr
  refine ⟨m, hm, ?_⟩
  show execFrameZeroed p fr s = _
  unfold execFrameZeroed
  dsimp only
  rw [if_pos (List.contains_iff_mem.2 h), hm]
  rfl

/-! ### IDLE_PARK (R346) -/

theorem State.idleRuns_iff (s : State) (sid : Nat) : s.idleRuns sid = true ↔
    (s.session sid).state = .live ∧ (s.session sid).pin = false ∧ s.active sid = false ∧ (s.session sid).promoting = false ∧
      (s.session sid).demoting = false ∧ (s.session sid).closing = false ∧
      (∀ o ∈ s.shelf.promotions, o.sid ≠ sid) ∧ (∀ o ∈ s.shelf.demotions, o.sid ≠ sid) := by
  simp [State.idleRuns, and_assoc]

theorem exec_idlePark_of_idle {sid : Nat} {s : State} (h : ¬ s.idleRuns sid = true) : exec (.idlePark sid) s = .next s := if_neg h

theorem exec_idlePark_of_runs {sid : Nat} {s : State} (h : s.idleRuns sid = true) (hunbroken : (s.session sid).broken = false)
    (hread : sid ∈ s.shelf.cache ∨ s.mem.cond = []) : ∃ cache hits misses, exec (.idlePark sid) s =
      .next ((s.withCache cache hits misses).queueDemo (.park (s.profile (s.session sid).vi (s.session sid).profile 6)) sid none) := by
  obtain ⟨cache, hits, misses, hlookup⟩ := State.lookup_of_readable hread
  refine ⟨cache, hits, misses, ?_⟩
  show execIdlePark sid s = _
  unfold execIdlePark
  rw [if_pos h, hlookup]
  exact if_neg (fun hb => Bool.false_ne_true (hunbroken.symm.trans hb))

/-! ### The obligation -/

/-- Settles O43: WAKE from the checks of a promotion and its start, the page moves from the copy a move queues and from what its end
leaves of the entry, FRAME_ZEROED from the granules of a frame, IDLE_PARK from the conditions of its timer. That append pages take the
lowest free frames is log entry 67's choice; which operation goes on or waits rests on log entry 84. -/
theorem sessionShelfFollowsItsRules : Obligations.SessionShelfFollowsItsRules := by
  unfold Obligations.SessionShelfFollowsItsRules
  refine ⟨fun sid n s o rest hhead hsid hstarted hmoves hread hkind => ?wake, fun sid s h => exec_wake_of_other h,
    fun s e i f rest fs o p hvigil hengine hnone hnext htodo hframes hpage htier => ?issue,
    fun mv s m st old hfind hresult hpage hclosing => ?complete, fun p fr s hfr => ?zeroed, fun sid s => ?idle⟩
  case wake =>
    subst hsid
    intro x hot app free ends
    have hexec := exec_wake_of_head hhead hstarted hmoves
    have hsession := State.session_lookedUp hread o.sid
    have hpartition := (State.sameButShelf_lookedUp hread).partition x.part
    have hends : x.state ≠ .closed → ∀ {st}, s.startPromo o = (s.lookedUp o).endPromo o st → ends st := fun hopen st h => by
      have hended := State.promoEnded_lookedUp hread hopen st
      rw [← h] at hended
      exact ⟨_, hexec, hended.promotions, hended.status, hended.cal, hended.pages, hended.state, hended.pin⟩
    refine ⟨fun hclosed => ?closed, fun hopen hbroken => ?broken, fun hopen hunbroken => ?rest⟩
    case closed =>
      obtain ⟨w, hw, hsessions, hpromotions, hhost⟩ := State.startPromo_closed hread hclosed
      rw [hw] at hexec
      have hshelf := w.shelf_tellEnd hkind .notFound
      refine ⟨_, hexec, by rw [hshelf, hpromotions], by rw [hshelf, hsessions], fun k c hcmd hc hrunning => ?_⟩
      rw [w.tellEnd_of_cmd hkind .notFound hcmd]
      have hcw : w.cmd k = some c := by rwa [State.cmd, hhost]
      exact ⟨_, State.cmd_endCmd_self hcw hrunning (by decide) _, rfl, rfl⟩
    case broken =>
      exact hends hopen (State.startPromo_of_broken (by rwa [hsession]) (by rwa [hsession]))
    case rest =>
      have hl : ((s.lookedUp o).session o.sid).state ≠ .closed := by rwa [hsession]
      have hr : ((s.lookedUp o).session o.sid).broken ≠ true := by
        rw [hsession]
        exact fun h => Bool.false_ne_true (hunbroken.symm.trans h)
      refine ⟨fun hhung => ?hung, fun hlive hstopped => ?stopped, fun hlive hok hover => ?overflow,
        fun hlive hok hfits hclean hbegun hhot hroom => ?starts⟩
      case hung => exact hends hopen (State.startPromo_of_hung hl hr (by rwa [hsession, hpartition]))
      case stopped => exact hends hopen (State.startPromo_of_stopped hl hr (by rwa [hsession, hpartition]) hstopped)
      case overflow =>
        refine hends hopen (State.startPromo_of_overflow hl hr (by rwa [hsession, hpartition]) (fun h => h hok) ?_)
        rwa [hsession, hkind]
      case starts =>
        have hqueued : s.promo o.id = some o := by simp [State.promo, hhead]
        obtain ⟨hpromoting, hsame, hmoves⟩ := State.startPromo_promotes hkind hclean hqueued hopen hunbroken hlive hok hfits hbegun hhot hroom
        obtain ⟨q, hq, hqstarted, hqtodo, hqframes⟩ := hpromoting.promo
        obtain ⟨hqmem, hqid⟩ := State.mem_of_promo hq
        refine ⟨_, q, hexec, hpromoting.state, hpromoting.promoting, hqmem, hqid, hqstarted, hqtodo, hqframes, fun f hf => ?_, hmoves, hsame.tiles⟩
        rw [hsame.partition]
        exact State.frames_takeFrames hf
  case issue =>
    have hexec := exec_pageMoveIssue_of_promo hvigil hengine (State.stopHung_of_none hnone) hnext
    rw [State.issuePromo_of_page e htodo hframes hpage htier] at hexec
    have hmoved := State.moveBegun_beginMove (s.updPromo o.id (fun o => { o with todo := rest, frames := fs })) o.id o.sid i p
      ⟨.t0, false, false, s.frameAddr (s.session o.sid).part f⟩ e
    obtain ⟨w, hcopy⟩ := hmoved.copy
    refine ⟨_, _, hexec, hmoved.moves, hmoved.page, hcopy, rfl, src_shelfCopy .., dst_shelfCopy .., ?_, ?_, hmoved.tiles⟩
    · exact x_shelfCopy _ _ _ _ (by split <;> decide)
    · cases hc : p.c <;> simp [State.moveCopy, hc]
  case complete =>
    intro again
    have hagain : s.movesAgain m st old = true ↔ again := State.movesAgain_iff hclosing
    have hover : ¬ again → exec (.pageMoveComplete mv) s = _ := fun h =>
      exec_pageMoveComplete_of_over hfind hresult hpage (Bool.eq_false_iff.2 fun hb => h (hagain.1 hb))
    refine ⟨fun hok => ?published, fun hfailed hno => ?failed, fun e hyes hengine => ?again,
      fun hyes hengine => exec_pageMoveComplete_of_waiting hfind hresult hpage (hagain.2 hyes) hengine⟩
    case published =>
      have hexec := hover (by rintro ⟨-, ⟨ht, -⟩ | ht⟩ <;> cases hok.symm.trans ht)
      rw [if_pos hok] at hexec
      have hdone := (State.moveOver_publishMove (mv := mv) old hclosing).settled m.op
      exact ⟨_, hexec, hdone.page, hdone.moves⟩
    case failed =>
      have hexec := hover hno
      rw [if_neg hfailed] at hexec
      have hstep := State.moveOver_failMove (mv := mv) hpage st hclosing
      have hdone := hstep.settled m.op
      refine ⟨_, hexec, hdone.page, hdone.moves, fun htier => ?_⟩
      rw [hstep.failed_settled, State.failed_failMove hpage st htier]
    case again =>
      refine ⟨_, _, exec_pageMoveComplete_of_again hfind hresult hpage (hagain.2 hyes) hengine, hpage, rfl, State.queue_queueMove .., rfl⟩
  case zeroed =>
    obtain ⟨m, hm, hexec⟩ := exec_frameZeroed hfr
    refine ⟨_, hexec, ?_, ?_, fun k hk => ?_, fun i hi sl b hplace => ?_, rfl⟩
    · rw [State.partition_setPartition_self]
    · rw [State.partition_setPartition_self, Sparse.get_set_self]
    · rw [State.partition_setPartition_self, Sparse.get_set_of_ne _ _ _ hk.symm]
    · have hzero := State.memByte_zeroFrame hi hplace
      rwa [hm] at hzero
  case idle =>
    intro x runs
    have hruns : s.idleRuns sid = true ↔ runs := s.idleRuns_iff sid
    refine ⟨fun h hunbroken hread => ?_, fun h => exec_idlePark_of_idle fun hr => h (hruns.1 hr)⟩
    obtain ⟨cache, hits, misses, hexec⟩ := exec_idlePark_of_runs (hruns.2 h) hunbroken hread
    exact ⟨_, hexec, rfl, rfl, rfl⟩

end Sys2Proof.Machine

/-!
## A partition that forms while its session map is not canonical (R356, R449)

The statement asks, of every state without retired sessions, that a new mask for one partition leaves the others untouched. It does not ask that the
map of sessions is canonical (`Sparse.wf`). In a map with two entries of one key, the sessions of a partition are looked for among all the entries and
closed by their number, so the entry closed is the first of that number, which may be another partition's: its T0 page returns to that partition.
-/

namespace Sys2Proof.Machine

/-- Session number 0 twice: a session of partition 1 with a page in frame 0, and behind it one of partition 0. -/
def sessionsOfOneNumber : List (Nat × Session) :=
  [(0, { part := 1, pages := [(0, some ⟨.t0, false, false, 0⟩)] }), (0, { part := 0 })]

/-- A booted device whose expert requester may write the cluster masks, and whose session map is not canonical. -/
def stateOfOneNumber : State where
  power := { porHeld := false, stage := 0xFF }
  dict := { expert := [.can 1] }
  shelf := { sessions := sessionsOfOneNumber }

/-- The frames of partition 1 that wait to be zeroed after a step. -/
def zeroingOf1 : Host.Outcome State Fault Refusal → List Nat
  | .next u => (u.partition 1).framesZeroing
  | _ => []

theorem writePasses_stateOfOneNumber : stateOfOneNumber.writePasses (.clusterMapWrite (.can 1) 0 1) :=
  ⟨.can 1, 0x5000, 0, 1, 1, _, rfl, by decide, by decide, rfl⟩

/-- Forming partition 0 closes partition 1's session and gives its frame back. -/
theorem zeroingOf1_clusterMapWrite : zeroingOf1 (exec (.clusterMapWrite (.can 1) 0 1) stateOfOneNumber) = [0] := by
  decide

/-- Refutes O45: with two sessions of one number in the map (`stateOfOneNumber`), giving partition 0 a cluster changes partition 1, although no
session is retired. -/
theorem not_partitionsFollowTheirRules : ¬ Obligations.PartitionsFollowTheirRules := by
  unfold Obligations.PartitionsFollowTheirRules
  rintro ⟨hmap, -⟩
  obtain ⟨-, -, hforms⟩ := hmap (.can 1) 0 1 stateOfOneNumber writePasses_stateOfOneNumber (by decide) (by decide) (by decide)
  obtain ⟨u, hexec, -, -, -, -, -, hothers, -⟩ := hforms (by decide) (by decide)
  have hone : u.partition 1 = stateOfOneNumber.partition 1 := hothers rfl 1 (by decide)
  have hzeroing := zeroingOf1_clusterMapWrite
  rw [hexec, zeroingOf1, hone] at hzeroing
  exact absurd hzeroing (by decide)

end Sys2Proof.Machine

/-!
## Loading a model (R372 to R377): where a segment is placed, what reading the manifest leaves, and how the command ends
-/

namespace Sys2Proof.Machine

/-! ### The lowest free range of a pool (R373) -/

/-- `n` bytes from the aligned place `a` lie in the pool [lo, hi) and overlap nothing that it holds. -/
def FreeAt (lo hi al n : Nat) (held : List (Nat × Nat)) (a : Nat) : Prop :=
  lo ≤ a ∧ a + n ≤ hi ∧ a % al = 0 ∧ ∀ h ∈ held, a + n ≤ h.1 ∨ h.1 + h.2 ≤ a ∨ h.2 = 0

/-- The first multiple of `al` from `x` on. -/
def alignUp (al x : Nat) : Nat := (x + al - 1) / al * al

/-- The places `lowestFree` tries: the start of the pool and the end of each range it holds, aligned, where they are free. -/
def placesToTry (lo hi al n : Nat) (held : List (Nat × Nat)) : List Nat :=
  (alignUp al lo :: held.map (fun h => alignUp al (h.1 + h.2))).filter
    (fun a => decide (lo ≤ a) && decide (a + n ≤ hi) && !(held.any (fun h => overlaps a n h.1 h.2)))

theorem lowestFree_eq_leastBy (lo hi al n : Nat) (held : List (Nat × Nat)) :
    lowestFree lo hi al n held = leastBy id (placesToTry lo hi al n held) := rfl

theorem alignUp_mod (al x : Nat) : alignUp al x % al = 0 := Nat.mul_mod_left ..

/-- The multiple of `al` less than `al` above `x` is its rounding. -/
theorem alignUp_eq {al x m : Nat} (hm : m % al = 0) (hx : x ≤ m) (hlt : m < x + al) : alignUp al x = m := by
  obtain ⟨k, rfl⟩ := Nat.dvd_of_mod_eq_zero hm
  have hdiv : (x + al - 1) / al = k := Nat.div_eq_of_lt_le (by rw [Nat.mul_comm]; omega) (by rw [Nat.succ_mul, Nat.mul_comm]; omega)
  rw [alignUp, hdiv, Nat.mul_comm]

theorem leastBy_id (l : List Nat) :
    l = [] ∧ leastBy id l = none ∨ ∃ a, leastBy id l = some a ∧ a ∈ l ∧ ∀ b ∈ l, a ≤ b := by
  induction l using List.reverseRecOn with
  | nil => exact .inl ⟨rfl, rfl⟩
  | append_singleton l a ih =>
    refine .inr ⟨_, leastBy_concat id l a, ?_⟩
    obtain ⟨rfl, hnone⟩ | ⟨b, hb, hmem, hleast⟩ := ih
    · simp [hnone]
    · rw [hb]
      dsimp only [id]
      split
      next hlt =>
        refine ⟨by simp, fun k hk => ?_⟩
        obtain hk | rfl := by simpa using hk
        · exact hlt.le.trans (hleast k hk)
        · exact le_rfl
      next hge =>
        refine ⟨by simp [hmem], fun k hk => ?_⟩
        obtain hk | rfl := by simpa using hk
        · exact hleast k hk
        · exact Nat.le_of_not_lt hge

theorem mem_placesToTry {lo hi al n a : Nat} {held : List (Nat × Nat)} (hn : 0 < n) : a ∈ placesToTry lo hi al n held ↔
    FreeAt lo hi al n held a ∧ (a = alignUp al lo ∨ ∃ h ∈ held, a = alignUp al (h.1 + h.2)) := by
  have hmod : (a = alignUp al lo ∨ ∃ h ∈ held, a = alignUp al (h.1 + h.2)) → a % al = 0 := by
    rintro (rfl | ⟨h, -, rfl⟩) <;> exact alignUp_mod ..
  have hover : (held.any (fun h => overlaps a n h.1 h.2)) = false ↔ ∀ h ∈ held, a + n ≤ h.1 ∨ h.1 + h.2 ≤ a ∨ h.2 = 0 := by
    simp only [List.any_eq_false, Bool.not_eq_true, overlaps_eq_false_iff hn]
  simp only [placesToTry, List.mem_filter, List.mem_cons, List.mem_map, Bool.and_eq_true, decide_eq_true_eq,
    Bool.not_eq_true', hover, FreeAt, @eq_comm _ _ a]
  exact ⟨fun ⟨hp, ⟨hlo, hhi⟩, hh⟩ => ⟨⟨hlo, hhi, hmod hp, hh⟩, hp⟩, fun ⟨⟨hlo, hhi, _, hh⟩, hp⟩ => ⟨hp, ⟨hlo, hhi⟩, hh⟩⟩

/-- Moving a free aligned place down as far as it stays free ends at one of the places `lowestFree` tries. -/
theorem exists_placesToTry_le {lo hi al n b : Nat} {held : List (Nat × Nat)} (hal : 0 < al) (hn : 0 < n) (hb : FreeAt lo hi al n held b) :
    ∃ a ∈ placesToTry lo hi al n held, a ≤ b := by
  induction b using Nat.strong_induction_on with
  | _ b ih =>
    by_cases hplace : b = alignUp al lo ∨ ∃ h ∈ held, b = alignUp al (h.1 + h.2)
    · exact ⟨b, (mem_placesToTry hn).2 ⟨hb, hplace⟩, le_rfl⟩
    · obtain ⟨hlo, hhi, hmod, hheld⟩ := hb
      push Not at hplace
      obtain ⟨hnlo, hnheld⟩ := hplace
      have hbelow : lo + al ≤ b := by
        by_contra hlt
        exact hnlo (alignUp_eq hmod hlo (by omega)).symm
      have hfree : FreeAt lo hi al n held (b - al) := by
        refine ⟨by omega, by omega, by rwa [← Nat.mod_eq_sub_mod (by omega)], fun h hh => ?_⟩
        by_contra hblocks
        have := hheld h hh
        exact hnheld h hh (alignUp_eq hmod (by omega) (by omega)).symm
      obtain ⟨a, ha, hle⟩ := ih (b - al) (by omega) hfree
      exact ⟨a, ha, by omega⟩

theorem lowestFree_spec (lo hi al n : Nat) (held : List (Nat × Nat)) (hal : 0 < al) (hn : 0 < n) :
    (∀ a, lowestFree lo hi al n held = some a → FreeAt lo hi al n held a ∧ ∀ b, FreeAt lo hi al n held b → a ≤ b) ∧
    (lowestFree lo hi al n held = none → ∀ b, ¬ FreeAt lo hi al n held b) := by
  rw [lowestFree_eq_leastBy]
  obtain ⟨hnil, hnone⟩ | ⟨a, hsome, hmem, hleast⟩ := leastBy_id (placesToTry lo hi al n held)
  · refine ⟨fun a h => by simp [hnone] at h, fun _ b hb => ?_⟩
    obtain ⟨a, ha, -⟩ := exists_placesToTry_le hal hn hb
    simp [hnil] at ha
  · refine ⟨fun a' h => ?_, fun h => by simp [hsome] at h⟩
    obtain rfl : a = a' := Option.some_inj.1 (hsome.symm.trans h)
    refine ⟨((mem_placesToTry hn).1 hmem).1, fun b hb => ?_⟩
    obtain ⟨k, hk, hle⟩ := exists_placesToTry_le hal hn hb
    exact (hleast k hk).trans hle

/-! ### What a read of the device leaves (R358, R372) -/

theorem State.SameButMemory.host {s u : State} (h : s.SameButMemory u) : u.host = s.host :=
  (congrArg State.host (show u.withMemoryOf s = s from h) :)

theorem State.host_readRing (s : State) (t : TileId) (o n : Nat) : (s.readRing t o n).2.host = s.host := by
  unfold State.readRing
  refine (foldl_related (R := fun s u : State => u.host = s.host) (fun _ => rfl) (fun h k => k.trans h) (fun w e => ?_) _ _).trans ?_
  · split
    · exact (State.sameButMemory_countCorrected ..).host
    · exact (State.sameButMemory_countUncorrected ..).host
    · rfl
  · split <;> rfl

theorem State.host_readLocal (s : State) (t : TileId) (row : LocalRow) (o n : Nat) : (s.readLocal t row o n).2.host = s.host := by
  cases row with
  | ring => exact s.host_readRing ..
  | counters => rfl
  | status => rfl
  | _ => exact (s.sameButMemory_load ..).host

theorem State.host_tileAccess_read (s : State) (t : TileId) (r : Packet) : (s.tileAccess t r false).s.host = s.host := by
  unfold State.tileAccess
  by_cases hpart : s.partOfTile t.val ≠ some r.part.toNat
  · rw [if_pos hpart]
  · rw [if_neg hpart]
    cases requestRow r with
    | none => rfl
    | some row =>
      have hread := s.host_readLocal t row ((r.address.toNat - tileBase) % 0x20000) r.bytes.toNat
      simp only [Bool.false_eq_true, if_false]
      cases row with
      | acc a comp =>
        dsimp only
        split
        · exact hread
        · exact hread
      | _ => exact hread

theorem State.host_sliceAccess_read (s : State) (sl : Nat) (r : Packet) : (s.sliceAccess sl r false).s.host = s.host := by
  unfold State.sliceAccess
  dsimp only
  split
  · rfl
  · split
    · rfl
    · exact (s.sameButMemory_load ..).host

theorem State.tallySlot_read_s (s : State) (c : Nat) (r : Packet) (off : Nat) : (s.tallySlot c r off false).s = s := by
  unfold State.tallySlot
  split
  · rfl
  · split
    · rfl
    · dsimp only
      split
      · rfl
      · rfl

theorem State.controlAccess_read_s (s : State) (node : Nat) (r : Packet) : (s.controlAccess node r false).s = s := by
  unfold State.controlAccess
  dsimp only
  split
  · exact s.tallySlot_read_s ..
  · split
    · rfl
    · split <;> rfl

/-- A read that a target serves leaves the host's part of the state as it was. -/
theorem State.host_access_read (s : State) (r : Packet) : (s.access r false).s.host = s.host := by
  unfold State.access
  split
  · rfl
  · split
    · rfl
    · split
      · split
        · rw [s.controlAccess_read_s]
        · exact s.host_sliceAccess_read ..
      · split
        · exact s.host_tileAccess_read ..
        · rfl
      · split
        · rw [s.controlAccess_read_s]
        · split
          · exact (s.sameButMemory_load ..).host
          · rfl
      · rw [s.controlAccess_read_s]

theorem State.host_nodeEvent (s : State) (node code payload : Nat) : (s.nodeEvent node code payload).host = s.host := by
  unfold State.nodeEvent
  split <;> rfl

theorem State.host_countAccess (s : State) (r : Packet) (write : Bool) (st : Status) (poison : Nat) :
    (s.countAccess r write st poison).host = s.host := by
  have hcount : ∀ (w : State) (node word n : Nat), (w.netCount node word n).host = w.host := fun _ _ _ _ => rfl
  simp only [State.countAccess, apply_ite State.host, hcount, State.host_nodeEvent, ite_self]

theorem State.host_deviceAccess_read (s : State) (r : Packet) : (s.deviceAccess r false).s.host = s.host := by
  unfold State.deviceAccess
  dsimp only
  split
  · rfl
  · split
    · rfl
    · split
      · rfl
      · exact (State.host_countAccess ..).trans (s.host_access_read r)

theorem State.cmds_deviceRead (s : State) (src tag vi part a n : Nat) (h : HostData) :
    (s.deviceRead src tag vi part a n h).s.host.cmds = s.host.cmds := by
  unfold State.deviceRead
  split
  · repeat' split
    all_goals rfl
  · refine foldl_related (R := fun x y : DeviceRead => y.s.host.cmds = x.s.host.cmds) (fun _ => rfl) (fun h k => k.trans h)
      (fun x p => ?_) _ ⟨.ok, 0, 0, s⟩
    split
    · rfl
    · exact congrArg (·.cmds) (State.host_deviceAccess_read ..)

theorem State.cmds_readBytes (s : State) (v p a n : Nat) (host : HostData) : (s.readBytes v p a n host).2.2.host.cmds = s.host.cmds := by
  unfold State.readBytes
  dsimp only
  split
  · rfl
  · split
    · exact s.cmds_deviceRead ..
    · split
      · exact s.cmds_deviceRead ..
      · exact s.cmds_deviceRead ..

theorem State.cmds_readLists (s : State) (v p : Nat) (ws : List Nat) : (s.readLists v p ws).2.2.host.cmds = s.host.cmds := by
  induction ws generalizing s with
  | nil => rfl
  | cons w ws ih =>
    have hread := s.cmds_readBytes v p (bitsAt w 0 48) (8 * bitsAt w 48 16) ⟨0, .ok⟩
    unfold State.readLists
    dsimp only
    split
    · rfl
    · split
      next heq =>
        rw [heq] at hread
        exact (ih _).trans hread
      next heq =>
        rw [heq] at hread
        exact hread

theorem State.cmds_readManifest (s : State) (v p m : Nat) : (s.readManifest v p m).s.host.cmds = s.host.cmds := by
  unfold State.readManifest
  dsimp only
  split
  · rfl
  · split
    · rfl
    · split
      · rfl
      · have hsegs := s.cmds_readBytes v p (bitsAt (laneNat m 64 1) 0 48) (32 * bitsAt (laneNat m 64 0) 0 16) ⟨0, .ok⟩
        split
        next sd s1 heq =>
          rw [heq] at hsegs
          have hlists := s1.cmds_readBytes v p (bitsAt (laneNat m 64 2) 0 48) (16 * bitsAt (laneNat m 64 0) 16 16) ⟨0, .ok⟩
          split
          next ld s2 heq =>
            rw [heq] at hlists
            have hitems := s2.cmds_readLists v p ((List.range (bitsAt (laneNat m 64 0) 16 16)).map (fun i => laneNat ld 64 (2 * i)))
            split
            next ds s3 heq =>
              rw [heq] at hitems
              have hall := hitems.trans (hlists.trans hsegs)
              split
              · exact hall
              · split
                · exact hall
                · split
                  · exact hall
                  · exact hall
            next heq =>
              rw [heq] at hitems
              exact hitems.trans (hlists.trans hsegs)
          next heq =>
            rw [heq] at hlists
            exact hlists.trans hsegs
        next heq =>
          rw [heq] at hsegs
          exact hsegs

/-! ### The manifest in host memory (R372, R397) -/

section
variable {s : State} {v a n : Nat} (p : Nat) {h : HostData} (hn : n ≠ 0) (hlo : hostBase ≤ a) (hhi : a + n ≤ hostEnd)
  (hlink : s.host.linkState = 2) (hmaster : (s.vi v).busMaster = true)
include hn hlo hhi hlink hmaster

theorem State.readBytes_of_host {bits : Nat} (hbits : bits = 8 * n) (hok : h.outcome = .ok) :
    s.readBytes v p a n h = (.ok, h.data % 2 ^ bits, s) := by
  simp [hbits, State.readBytes, State.deviceRead, hn, hlo, not_lt.2 hhi, hlink, hmaster, hok]

/-- A read of host memory that fails ends with the status of its completion, and with ECC_UNCORRECTED where its data is poisoned; it leaves a
count at most. -/
theorem State.readBytes_of_host_failed (hfail : h.outcome ≠ .ok) : ∃ w,
    s.readBytes v p a n h = (if h.outcome = .poisoned then .eccUncorrected else hostStatus h.outcome, 0, w) ∧ (w = s ∨ w = s.hostStat 3) := by
  have hpoison : 2 ^ n - 1 ≠ 0 := Nat.sub_ne_zero_of_lt (Nat.one_lt_two_pow hn)
  cases ho : h.outcome with
  | ok => exact absurd ho hfail
  | poisoned => exact ⟨s, by simp [State.readBytes, State.deviceRead, hn, hlo, not_lt.2 hhi, hlink, hmaster, ho, hpoison], .inl rfl⟩
  | _ => exact ⟨s.hostStat 3, by simp [State.readBytes, State.deviceRead, hn, hlo, not_lt.2 hhi, hlink, hmaster, ho, hostStatus], .inr rfl⟩

end

theorem bitsAt_laneNat_zero (d : Nat) {lo n : Nat} (h : lo + n ≤ 64) : bitsAt (laneNat d 64 0) lo n = bitsAt d lo n := by
  apply Nat.eq_of_testBit_eq
  intro i
  simp only [bitsAt, laneNat, Nat.testBit_mod_two_pow, Nat.testBit_shiftRight]
  by_cases hi : i < n
  · have : lo + i < 64 := by omega
    simp [this]
  · simp [hi]

/-- The bits of a manifest that R372 reserves are not all 0. -/
def manifestReserved (d : Nat) : Prop :=
  bitsAt (laneNat d 64 0) 32 32 ≠ 0 ∨ (∃ i, 1 ≤ i ∧ i < 4 ∧ bitsAt (laneNat d 64 i) 48 16 ≠ 0) ∨ ∃ i < 4, laneNat d 64 (4 + i) ≠ 0

theorem manifestReserved_iff (d : Nat) : manifestReserved d ↔
    (bitsAt (laneNat d 64 0) 32 32 ≠ 0 || bitsAt (laneNat d 64 1) 48 16 ≠ 0 || bitsAt (laneNat d 64 2) 48 16 ≠ 0 || bitsAt (laneNat d 64 3) 48 16 ≠ 0
      || (List.range 4).any (fun i => laneNat d 64 (4 + i) ≠ 0)) = true := by
  have hword : (∃ i, 1 ≤ i ∧ i < 4 ∧ bitsAt (laneNat d 64 i) 48 16 ≠ 0) ↔
      bitsAt (laneNat d 64 1) 48 16 ≠ 0 ∨ bitsAt (laneNat d 64 2) 48 16 ≠ 0 ∨ bitsAt (laneNat d 64 3) 48 16 ≠ 0 := by
    constructor
    · rintro ⟨i, h1, h4, hi⟩
      obtain rfl | rfl | rfl : i = 1 ∨ i = 2 ∨ i = 3 := by omega
      · exact .inl hi
      · exact .inr (.inl hi)
      · exact .inr (.inr hi)
    · rintro (hi | hi | hi)
      · exact ⟨1, by omega, by omega, hi⟩
      · exact ⟨2, by omega, by omega, hi⟩
      · exact ⟨3, by omega, by omega, hi⟩
  rw [manifestReserved, hword]
  simp only [Bool.or_eq_true, decide_eq_true_eq, List.any_eq_true, List.mem_range, or_assoc]

theorem State.readManifest_of_reserved (s : State) (v p : Nat) {d : Nat} (h : manifestReserved d) :
    s.readManifest v p d = ⟨.illegalEncoding, [], [], s⟩ := by
  unfold State.readManifest
  exact if_pos ((manifestReserved_iff d).1 h)

theorem State.readManifest_of_long (s : State) (v p : Nat) {d : Nat} (h : ¬ manifestReserved d)
    (hlong : 1024 < bitsAt d 0 16 ∨ 256 < bitsAt d 16 16) : s.readManifest v p d = ⟨.outOfRange, [], [], s⟩ := by
  rw [← bitsAt_laneNat_zero d (by omega), ← bitsAt_laneNat_zero d (by omega)] at hlong
  unfold State.readManifest
  exact (if_neg (mt (manifestReserved_iff d).2 h)).trans (if_pos hlong)

/-! ### The fit report and the end of the command (R376) -/

theorem State.cmd_endCmd_of_clean {s : State} {k : CmdKey} {c : Cmd} (hc : s.cmd k = some c) (hrunning : c.phase = .running)
    (hclean : c.poisoned = false) (st : Status) (res : Nat) : (s.endCmd k st res).cmd k =
      some { c with phase := .ended, tEnd := s.calends, status := st, result := res } := by
  refine (State.cmd_updCmd_self (fun c => ?_) hc).trans ?_
  · split <;> rfl
  · rw [if_pos hrunning, if_neg (by simp [hclean])]

theorem State.fitReport_status (s : State) (p nseg : Nat) (st : Status) (policy removed handle : Nat) (segs : List Segment)
    (start r : Pools) : (s.fitReport p nseg st policy removed handle segs start r).headD 0 % 256 = Status.code st := by
  have := Status.code_lt st
  show (nseg * 65536 + r.fragmented.toNat * 1024 + policy * 256 + Status.code st) % 256 = Status.code st
  omega

theorem State.partition_endReport (s : State) (v p : Nat) (ws : List Nat) (k : CmdKey) (st : Status) (res : Nat) :
    ((s.putReport v p 0 ws).endCmd k st res).partition p = { s.partition p with fitReport := ws } :=
  s.partition_setPartition_self p _

theorem State.cmd_endReport {s : State} {k : CmdKey} {c : Cmd} (hc : s.cmd k = some c) (hrunning : c.phase = .running)
    (hclean : c.poisoned = false) (v p : Nat) (ws : List Nat) (st : Status) (res : Nat) :
    ((s.putReport v p 0 ws).endCmd k st res).cmd k = some { c with phase := .ended, tEnd := s.calends, status := st, result := res } :=
  State.cmd_endCmd_of_clean (s := s.putReport v p 0 ws) hc hrunning hclean st res

/-- Command `k` of partition `p` has ended with a status other than that of a load: nothing is loaded and the fit report holds the status. -/
structure State.LoadRefused (s : State) (k : CmdKey) (p : Nat) (st : Status) (u : State) : Prop where
  cmd : ∃ c', u.cmd k = some c' ∧ c'.phase = .ended ∧ c'.status = st ∧ c'.result = 0
  loads : u.loads = s.loads
  models : (u.partition p).models = (s.partition p).models
  report : (u.partition p).fitReport.headD 0 % 256 = Status.code st
  copyWait : u.copyWait = s.copyWait

theorem State.loadRefused_endCmd {s : State} {k : CmdKey} {c : Cmd} (hc : s.cmd k = some c) (hrunning : c.phase = .running)
    (hclean : c.poisoned = false) (v p : Nat) {st : Status} {ws : List Nat} (hws : ws.headD 0 % 256 = Status.code st) :
    s.LoadRefused k p st ((s.putReport v p 0 ws).endCmd k st 0) := by
  have hpart := s.partition_endReport v p ws k st 0
  exact ⟨⟨_, State.cmd_endReport hc hrunning hclean v p ws st 0, rfl, rfl, rfl⟩, rfl, by rw [hpart],
    hpart ▸ hws, rfl⟩

theorem State.LoadRefused.of_begin {s u : State} {k : CmdKey} {p : Nat} {st : Status} (h : (s.begin k).LoadRefused k p st u) :
    s.LoadRefused k p st u := ⟨h.cmd, h.loads, h.models, h.report, h.copyWait⟩

theorem State.cmd_begin_self {s : State} {k : CmdKey} {c : Cmd} (hc : s.cmd k = some c) : (s.begin k).cmd k = some { c with begun := true } :=
  State.cmd_updCmd_self (f := fun c => { c with begun := true }) (fun _ => rfl) hc

/-! ### Placing a model (R373, R375) -/

/-- The copies of a load are queued in order, and nothing else changes but the serial. -/
theorem State.foldl_submitCopy (o : CopyOwner) (v p : Nat) (l : List Nat) (s : State) :
    ∃ (ds : List CopyDesc) (n : Nat), l.foldl (fun s d => s.submitCopy o v p d) s = { s with copyWait := s.copyWait ++ ds, serial := n } ∧
      ds.map (·.words) = l ∧ ∀ x ∈ ds, x.owner = o ∧ x.vi = v ∧ x.part = p := by
  induction l generalizing s with
  | nil => exact ⟨[], s.serial, by simp, rfl, by simp⟩
  | cons d l ih =>
    obtain ⟨ds, n, hfold, hwords, hown⟩ := ih (s.submitCopy o v p d)
    refine ⟨{ id := s.serial, owner := o, vi := v, part := p, words := d } :: ds, n, ?_, by simp [hwords], ?_⟩
    · rw [List.foldl_cons, hfold]
      simp [State.submitCopy]
    · rintro x hx
      obtain rfl | hx := List.mem_cons.1 hx
      · exact ⟨rfl, rfl, rfl⟩
      · exact hown x hx

section
variable (s : State) (c : Cmd) (m : ManifestRead) (slot : Nat)

/-- The pools of a command's partition with the segments of a manifest placed. -/
def State.fitted : Pools := placeAll (s.pools c.part (s.arenaFrames c.part)) false m.segs

/-- The copies that bring the placed segments to their places. -/
def State.loadCopies : List Nat := (s.fitted c m).placed.flatMap (s.segmentCopies c.part)

/-- The copies of a load that R317 lets pass. -/
def State.goodCopies : List Nat := (s.loadCopies c m).filter (fun d => s.checkCopy c.key.vi c.part d = .ok)

/-- The status of the first copy of a load that R317 refuses. -/
def State.badCopy : Option Status := ((s.loadCopies c m).map (s.checkCopy c.key.vi c.part)).find? (· ≠ .ok)

/-- The next generation of a slot (R375). -/
def State.nextGen (p slot : Nat) : Nat :=
  if Sparse.get 0 (s.partition p).gens slot = 65535 then 1 else Sparse.get 0 (s.partition p).gens slot + 1

/-- The model of a load all of whose segments fit. -/
def State.newModel : Model :=
  { gen := s.nextGen c.part slot, lists := m.lists
    slices := ((s.fitted c m).placed.filter (fun x => x.kind = 0)).map (fun x => (x.at_ - stripedBase, x.seg.bytes))
    bands := ((s.fitted c m).placed.filter (fun x => x.kind = 1)).map (fun x => (x.at_, x.seg.bytes))
    srcs := m.segs.map (fun g => (g.src, s.segmentSpan c.part g)) }

/-- The load of a manifest all of whose segments fit, with its report at no address. -/
def State.newLoad : Load :=
  { key := c.key, part := c.part, slot := slot, model := s.newModel c m slot, failed := s.badCopy c m
    report := s.fitReport c.part m.segs.length .ok 0 0 0 m.segs (s.pools c.part (s.arenaFrames c.part)) (s.fitted c m) }

/-- A load begins with the copies it waits for. -/
def State.beginLoad : State :=
  { s with loads := s.loads ++ [s.newLoad c m slot] }.updCmd c.key
    (fun x => { x with begun := true, copies := (s.goodCopies c m).length })

theorem State.placeModel_of_fits (keep : State → State) (h : (s.fitted c m).beyond = []) : s.placeModel c m slot 0 keep =
    ((s.goodCopies c m).foldl (fun s d => s.submitCopy (.load c.key) c.key.vi c.part d) (s.beginLoad c m slot)).finishLoad c.key := by
  unfold State.placeModel
  refine (if_pos h).trans ?_
  simp only [List.map_map, Function.comp_def]
  rfl

theorem State.placeModel_of_beyond (keep : State → State) (h : (s.fitted c m).beyond ≠ []) (hpolicy : s.obj (0x5040 + 0x100 * c.part) 0 0 = 0) :
    s.placeModel c m slot 0 keep = (s.putReport c.key.vi c.part 0 (s.fitReport c.part m.segs.length .fitExceeded 0 0 0 m.segs
      (s.pools c.part (s.arenaFrames c.part)) (s.fitted c m))).endCmd c.key .fitExceeded 0 := by
  unfold State.placeModel
  refine (if_neg h).trans ?_
  rw [hpolicy]
  rfl

end

/-! ### The end of a load (R375, R376) -/

/-- The fit report of a load that fails later. -/
def Load.reportFailed (l : Load) (st : Status) : List Nat :=
  l.report.zipIdx.map (fun e => if e.2 = 0 then e.1 / 256 * 256 + Status.code st else e.1)

/-- The fit report of a load that ends with a handle. -/
def Load.reportLoaded (l : Load) (h : Nat) : List Nat := l.report.zipIdx.map (fun e => if e.2 = 8 then h else e.1)

/-- The state without the load of command `k`. -/
def State.dropLoad (s : State) (k : CmdKey) : State := { s with loads := s.loads.filter (fun x => x.key ≠ k) }

/-- The slot of a load holds its model. -/
def State.putModel (s : State) (l : Load) : State :=
  s.setPartition l.part { s.partition l.part with
    models := Sparse.set none (s.partition l.part).models l.slot (some l.model), gens := Sparse.set 0 (s.partition l.part).gens l.slot l.model.gen }

theorem State.get_putModel_self (s : State) (l : Load) :
    Sparse.get none ((s.putModel l).partition l.part).models l.slot = some l.model := by
  rw [State.putModel, State.partition_setPartition_self, Sparse.get_set_self]

/-- The end of a load with the first status that is not OK, or with its model in its slot. -/
def State.endLoad (s : State) (k : CmdKey) (l : Load) : Option Status → State
  | some st => (s.putReport k.vi l.part 0 (l.reportFailed st)).endCmd k st 0
  | none => ((s.putModel l).putReport k.vi l.part 0 (l.reportLoaded (handleOf l.part l.model.gen l.slot))).endCmd k .ok
      (handleOf l.part l.model.gen l.slot)

section
variable {s : State} {k : CmdKey} {c : Cmd} {l : Load}

theorem State.finishLoad_of_copies (hc : s.cmd k = some c) (h : c.copies ≠ 0) : s.finishLoad k = s := by
  unfold State.finishLoad
  rw [hc]
  cases s.loads.find? (fun l => l.key = k) with
  | none => rfl
  | some l => exact if_pos h

variable (hl : s.loads.find? (fun l => l.key = k) = some l) (hc : s.cmd k = some c) (hcopies : c.copies = 0) (hat : l.reportAt = 0)
include hl hc hcopies hat

theorem State.finishLoad_of_no_copies : s.finishLoad k = (s.dropLoad k).endLoad k l
    (l.failed <|> if l.model.srcs.all (fun m => coveredBy ((s.dropLoad k).fences l.part) m.1 m.2) then none else some .outOfRange) := by
  unfold State.finishLoad
  rw [hl, hc]
  refine (if_neg (not_not.2 hcopies)).trans ?_
  rw [hat]
  rfl

theorem State.finishLoad_of_failed {st : Status} (hfailed : l.failed = some st) :
    s.finishLoad k = ((s.dropLoad k).putReport k.vi l.part 0 (l.reportFailed st)).endCmd k st 0 := by
  rw [State.finishLoad_of_no_copies hl hc hcopies hat, hfailed]
  rfl

theorem State.finishLoad_of_covered (hfailed : l.failed = none) (hcovered : ∀ x ∈ l.model.srcs, coveredBy (s.fences l.part) x.1 x.2 = true) :
    s.finishLoad k = (((s.dropLoad k).putModel l).putReport k.vi l.part 0 (l.reportLoaded (handleOf l.part l.model.gen l.slot))).endCmd k .ok
      (handleOf l.part l.model.gen l.slot) := by
  have hall : l.model.srcs.all (fun m => coveredBy ((s.dropLoad k).fences l.part) m.1 m.2) = true := List.all_eq_true.2 hcovered
  rw [State.finishLoad_of_no_copies hl hc hcopies hat, hfailed, if_pos hall]
  rfl

end

/-! ### A load that begins (R375) -/

section
variable {s : State} {c : Cmd} (m : ManifestRead) (slot : Nat) (hc : s.cmd c.key = some c)
include hc

theorem State.cmd_beginLoad : (s.beginLoad c m slot).cmd c.key = some { c with begun := true, copies := (s.goodCopies c m).length } :=
  State.cmd_updCmd_self (s := { s with loads := s.loads ++ [s.newLoad c m slot] })
    (f := fun x => { x with begun := true, copies := (s.goodCopies c m).length }) (fun _ => rfl) hc

/-- A load with copies to make has begun, and each of its copies is queued. -/
theorem State.placeModel_of_copies (keep : State → State) (hfits : (s.fitted c m).beyond = []) (hgood : s.goodCopies c m ≠ []) :
    ∃ ds n, s.placeModel c m slot 0 keep = { s.beginLoad c m slot with copyWait := s.copyWait ++ ds, serial := n } ∧
      ds.map (·.words) = s.goodCopies c m ∧ ∀ x ∈ ds, x.owner = .load c.key ∧ x.vi = c.key.vi ∧ x.part = c.part := by
  obtain ⟨ds, n, hfold, hwords, hown⟩ := State.foldl_submitCopy (.load c.key) c.key.vi c.part (s.goodCopies c m) (s.beginLoad c m slot)
  refine ⟨ds, n, ?_, hwords, hown⟩
  rw [s.placeModel_of_fits c m slot keep hfits, hfold]
  exact State.finishLoad_of_copies (s := { s.beginLoad c m slot with copyWait := s.copyWait ++ ds, serial := n })
    (State.cmd_beginLoad m slot hc) (mt List.length_eq_zero_iff.1 hgood)

end

section
variable {s : State} {c : Cmd} (m : ManifestRead) (slot : Nat) (hnew : ∀ l ∈ s.loads, l.key ≠ c.key)
include hnew

theorem State.loads_dropLoad_beginLoad : ((s.beginLoad c m slot).dropLoad c.key).loads = s.loads := by
  show (s.loads ++ [s.newLoad c m slot]).filter (fun x => x.key ≠ c.key) = s.loads
  rw [List.filter_append, List.filter_eq_self.2 (by simpa using hnew)]
  simp [State.newLoad]

theorem State.find_beginLoad : (s.beginLoad c m slot).loads.find? (fun l => l.key = c.key) = some (s.newLoad c m slot) := by
  show (s.loads ++ [s.newLoad c m slot]).find? (fun x => x.key = c.key) = _
  rw [List.find?_append, List.find?_eq_none.2 (by simpa using hnew)]
  simp [State.newLoad]

variable (hc : s.cmd c.key = some c) (hgood : s.goodCopies c m = []) (hfits : (s.fitted c m).beyond = [])
include hc hgood hfits

theorem State.placeModel_of_bad {st : Status} (keep : State → State) (hbad : s.badCopy c m = some st) : s.placeModel c m slot 0 keep =
    (((s.beginLoad c m slot).dropLoad c.key).putReport c.key.vi c.part 0 ((s.newLoad c m slot).reportFailed st)).endCmd c.key st 0 := by
  rw [s.placeModel_of_fits c m slot keep hfits, hgood, List.foldl_nil]
  exact State.finishLoad_of_failed (State.find_beginLoad m slot hnew) (State.cmd_beginLoad m slot hc) (by rw [hgood]; rfl) rfl hbad

/-- Where no copy is needed and the fences cover the manifest's segments, the model is loaded at once. -/
theorem State.placeModel_of_loaded (keep : State → State) (hbad : s.badCopy c m = none)
    (hcovered : ∀ g ∈ m.segs, coveredBy (s.fences c.part) g.src (s.segmentSpan c.part g) = true) : s.placeModel c m slot 0 keep =
    ((((s.beginLoad c m slot).dropLoad c.key).putModel (s.newLoad c m slot)).putReport c.key.vi c.part 0
      ((s.newLoad c m slot).reportLoaded (handleOf c.part (s.nextGen c.part slot) slot))).endCmd c.key .ok
      (handleOf c.part (s.nextGen c.part slot) slot) := by
  rw [s.placeModel_of_fits c m slot keep hfits, hgood, List.foldl_nil]
  refine State.finishLoad_of_covered (State.find_beginLoad m slot hnew) (State.cmd_beginLoad m slot hc) (by rw [hgood]; rfl) rfl hbad ?_
  intro x hx
  obtain ⟨g, hg, rfl⟩ := List.mem_map.1 hx
  exact hcovered g hg

end

/-! ### LOAD_MODEL (R372 to R377) -/

/-- Slot `i` of a partition holds a model or is taken by a load. -/
def State.slotUsed (s : State) (p i : Nat) : Prop := (Sparse.get none (s.partition p).models i).isSome = true ∨ ∃ l ∈ s.loads, l.part = p ∧ l.slot = i

theorem State.slotUsed_iff (s : State) (p i : Nat) :
    ((Sparse.get none (s.partition p).models i).isSome || s.loads.any (fun l => l.part = p && l.slot = i)) = true ↔ s.slotUsed p i := by
  simp [State.slotUsed]

/-- The command ends without a load, with its status in the fit report of a manifest of `nseg` segments. -/
def State.failLoad (s : State) (v : Nat) (c : Cmd) (nseg : Nat) (segs : List Segment) (st : Status) : State :=
  let start := s.pools c.part (s.arenaFrames c.part)
  ((s.begin c.key).putReport v c.part 0 (s.fitReport c.part nseg st 0 0 0 segs start (placeAll start false segs))).endCmd c.key st 0

section
variable {s : State} {v : ViId} {r : RingId} {q : Nat} {h : HostData} {c : Cmd} (hcmd : s.cmd ⟨v.val, r.val, q⟩ = some c)
  (hrunning : c.phase = .running) (hbegun : c.begun = false) (hop : entryOp c.entry = 2) (hreset : (s.vi v.val).resetting = none)
include hcmd hrunning hbegun hop hreset

theorem State.fresh_loadModel : s.fresh v.val r.val q 2 = some c := by
  simp [State.fresh, hcmd, hrunning, hbegun, hop, hreset]

/-- A manifest that cannot be read ends the command with the status of the read. -/
theorem exec_loadModel_of_unread {st : Status} {d : Nat} {w : State} (hst : st ≠ .ok)
    (hread : s.readBytes v.val c.part (bitsAt (entryW c.entry 3) 0 48) 64 h = (st, d, w)) :
    exec (.loadModel v r q h) s = .next (((w.begin c.key).putReport v.val c.part 0 (w.fitReport c.part 0 st 0 0 0 []
      (w.pools c.part (w.arenaFrames c.part)) (w.pools c.part (w.arenaFrames c.part)))).endCmd c.key st 0) := by
  have hfresh := State.fresh_loadModel hcmd hrunning hbegun hop hreset
  show execLoadModel v r q h s = _
  unfold execLoadModel
  rw [hfresh]
  dsimp only
  rw [hread]
  cases st with
  | ok => exact absurd rfl hst
  | _ => rfl

/-- What a command does once its manifest `d` is read, in the order of its checks; its report goes to no address. -/
theorem exec_loadModel_of_read {d : Nat} (hread : s.readBytes v.val c.part (bitsAt (entryW c.entry 3) 0 48) 64 h = (.ok, d, s))
    (hat : bitsAt (laneNat d 64 3) 0 48 = 0) :
    let m := s.readManifest v.val c.part d
    let old := entryW c.entry 4
    let ends := fun segs st => exec (.loadModel v r q h) s = .next (m.s.failLoad v.val c (bitsAt d 0 16) segs st)
    (m.st ≠ .ok → ends [] m.st) ∧
    (m.st = .ok → old ≠ 0 → m.s.modelOf c.part old = none → ends m.segs .notFound) ∧
    (m.st = .ok → old ≠ 0 → (m.s.modelOf c.part old).isSome = true →
      (∃ x ∈ m.s.host.cmds, entryOp x.entry = 1 ∧ x.phase = .running ∧ x.refused = false ∧ entryW x.entry 3 = old) → ends m.segs .busyStopClass) ∧
    (m.st = .ok → old = 0 → (∀ i < 16, m.s.slotUsed c.part i) → ends m.segs .noSpace) ∧
    (m.st = .ok → old = 0 → ∀ i < 16, ¬ m.s.slotUsed c.part i → (∀ j < i, m.s.slotUsed c.part j) →
      ∃ keep, exec (.loadModel v r q h) s = .next (m.s.placeModel c m i 0 keep)) := by
  have hfresh := State.fresh_loadModel hcmd hrunning hbegun hop hreset
  intro m old ends
  dsimp only [ends]
  rw [show exec (.loadModel v r q h) s = execLoadModel v r q h s from rfl]
  unfold execLoadModel
  rw [hfresh]
  dsimp only
  rw [hread]
  dsimp only
  rw [hat]
  have hused : ∀ i, ((Sparse.get none (m.s.partition c.part).models i).isSome || m.s.loads.any (fun l => l.part = c.part && l.slot = i)) = true ↔
      m.s.slotUsed c.part i := fun i => m.s.slotUsed_iff ..
  refine ⟨fun hst => ?bad, fun hst hold hmodel => ?notFound, fun hst hold hmodel hrun => ?busy, fun hst hnew hfull => ?full,
    fun hst hnew i hi hfree hlow => ?slot⟩
  case bad =>
    refine (if_pos hst).trans ?_
    rw [if_neg hst]
    rfl
  case notFound =>
    refine (if_neg (not_not.2 hst)).trans ((if_pos ⟨hold, Option.isNone_iff_eq_none.2 hmodel⟩).trans ?_)
    rw [if_pos hst]
    rfl
  case busy =>
    have hany : m.s.host.cmds.any
        (fun x => entryOp x.entry = 1 && x.phase = .running && !x.refused && entryW x.entry 3 = old) = true := by
      simpa [and_assoc] using hrun
    refine (if_neg (not_not.2 hst)).trans ((if_neg fun hno => ?_).trans ((if_pos ⟨hold, hany⟩).trans ?_))
    · rw [Option.isNone_iff_eq_none.1 hno.2] at hmodel
      exact Bool.false_ne_true hmodel
    · rw [if_pos hst]
      rfl
  case full =>
    have hfind : (List.range 16).find? (fun i => !((Sparse.get none (m.s.partition c.part).models i).isSome ||
        m.s.loads.any (fun l => l.part = c.part && l.slot = i))) = none := by
      simp only [List.find?_range_eq_none, Bool.not_not, hused]
      exact hfull
    refine (if_neg (not_not.2 hst)).trans ((if_neg fun hno => hno.1 hnew).trans ((if_neg fun hno => hno.1 hnew).trans
      ((if_neg fun hno => hno.1 hnew).trans ?_)))
    rw [if_neg (not_not.2 hnew), hfind, if_pos hst]
    rfl
  case slot =>
    have hfind : (List.range 16).find? (fun i => !((Sparse.get none (m.s.partition c.part).models i).isSome ||
        m.s.loads.any (fun l => l.part = c.part && l.slot = i))) = some i := by
      simp only [List.find?_range_eq_some, List.mem_range, Bool.not_not, hused, Bool.not_eq_true', ← Bool.not_eq_true]
      exact ⟨hfree, hi, hlow⟩
    rw [if_neg (not_not.2 hst), if_neg fun hno => hno.1 hnew, if_neg fun hno => hno.1 hnew, if_neg fun hno => hno.1 hnew,
      if_neg (not_not.2 hnew), hfind]
    exact ⟨_, rfl⟩

end

/-! ### What the outcomes of LOAD_MODEL leave (R375, R376) -/

section
variable {s : State} {c : Cmd} (hc : s.cmd c.key = some c) (hrunning : c.phase = .running) (hclean : c.poisoned = false)
include hc hrunning hclean

theorem State.loadRefused_failLoad (v nseg : Nat) (segs : List Segment) (st : Status) :
    s.LoadRefused c.key c.part st (s.failLoad v c nseg segs st) :=
  (State.loadRefused_endCmd (State.cmd_begin_self hc) hrunning hclean v c.part (State.fitReport_status ..)).of_begin

theorem State.loadRefused_placeModel {m : ManifestRead} (slot : Nat) (keep : State → State) (h : (s.fitted c m).beyond ≠ [])
    (hpolicy : s.obj (0x5040 + 0x100 * c.part) 0 0 = 0) : s.LoadRefused c.key c.part .fitExceeded (s.placeModel c m slot 0 keep) := by
  rw [s.placeModel_of_beyond c m slot keep h hpolicy]
  exact State.loadRefused_endCmd hc hrunning hclean c.key.vi c.part (State.fitReport_status ..)

end

/-- What a load that waits for its copies leaves: its command at work, itself under way, and its copies queued. -/
structure State.LoadWaits (s : State) (c : Cmd) (m : ManifestRead) (slot : Nat) (ds : List CopyDesc) (u : State) : Prop where
  cmd : u.cmd c.key = some { c with begun := true, copies := (s.goodCopies c m).length }
  loads : u.loads = s.loads ++ [s.newLoad c m slot]
  partition : u.partition c.part = s.partition c.part
  copyWait : u.copyWait = s.copyWait ++ ds
  words : ds.map (·.words) = s.goodCopies c m
  owner : ∀ x ∈ ds, x.owner = .load c.key ∧ x.vi = c.key.vi ∧ x.part = c.part

theorem State.loadWaits_placeModel {s : State} {c : Cmd} {m : ManifestRead} (slot : Nat) (keep : State → State) (hc : s.cmd c.key = some c)
    (hfits : (s.fitted c m).beyond = []) (hgood : s.goodCopies c m ≠ []) : ∃ ds, s.LoadWaits c m slot ds (s.placeModel c m slot 0 keep) := by
  obtain ⟨ds, n, hplace, hwords, hown⟩ := State.placeModel_of_copies m slot hc keep hfits hgood
  rw [hplace]
  exact ⟨ds, State.cmd_beginLoad m slot hc, rfl, rfl, rfl, hwords, hown⟩

/-- The load of command `c` has ended, and nothing of it is under way. -/
structure State.LoadEnds (s : State) (c : Cmd) (st : Status) (res : Nat) (u : State) : Prop where
  cmd : ∃ c', u.cmd c.key = some c' ∧ c'.phase = .ended ∧ c'.status = st ∧ c'.result = res
  loads : u.loads = s.loads
  copyWait : u.copyWait = s.copyWait

theorem State.loadEnds_endReport {s w : State} {c x : Cmd} (hx : w.cmd c.key = some x) (hrunning : x.phase = .running) (hclean : x.poisoned = false)
    (hloads : w.loads = s.loads) (hwait : w.copyWait = s.copyWait) (v p : Nat) (ws : List Nat) (st : Status) (res : Nat) :
    s.LoadEnds c st res ((w.putReport v p 0 ws).endCmd c.key st res) :=
  ⟨⟨_, State.cmd_endReport hx hrunning hclean v p ws st res, rfl, rfl, rfl⟩, hloads, hwait⟩

theorem State.loadEnds_of_unread {s w : State} {c : Cmd} (hc : s.cmd c.key = some c) (hrunning : c.phase = .running) (hclean : c.poisoned = false)
    (hw : w = s ∨ w = s.hostStat 3) (v : Nat) (ws : List Nat) (st : Status) :
    s.LoadEnds c st 0 (((w.begin c.key).putReport v c.part 0 ws).endCmd c.key st 0) ∧
    ((((w.begin c.key).putReport v c.part 0 ws).endCmd c.key st 0).partition c.part).models = (s.partition c.part).models := by
  obtain ⟨hcmd, hloads, hwait, hpart⟩ : w.cmd c.key = some c ∧ w.loads = s.loads ∧ w.copyWait = s.copyWait ∧
      w.partition c.part = s.partition c.part := by
    obtain rfl | rfl := hw <;> exact ⟨hc, rfl, rfl, rfl⟩
  refine ⟨State.loadEnds_endReport (State.cmd_begin_self hcmd) hrunning hclean hloads hwait .., ?_⟩
  rw [State.partition_endReport, ← hpart]
  rfl

section
variable {s : State} {c : Cmd} {m : ManifestRead} (slot : Nat) (keep : State → State) (hc : s.cmd c.key = some c) (hrunning : c.phase = .running)
  (hclean : c.poisoned = false) (hfits : (s.fitted c m).beyond = []) (hgood : s.goodCopies c m = []) (hnew : ∀ l ∈ s.loads, l.key ≠ c.key)
include hc hrunning hclean hfits hgood hnew

theorem State.loadEnds_of_bad {st : Status} (hbad : s.badCopy c m = some st) : s.LoadEnds c st 0 (s.placeModel c m slot 0 keep) ∧
    ((s.placeModel c m slot 0 keep).partition c.part).models = (s.partition c.part).models := by
  rw [State.placeModel_of_bad m slot hnew hc hgood hfits keep hbad]
  refine ⟨State.loadEnds_endReport (w := (s.beginLoad c m slot).dropLoad c.key) (State.cmd_beginLoad m slot hc) hrunning hclean
    (State.loads_dropLoad_beginLoad m slot hnew) rfl .., ?_⟩
  rw [State.partition_endReport]
  rfl

theorem State.loadEnds_of_loaded (hbad : s.badCopy c m = none)
    (hcovered : ∀ g ∈ m.segs, coveredBy (s.fences c.part) g.src (s.segmentSpan c.part g) = true) :
    s.LoadEnds c .ok (handleOf c.part (s.nextGen c.part slot) slot) (s.placeModel c m slot 0 keep) ∧
    Sparse.get none ((s.placeModel c m slot 0 keep).partition c.part).models slot = some (s.newModel c m slot) := by
  rw [State.placeModel_of_loaded m slot hnew hc hgood hfits keep hbad hcovered]
  refine ⟨State.loadEnds_endReport (w := ((s.beginLoad c m slot).dropLoad c.key).putModel (s.newLoad c m slot)) (State.cmd_beginLoad m slot hc)
    hrunning hclean (State.loads_dropLoad_beginLoad m slot hnew) rfl .., ?_⟩
  rw [State.partition_endReport]
  exact State.get_putModel_self ((s.beginLoad c m slot).dropLoad c.key) (s.newLoad c m slot)

end

theorem State.goodCopies_of_no_copies {s : State} {c : Cmd} {m : ManifestRead} (h : s.loadCopies c m = []) :
    s.goodCopies c m = [] ∧ s.badCopy c m = none := by
  simp [State.goodCopies, State.badCopy, h]

/-- Settles O50, from what each outcome of the command leaves: `LoadRefused`, `LoadWaits` and `LoadEnds`. -/
theorem loadModelFollowsItsRules : Obligations.LoadModelFollowsItsRules := by
  unfold Obligations.LoadModelFollowsItsRules
  refine ⟨fun lo hi al n held hal hn => lowestFree_spec lo hi al n held hal hn, ?_⟩
  intro v r q h s c hcmd hrunning hbegun hclean hop hreset hlo hhi hlink hmaster p d m t old nseg go used pools placed copies good bad gen refused
  have hkey : c.key = ⟨v.val, r.val, q⟩ := State.key_of_cmd hcmd
  have hvi : c.key.vi = v.val := by rw [hkey]
  have hc : t.cmd c.key = some c := by
    rw [State.cmd, show t.host.cmds = s.host.cmds from s.cmds_readManifest v.val p d, hkey]
    exact hcmd
  refine ⟨fun hfail => ?unread, fun hreserved => ?reserved, fun hst hlong => ?long, fun hok hat => ?read⟩
  case unread =>
    obtain ⟨w, hread, hw⟩ := State.readBytes_of_host_failed c.part (n := 64) (by decide) hlo hhi hlink hmaster hfail
    have hst : (if h.outcome = .poisoned then Status.eccUncorrected else hostStatus h.outcome) ≠ .ok := by
      revert hfail
      cases h.outcome <;> decide
    obtain ⟨hend, hmodels⟩ := State.loadEnds_of_unread (hkey ▸ hcmd) hrunning hclean hw v.val _ _
    obtain ⟨c', hc', hphase, hstatus, -⟩ := hend.cmd
    exact ⟨_, c', exec_loadModel_of_unread hcmd hrunning hbegun hop hreset hst hread, hc', hphase, hstatus, hend.loads, hmodels⟩
  case reserved =>
    have hm : m = ⟨.illegalEncoding, [], [], s⟩ := s.readManifest_of_reserved v.val p hreserved
    exact ⟨congrArg ManifestRead.st hm, congrArg ManifestRead.s hm⟩
  case long =>
    have hm : m = ⟨.outOfRange, [], [], s⟩ :=
      s.readManifest_of_long v.val p (fun hreserved => hst (congrArg ManifestRead.st (s.readManifest_of_reserved v.val p hreserved))) hlong
    exact ⟨congrArg ManifestRead.st hm, congrArg ManifestRead.s hm⟩
  case read =>
    have hread := State.readBytes_of_host c.part (n := 64) (by decide) hlo hhi hlink hmaster (bits := 512) rfl hok
    obtain ⟨hbad, hnotFound, hbusy, hfull, hslot⟩ := exec_loadModel_of_read hcmd hrunning hbegun hop hreset hread hat
    have hrefused : ∀ {segs st}, go = .next (t.failLoad v.val c (bitsAt d 0 16) segs st) → refused st := by
      intro segs st hgo
      have hr := State.loadRefused_failLoad hc hrunning hclean v.val (bitsAt d 0 16) segs st
      obtain ⟨c', hc', hphase, hstatus, hresult⟩ := hr.cmd
      exact ⟨_, c', hgo, hc', hphase, hstatus, hresult, hr.loads, hr.models, hr.report, hr.copyWait⟩
    refine ⟨fun hst => hrefused (hbad hst), fun hst hold hmodel => hrefused (hnotFound hst hold hmodel),
      fun hst hold hmodel hrun => hrefused (hbusy hst hold hmodel hrun), fun hst hnew hall => hrefused (hfull hst hnew hall),
      fun hst hnew i hi hfree hlow => ?_⟩
    obtain ⟨keep, hgo⟩ := hslot hst hnew i hi hfree hlow
    have hgood : good = t.goodCopies c m := by
      rw [State.goodCopies, hvi]
      rfl
    have hbadCopy : bad = t.badCopy c m := by
      rw [State.badCopy, hvi]
      rfl
    refine ⟨fun hbeyond hpolicy => ?fit, fun hfits hsome => ?waits, fun st hfits hnone hfailed hown => ?failed, fun hfits hnone hcovered hown => ?loaded⟩
    case fit =>
      have hr := State.loadRefused_placeModel hc hrunning hclean i keep hbeyond hpolicy
      obtain ⟨c', hc', hphase, hstatus, hresult⟩ := hr.cmd
      exact ⟨_, c', hgo, hc', hphase, hstatus, hresult, hr.loads, hr.models, hr.report, hr.copyWait⟩
    case waits =>
      obtain ⟨ds, hw⟩ := State.loadWaits_placeModel i keep hc hfits (hgood ▸ hsome)
      refine ⟨_, _, t.newLoad c m i, ds, hgo, hw.cmd, hrunning, rfl, by rw [hgood], hw.loads, rfl, rfl, rfl, hbadCopy.symm, rfl, rfl, rfl, rfl,
        by rw [hw.partition], hw.copyWait, by rw [hw.words, hgood], fun x hx => ?_⟩
      obtain ⟨hload, hxvi, hpart⟩ := hw.owner x hx
      exact ⟨hload, hxvi.trans hvi, hpart⟩
    case failed =>
      obtain ⟨hend, hmodels⟩ := State.loadEnds_of_bad i keep hc hrunning hclean hfits (hgood ▸ hnone) hown (hbadCopy ▸ hfailed)
      obtain ⟨c', hc', hphase, hstatus, -⟩ := hend.cmd
      exact ⟨_, c', hgo, hc', hphase, hstatus, hend.loads, hmodels, hend.copyWait⟩
    case loaded =>
      obtain ⟨hnoGood, hnoBad⟩ := State.goodCopies_of_no_copies (s := t) (c := c) (m := m) hnone
      obtain ⟨hend, hmodel⟩ := State.loadEnds_of_loaded i keep hc hrunning hclean hfits hnoGood hown hnoBad hcovered
      obtain ⟨c', hc', hphase, hstatus, hresult⟩ := hend.cmd
      exact ⟨_, c', t.newModel c m i, hgo, hc', hphase, hstatus, hmodel, rfl, rfl, hresult, hend.copyWait⟩

end Sys2Proof.Machine


/-!
## The frame of a VI reset (R364, R367, R369): the host's registers and commands in what ends tasks, requests and Shelf operations
-/

namespace Sys2Proof.Machine

/-! ### Commands that are kept or end -/

/-- Command `c` is `b` later on: its name and entry are `b`'s, and it runs only if `b` did. -/
structure Cmd.Continues (b c : Cmd) : Prop where
  key : c.key = b.key
  entry : c.entry = b.entry
  running : c.phase = .running → b.phase = .running

theorem Cmd.Continues.refl (b : Cmd) : b.Continues b := ⟨rfl, rfl, id⟩

theorem Cmd.Continues.trans {a b c : Cmd} (h : a.Continues b) (k : b.Continues c) : a.Continues c :=
  ⟨k.key.trans h.key, k.entry.trans h.entry, fun hc => h.running (k.running hc)⟩

/-- The registers of every VI are the same, and every command continues one that was there. -/
structure State.HostKept (s u : State) : Prop where
  vis : u.host.vis = s.host.vis
  cmds : ∀ c ∈ u.host.cmds, ∃ b ∈ s.host.cmds, b.Continues c

theorem State.HostKept.refl (s : State) : s.HostKept s := ⟨rfl, fun c hc => ⟨c, hc, .refl c⟩⟩

theorem State.HostKept.trans {s u v : State} (h : s.HostKept u) (k : u.HostKept v) : s.HostKept v := by
  refine ⟨k.vis.trans h.vis, fun c hc => ?_⟩
  obtain ⟨b, hb, hcb⟩ := k.cmds c hc
  obtain ⟨a, ha, hba⟩ := h.cmds b hb
  exact ⟨a, ha, hba.trans hcb⟩

theorem State.HostKept.foldl {α : Type} {s u : State} {f : State → α → State} (h : s.HostKept u)
    (hf : ∀ (w : State) e, w.HostKept (f w e)) (l : List α) : s.HostKept (l.foldl f u) :=
  h.trans (foldl_related .refl .trans hf l u)

theorem State.HostKept.vi {s u : State} (h : s.HostKept u) (v : Nat) : u.vi v = s.vi v := by
  rw [State.vi, State.vi, h.vis]

theorem State.hostKept_of_host {s u : State} (h : u.host = s.host) : s.HostKept u :=
  ⟨by rw [h], fun c hc => ⟨c, h ▸ hc, .refl c⟩⟩

theorem State.hostKept_updCmd (s : State) (k : CmdKey) {f : Cmd → Cmd} (hf : ∀ c : Cmd, c.Continues (f c)) : s.HostKept (s.updCmd k f) := by
  refine ⟨rfl, fun c hc => ?_⟩
  obtain ⟨b, hb, rfl⟩ := List.mem_map.1 hc
  refine ⟨b, hb, ?_⟩
  split
  · exact hf b
  · exact .refl b

theorem State.hostKept_svcEvent (s : State) (node code payload : Nat) : s.HostKept (s.svcEvent node code payload) := State.hostKept_of_host rfl

theorem State.hostKept_setPartition (s : State) (p : Nat) (x : Partition) : s.HostKept (s.setPartition p x) := State.hostKept_of_host rfl

theorem State.hostKept_shelf (s : State) (h : Shelf) : s.HostKept { s with shelf := h } := State.hostKept_of_host rfl

theorem State.hostKept_endCmd (s : State) (k : CmdKey) (st : Status) (res : Nat) : s.HostKept (s.endCmd k st res) := by
  refine s.hostKept_updCmd k fun c => ?_
  split
  · exact ⟨rfl, rfl, nofun⟩
  · exact .refl c

/-! ### What ends a task or a RUN -/

theorem State.host_store (s : State) (a n v p : Nat) : (s.store a n v p).host = s.host :=
  (congrArg State.host (show (s.store a n v p).withMemoryOf s = s from s.sameButMemory_store a n v p) :)

theorem State.hostKept_putSession (s : State) (sid : Nat) (x : Session) : s.HostKept (s.putSession sid x) :=
  State.hostKept_of_host (State.host_store ..)

theorem State.hostKept_releasePage (s : State) (part vi : Nat) (p : Page) : s.HostKept (s.releasePage part vi p) := by
  unfold State.releasePage
  split <;> exact State.hostKept_of_host rfl

theorem State.hostKept_taskLeft (s : State) (c : Nat) (k : CmdKey) (pos : Nat) : s.HostKept (s.taskLeft c k pos) :=
  .foldl (u := { s with shelf := { s.shelf with retired :=
      (s.shelf.retired.map (fun r => { r with tasks := r.tasks.erase (c, k, pos) })).filter (fun r => !r.tasks.isEmpty) } })
    (s.hostKept_shelf _) (fun w (r : Retired) => w.hostKept_releasePage r.part r.vi r.page) _

theorem State.hostKept_runOver (s : State) (e n : Nat) : s.HostKept (s.runOver e n) := by
  unfold State.runOver
  split
  · exact .refl s
  · dsimp only
    split
    · exact .refl s
    · exact s.hostKept_putSession ..

theorem State.hostKept_finishRun (s : State) (k : CmdKey) : s.HostKept (s.finishRun k) := by
  unfold State.finishRun
  split
  · exact .refl s
  · dsimp only
    split
    · exact (s.hostKept_endCmd ..).trans (State.hostKept_runOver ..)
    · exact .refl s

theorem State.hostKept_taskOut (s : State) (c q : Nat) (t : Task) (e : TaskEnd) : s.HostKept (s.taskOut c q t e) := by
  unfold State.taskOut
  extract_lets s₁ s₂ s₃ s₄ s₅
  have hcount : s.HostKept s₄ := (State.hostKept_of_host rfl : s.HostKept s₃).trans (s₃.hostKept_updCmd _ fun _ => ⟨rfl, rfl, id⟩)
  have hleft : s.HostKept s₅ := hcount.trans (s₄.hostKept_taskLeft ..)
  split
  · exact hleft.trans (State.hostKept_of_host rfl)
  · exact hleft

theorem State.host_withdraw (s : State) (t : Nat) : (s.withdraw t).host = s.host := by
  unfold State.withdraw
  split
  · rfl
  · refine foldl_related (R := fun s u : State => u.host = s.host) (fun _ => rfl) (fun h k => k.trans h) (fun w ch => ?_) _ s
    dsimp only
    split <;> rfl

theorem State.host_stopTile (s : State) (t : TileId) (st : Status) (id : Nat) : (s.stopTile t st id).host = s.host := by
  obtain ⟨x, ws, h⟩ := s.stopTile_eq t st id
  rw [h, State.host_withdraw]
  rfl

theorem State.hostKept_stopTiles (s : State) (ts : List Nat) (st : Status) (id : Nat) : s.HostKept (s.stopTiles ts st id) := by
  refine .foldl (.refl s) (fun w t => ?_) ts
  split
  · exact State.hostKept_of_host (w.host_stopTile ..)
  · exact .refl w

theorem State.hostKept_cancelTask (s : State) (c q : Nat) (t : Task) : s.HostKept (s.cancelTask c q t) := by
  unfold State.cancelTask
  split
  · exact (s.hostKept_stopTiles ..).trans (State.hostKept_taskOut ..)
  · exact s.hostKept_taskOut ..

theorem State.hostKept_cancelRun (s : State) (k : CmdKey) : s.HostKept (s.cancelRun k) := by
  unfold State.cancelRun
  dsimp only
  refine .trans ?_ (State.hostKept_finishRun _ k)
  refine .foldl (s.hostKept_updCmd k (f := fun x => { x with tasksNot := x.tasksNot + x.items.length, items := [] }) fun _ => ⟨rfl, rfl, id⟩)
    (fun w c => ?_) _
  exact .foldl (.refl w) (fun w q => .foldl (.refl w) (fun w t => w.hostKept_cancelTask c q t) _) _

theorem Cmd.continues_fail (x : Cmd) (cal at_ pos : Nat) (st : Status) : x.Continues (x.fail cal at_ pos st) := by
  unfold Cmd.fail
  split
  · split
    · exact ⟨rfl, rfl, id⟩
    · exact .refl x
  · exact ⟨rfl, rfl, id⟩

theorem State.hostKept_failRun (s : State) (k : CmdKey) (at_ pos : Nat) (st : Status) : s.HostKept (s.failRun k at_ pos st) :=
  (s.hostKept_updCmd k (f := fun c => c.fail s.calends at_ pos st) fun c => c.continues_fail ..).trans (State.hostKept_cancelRun _ k)

/-! ### What ends an operation of the Session Shelf -/

theorem State.hostKept_noteEnd (s : State) (x : Session) (o : ShelfOp) (st : Status) : s.HostKept (s.noteEnd x o st) := by
  by_cases hx : x.state = .closed
  · rw [State.noteEnd, if_pos hx, if_pos hx]
    exact .refl s
  · rw [State.noteEnd, if_neg hx, if_neg hx]
    exact (s.hostKept_putSession ..).trans (State.hostKept_svcEvent ..)

theorem State.hostKept_failRuns (s : State) (sid : Nat) (st : Status) : s.HostKept (s.failRuns sid st) := by
  unfold State.failRuns
  split
  · exact .foldl (.refl s) (fun w k => w.hostKept_failRun k 0 0 st) _
  · exact .refl s

theorem State.hostKept_tellEnd (s : State) (o : ShelfOp) (st : Status) : s.HostKept (s.tellEnd o st) := by
  unfold State.tellEnd
  split
  · split
    · exact .refl s
    · split
      · exact (s.hostKept_updCmd _ (f := fun c => { c with reserved := true }) fun _ => ⟨rfl, rfl, id⟩).trans (State.hostKept_finishRun ..)
      · exact s.hostKept_failRun ..
  · exact s.hostKept_endCmd ..
  · exact .refl s

theorem State.hostKept_endPromo (s : State) (o : ShelfOp) (st : Status) : s.HostKept (s.endPromo o st) := by
  obtain ⟨ps, hps⟩ := (s.dropPromo o.id).foldl_releaseFrame_eq (s.session o.sid).part o.frames
  rw [State.endPromo_eq, hps]
  have hdrop : s.HostKept { s.dropPromo o.id with parts := ps } := State.hostKept_of_host rfl
  exact ((hdrop.trans (State.hostKept_noteEnd ..)).trans (State.hostKept_failRuns ..)).trans (State.hostKept_tellEnd ..)

theorem State.hostKept_publish (s : State) (o : ShelfOp) : s.HostKept (s.publish o) := by
  unfold State.publish
  split
  · exact (s.hostKept_putSession ..).trans (State.hostKept_shelf ..)
  · exact .refl s

theorem State.hostKept_settlePromo (s : State) (id : Nat) : s.HostKept (s.settlePromo id) := by
  unfold State.settlePromo
  split
  · exact .refl s
  · dsimp only
    split
    · exact (s.hostKept_publish _).trans (State.hostKept_endPromo ..)
    · exact s.hostKept_publish _

theorem State.hostKept_endDemo (s : State) (o : ShelfOp) : s.HostKept (s.endDemo o) := by
  unfold State.endDemo
  extract_lets _ s₁ x y parked was y' s₂ s₃ _ s₄
  have hqueue : s.HostKept s₁ := s.hostKept_shelf _
  have hsession : s₁.HostKept s₂ := by
    dsimp only [s₂]
    split
    · exact .refl s₁
    · exact s₁.hostKept_putSession ..
  have hevent : s₂.HostKept s₃ := by
    dsimp only [s₃]
    split
    · exact s₂.hostKept_svcEvent ..
    · exact .refl s₂
  have hcount : s₃.HostKept s₄ := by
    dsimp only [s₄]
    split
    · exact s₃.hostKept_setPartition ..
    · exact .refl s₃
  refine ((hqueue.trans hsession).trans (hevent.trans hcount)).trans ?_
  split
  · split
    · exact (s₄.hostKept_setPartition ..).trans (State.hostKept_svcEvent ..)
    · split
      · exact .refl s₄
      · exact s₄.hostKept_shelf _
  · exact s₄.hostKept_endCmd ..
  · exact .refl s₄

theorem State.hostKept_closeNow (s : State) (sid : Nat) : s.HostKept (s.closeNow sid) := by
  unfold State.closeNow
  extract_lets x s₁ y b n s₂ s₃
  have hpages : s.HostKept s₁ := by
    refine .foldl (.refl s) (fun w e => ?_) _
    split
    · exact w.hostKept_releasePage ..
    · exact .refl w
  have hclosed : s.HostKept s₃ := hpages.trans ((s₁.hostKept_setPartition ..).trans
    ((s₂.hostKept_putSession ..).trans (State.hostKept_svcEvent ..)))
  split
  · exact hclosed.trans (s₃.hostKept_endCmd ..)
  · exact hclosed

theorem State.hostKept_closeSession (s : State) (sid : Nat) (k : Option CmdKey) : s.HostKept (s.closeSession sid k) := by
  unfold State.closeSession
  extract_lets x s₁ s₂ s₃
  have hpromos : s₁.HostKept s₂ := .foldl (.refl s₁) (fun w o => w.hostKept_endPromo ..) _
  have hdemos : s₂.HostKept s₃ := .foldl (.refl s₂) (fun w o => w.hostKept_endDemo _) _
  refine ((s.hostKept_putSession ..).trans (hpromos.trans hdemos)).trans ?_
  unfold State.settleClose
  split
  · exact s₃.hostKept_closeNow sid
  · exact .refl s₃

theorem State.hostKept_queueDemo (s : State) (kind : ShelfKind) (sid : Nat) (cmd : Option CmdKey) : s.HostKept (s.queueDemo kind sid cmd) :=
  State.hostKept_of_host rfl

/-- RESET_POLICY keeps the registers of the VIs, and brings no command (R369). -/
theorem State.hostKept_applyResetPolicy (s : State) (v : Nat) : s.HostKept (s.applyResetPolicy v) := by
  unfold State.applyResetPolicy
  extract_lets sids
  split
  · exact .foldl (.refl s) (fun w sid => w.hostKept_closeSession ..) _
  · refine .foldl (.refl s) (fun w sid => ?_) _
    extract_lets _ w₁ w₂ x
    have hsettled : w.HostKept w₂ := .foldl (w.hostKept_shelf w₁.shelf) (fun w (o : ShelfOp) => w.hostKept_settlePromo o.id) _
    refine hsettled.trans ?_
    split
    · exact (w₂.hostKept_putSession sid x).trans (State.hostKept_queueDemo ..)
    · exact w₂.hostKept_putSession sid x

/-! ### What ends a request (R280, R297) -/

theorem host_flushTincs (t : TileId) (s : State) : (flushTincs t s).host = s.host := by
  obtain ⟨net, ws, h⟩ := flushTincs_eq t s
  rw [h]
  rfl

theorem State.host_landPiece (s : State) (t : TileId) (tr : Transfer) (p : Piece) (d : Loaded) : (s.landPiece t tr p d).1.host = s.host := by
  unfold State.landPiece
  dsimp only
  split
  · exact s.host_store ..
  · exact s.host_store ..

theorem State.host_poisonPiece (s : State) (t : TileId) (tr : Transfer) (p : Piece) : (s.poisonPiece t tr p).host = s.host :=
  State.host_store ..

theorem host_pieceEnd (t : TileId) (seq : Nat) (p : Piece) (st : Status) (d : Loaded) (s : State) : (pieceEnd t seq p st d s).host = s.host := by
  unfold pieceEnd
  split
  · rfl
  next tr _ =>
    split
    next w tr' hland =>
      dsimp only
      rw [host_flushTincs]
      have hhost : w.host = _ := (congrArg (fun x : State × Transfer => x.1.host) hland).symm
      refine hhost.trans ?_
      split
      · split
        · rfl
        · exact s.host_landPiece ..
      · split
        · exact s.host_poisonPiece ..
        · rfl

theorem host_drainRowEnd (t : TileId) (seq : Nat) (st : Status) (s : State) : (drainRowEnd t seq st s).host = s.host := by
  unfold drainRowEnd
  dsimp only
  split
  · split
    · rfl
    · rfl
  · rfl

theorem State.host_ceCount (s : State) (e w n : Nat) : (s.ceCount e w n).host = s.host := (s.sameButEngine_ceCount e w n).host

theorem State.host_settleCopy (s : State) (e q : Nat) (d : CopyDesc) : (s.settleCopy e q d).host = s.host := by
  unfold State.settleCopy
  split
  · exact (s.sameButEngine_completeCopy ..).host
  · rfl

theorem host_copyReadEnd (e q id pos len issue : Nat) (st : Status) (data : Loaded) (lat : Nat) (s : State) :
    (copyReadEnd e q id pos len issue st data lat s).host = s.host := by
  unfold copyReadEnd
  dsimp only
  split
  · rfl
  · split
    · exact s.host_settleCopy ..
    · split
      · exact (State.host_settleCopy ..).trans (s.host_ceCount ..)
      · exact (State.host_settleCopy ..).trans (s.host_ceCount ..)

theorem host_copyWriteEnd (e q id len issue bad : Nat) (st : Status) (s : State) :
    (copyWriteEnd e q id len issue bad st s).host = s.host := by
  unfold copyWriteEnd
  dsimp only
  split
  · rfl
  · split
    · exact s.host_settleCopy ..
    · rw [State.host_settleCopy]
      split
      · rw [State.host_ceCount, State.host_ceCount, State.host_ceCount]
      · rw [State.host_ceCount, State.host_ceCount]

theorem State.host_farRespond (s : State) (n : Nat) (p : Packet) (st : Status) (v poison : Nat) : (s.farRespond n p st v poison).host = s.host := rfl

theorem State.host_freeSlots (s : State) (n k : Nat) : (s.freeSlots n k).host = s.host := rfl

theorem State.host_netError (s : State) (k c : Nat) : (s.netError k c).host = s.host := rfl

theorem State.host_farTake (s : State) (n k : Nat) : (s.farTake n k).host = s.host := by
  induction k generalizing s with
  | zero => rfl
  | succ k ih =>
    unfold State.farTake
    extract_lets x
    split
    · rfl
    next p rest _ =>
      have hfree : ∀ y m, ((s.setPort n y).freeSlots n m).host = s.host := fun _ _ => rfl
      split
      · rfl
      · extract_lets fl t
        split
        · rw [ih, State.host_netError, hfree]
        · split
          · rw [ih, State.host_farRespond, hfree]
          · split
            · rw [ih, State.host_farRespond, hfree]
            · split
              · rw [ih, State.host_farRespond, hfree]
              · split
                · rfl
                · rw [ih, State.setInitiator_host, hfree]

theorem host_farEnd (n linkTag : Nat) (st : Status) (v poison : Nat) (s : State) : (farEnd n linkTag st v poison s).host = s.host := by
  have hpulled : (s.farPulled n linkTag).host = s.host := by
    unfold State.farPulled
    dsimp only
    split <;> rfl
  unfold farEnd
  dsimp only
  split
  · rfl
  · exact (State.host_farTake ..).trans hpulled

/-- The end of a part of an access of the host is told to the host, and no VI and no command takes part in it. -/
theorem State.hostKept_hostPartEnd (s : State) (id a : Nat) (st : Status) (v poison : Nat) : s.HostKept (s.hostPartEnd id a st v poison) := by
  have hdone : ∀ x, s.HostKept (s.hostAccessDone x) := fun x => by
    unfold State.hostAccessDone
    dsimp only
    split
    · split <;> exact ⟨rfl, fun c hc => ⟨c, hc, .refl c⟩⟩
    · split <;> exact ⟨rfl, fun c hc => ⟨c, hc, .refl c⟩⟩
  unfold State.hostPartEnd
  split
  · exact .refl s
  · extract_lets x
    split
    · exact hdone _
    · exact ⟨rfl, fun c hc => ⟨c, hc, .refl c⟩⟩

theorem State.hostKept_purposeEnd (s : State) (n : Nat) (p : Packet) (why : Purpose) (st : Status) (d : Loaded) (lat : Nat) :
    s.HostKept (s.purposeEnd n p why st d lat) := by
  unfold State.purposeEnd
  split
  · split
    · exact State.hostKept_of_host (host_pieceEnd ..)
    · exact .refl s
  · split
    · exact State.hostKept_of_host (host_drainRowEnd ..)
    · exact .refl s
  · exact State.hostKept_of_host (host_copyReadEnd ..)
  · exact State.hostKept_of_host (host_copyWriteEnd ..)
  · exact State.hostKept_of_host (host_farEnd ..)
  · exact s.hostKept_hostPartEnd ..
  · exact .refl s

theorem State.hostKept_endRequest (s : State) (n : Nat) (r : Req) (st : Status) (d : Loaded) : s.HostKept (s.endRequest n r st d) := by
  unfold State.endRequest
  extract_lets i s₁ read lat s₂ s₃ s₄
  have hcount : s₃.host = s.host := by
    dsimp only [s₃, s₂]
    split <;> split <;> rfl
  have hevent : s₄.host = s.host := by
    dsimp only [s₄]
    split
    · exact (State.host_nodeEvent ..).trans hcount
    · exact hcount
  exact (State.hostKept_of_host hevent).trans (State.hostKept_purposeEnd ..)

theorem State.hostKept_timeOut (s : State) (n : Nat) (r : Req) : s.HostKept (s.timeOut n r) := by
  unfold State.timeOut
  extract_lets i s₁ s₂
  have hnoted : s₂.host = s.host := (s₁.netCount n 24 1).host_nodeEvent ..
  exact (State.hostKept_of_host hnoted).trans (s₂.hostKept_endRequest ..)

/-! ### The end of a VI reset (R367 to R369, R403) -/

/-- A VI with its rings and completion queue disabled and empty. -/
structure Vi.RingsEmpty (x : Vi) : Prop where
  cqEnable : x.cqEnable = false
  cqHead : x.cqHead = 0
  cqTail : x.cqTail = 0
  rings : ∀ r, (Sparse.get {} x.rings r).enable = false ∧ (Sparse.get {} x.rings r).head = 0 ∧ (Sparse.get {} x.rings r).tail = 0

/-- The rings and the completion queue of two VIs are the same, and so is whether they are RESETTING. -/
structure Vi.SameRings (x y : Vi) : Prop where
  resetting : y.resetting = x.resetting
  cqEnable : y.cqEnable = x.cqEnable
  cqHead : y.cqHead = x.cqHead
  cqTail : y.cqTail = x.cqTail
  rings : y.rings = x.rings

theorem Vi.SameRings.ringsEmpty {x y : Vi} (h : x.SameRings y) (k : x.RingsEmpty) : y.RingsEmpty :=
  ⟨h.cqEnable.trans k.cqEnable, h.cqHead.trans k.cqHead, h.cqTail.trans k.cqTail, by rw [h.rings]; exact k.rings⟩

theorem State.raiseVector_cases (s : State) (v i : Nat) :
    s.raiseVector v i = s ∨ (∃ pba, s.raiseVector v i = s.setVi v { s.vi v with pba := pba }) ∨ ∃ o, s.raiseVector v i = s.toHost o := by
  unfold State.raiseVector
  extract_lets x
  split
  · exact .inl rfl
  · split
    · exact .inr (.inl ⟨_, rfl⟩)
    · exact .inr (.inr ⟨_, rfl⟩)

/-- The raising of a vector or an event of VI `v`: other VIs and the commands are as before, and the VI keeps its rings. -/
structure State.Raised (s : State) (v : Nat) (u : State) : Prop where
  own : (s.vi v).SameRings (u.vi v)
  others : ∀ w, w ≠ v → u.vi w = s.vi w
  cmds : u.host.cmds = s.host.cmds

theorem State.Raised.refl (s : State) (v : Nat) : s.Raised v s := ⟨⟨rfl, rfl, rfl, rfl, rfl⟩, fun _ _ => rfl, rfl⟩

theorem State.raised_setVi {s : State} {v : Nat} {x : Vi} (h : (s.vi v).SameRings x) : s.Raised v (s.setVi v x) :=
  ⟨by rwa [State.vi_setVi_self], fun _ hw => State.vi_setVi_of_ne _ _ hw.symm, rfl⟩

theorem State.Raised.trans {s u w : State} {v : Nat} (h : s.Raised v u) (k : u.Raised v w) : s.Raised v w := by
  refine ⟨⟨?_, ?_, ?_, ?_, ?_⟩, fun j hj => (k.others j hj).trans (h.others j hj), k.cmds.trans h.cmds⟩
  · exact k.own.resetting.trans h.own.resetting
  · exact k.own.cqEnable.trans h.own.cqEnable
  · exact k.own.cqHead.trans h.own.cqHead
  · exact k.own.cqTail.trans h.own.cqTail
  · exact k.own.rings.trans h.own.rings

theorem State.raised_raiseVector (s : State) (v i : Nat) : s.Raised v (s.raiseVector v i) ∧ ((s.raiseVector v i).vi v).fnEvents = (s.vi v).fnEvents := by
  obtain h | ⟨pba, h⟩ | ⟨o, h⟩ := s.raiseVector_cases v i
  · rw [h]
    exact ⟨.refl s v, rfl⟩
  · rw [h]
    exact ⟨State.raised_setVi ⟨rfl, rfl, rfl, rfl, rfl⟩, by rw [State.vi_setVi_self]⟩
  · rw [h]
    exact ⟨⟨⟨rfl, rfl, rfl, rfl, rfl⟩, fun _ _ => rfl, rfl⟩, rfl⟩

theorem State.raised_fnEvent (s : State) (v : Nat) : s.Raised v (s.fnEvent v 0) ∧ ((s.fnEvent v 0).vi v).fnEvents.getLsbD 0 = true := by
  unfold State.fnEvent
  extract_lets x w
  split
  next hset => exact ⟨.refl s v, hset⟩
  next =>
    have hw : s.Raised v w := State.raised_setVi ⟨rfl, rfl, rfl, rfl, rfl⟩
    have hbit : (w.vi v).fnEvents.getLsbD 0 = true := by
      rw [State.vi_setVi_self]
      simp
    split
    · exact ⟨hw, hbit⟩
    · obtain ⟨hraised, hevents⟩ := w.raised_raiseVector v 31
      exact ⟨hw.trans hraised, by rw [hevents, hbit]⟩

/-- A VI whose reset has ended: its rings are disabled and empty, none of its commands is left, and its event says so. -/
structure State.ViResetEnded (s : State) (v : Nat) (u : State) : Prop where
  resetting : (u.vi v).resetting = none
  rings : (u.vi v).RingsEmpty
  cmds : ∀ c ∈ u.host.cmds, c.key.vi ≠ v
  event : (u.vi v).fnEvents.getLsbD 0 = true
  others : ∀ w, w ≠ v → u.vi w = s.vi w

theorem State.viResetEnded_endViReset (s : State) (v : Nat) : s.ViResetEnded v (s.endViReset v) := by
  unfold State.endViReset
  extract_lets x t0 rings s₁ _ s₂
  have hempty : (s₂.vi v).RingsEmpty := by
    show ((s.setVi v _).vi v).RingsEmpty
    rw [State.vi_setVi_self]
    refine ⟨rfl, rfl, rfl, fun r => ?_⟩
    rw [show Sparse.get {} rings r = _ from Sparse.get_map (f := fun g : Ring => { g with enable := false, head := 0, tail := 0, fetch := none }) rfl x.rings r]
    exact ⟨rfl, rfl, rfl⟩
  have hresetting : (s₂.vi v).resetting = none := by
    show ((s.setVi v _).vi v).resetting = none
    rw [State.vi_setVi_self]
  have hgone : ∀ c ∈ s₂.host.cmds, c.key.vi ≠ v := fun c hc => by simpa using (List.mem_filter.1 hc).2
  obtain ⟨hraised, hevent⟩ := (s₂.svcEvent mgmtNode 0x27 v).raised_fnEvent v
  have hpolicy := ((s₂.svcEvent mgmtNode 0x27 v).fnEvent v 0).hostKept_applyResetPolicy v
  refine ⟨?_, ?_, fun c hc => ?_, ?_, fun w hw => ?_⟩
  · rw [hpolicy.vi, hraised.own.resetting]
    exact hresetting
  · rw [hpolicy.vi]
    exact hraised.own.ringsEmpty hempty
  · obtain ⟨b, hb, hcb⟩ := hpolicy.cmds c hc
    rw [hcb.key]
    exact hgone b (hraised.cmds ▸ hb)
  · rw [hpolicy.vi, hevent]
  · rw [hpolicy.vi, hraised.others w hw]
    exact State.vi_setVi_of_ne s _ hw.symm

theorem exec_viResetComplete_of_done {v : ViId} {s : State} (hreset : (s.vi v.val).resetting.isSome = true) (hreqs : s.viRequests v.val = [])
    (htasks : s.viDispatched v.val = false) : exec (.viResetComplete v) s = .next (s.endViReset v.val) :=
  if_pos (by simp [hreset, hreqs, htasks])

theorem exec_viResetComplete_of_waiting {v : ViId} {s : State} (h : s.viRequests v.val ≠ [] ∨ s.viDispatched v.val = true) :
    exec (.viResetComplete v) s = .next s :=
  if_neg fun hdone => by
    obtain ⟨-, hreqs, htasks⟩ := hdone
    obtain hreqs' | htasks' := h
    · exact hreqs' hreqs
    · simp [htasks'] at htasks

/-- The state with the requests of a VI forced to TIMEOUT. -/
def State.forcedOut (s : State) (v : Nat) : State := (s.viOutstanding v).foldl (fun s r => s.timeOut r.1 r.2) s

theorem State.hostKept_forcedOut (s : State) (v : Nat) : s.HostKept (s.forcedOut v) :=
  .foldl (.refl s) (fun w (r : Nat × Req) => w.hostKept_timeOut r.1 r.2) _

theorem exec_viResetForce_of_resetting {v : ViId} {s : State} (hreset : (s.vi v.val).resetting.isSome = true) :
    exec (.viResetForce v) s = .next ((s.forcedOut v.val).endViReset v.val) :=
  if_neg (by rw [Option.isSome_iff_ne_none] at hreset; simpa using hreset)

theorem exec_of_not_resetting {v : ViId} {s : State} (h : (s.vi v.val).resetting = none) :
    exec (.viResetForce v) s = .next s ∧ exec (.viResetComplete v) s = .next s ∧ exec (.viTileScrub v) s = .next s :=
  ⟨if_pos (by simp [h]), if_neg (by simp [h]), if_pos (by simp [h])⟩

/-- A fold passes each element of its list between two states: one that its earlier steps reach, and one from which its later steps go on. -/
theorem foldl_around {σ α : Type} {R : σ → σ → Prop} (hrefl : ∀ s, R s s) (htrans : ∀ {s u v}, R s u → R u v → R s v)
    {f : σ → α → σ} (hf : ∀ s e, R s (f s e)) {l : List α} {e : α} (he : e ∈ l) (s : σ) : ∃ w, R s w ∧ R (f w e) (l.foldl f s) := by
  obtain ⟨l₁, l₂, rfl⟩ := List.append_of_mem he
  rw [List.foldl_append, List.foldl_cons]
  exact ⟨_, foldl_related hrefl htrans hf l₁ s, foldl_related hrefl htrans hf l₂ _⟩

/-! ### The tasks and copies of a VI whose reset starts (R367, steps 1 to 3) -/

/-- A tile issues no more. -/
def State.stopIssueAt (s : State) (t : Nat) : State :=
  if h : t < 4096 then s.setTile ⟨t, h⟩ { s.tile ⟨t, h⟩ with stopped := true } else s

/-- The tiles of a list issue no more. -/
def State.stopIssue (s : State) (ts : List Nat) : State := ts.foldl State.stopIssueAt s

/-- Step 2 of R367 for one task. -/
def State.viCancelTask (s : State) (c : Nat) (e : Nat × Task) : State :=
  if e.2.phase = .dispatched then s.stopIssue (taskTiles c e.2.desc) else s.taskOut c e.1 e.2 .cancelled

/-- Step 2 of R367 in one cluster. -/
def State.viCancelIn (v : Nat) (s : State) (c : Nat) : State := (s.viTasks v c).foldl (fun s e => s.viCancelTask c e) s

theorem State.viCancelTasks_eq (s : State) (v : Nat) : s.viCancelTasks v = (List.range 8).foldl (State.viCancelIn v) s := rfl

theorem Sparse.mem_of_get {α : Type} (d : α) (m : Sparse α) (k : Nat) : Sparse.get d m k = d ∨ (k, Sparse.get d m k) ∈ m := by
  induction m with
  | nil => exact .inl rfl
  | cons x r ih =>
    obtain ⟨j, a⟩ := x
    rw [Sparse.get]
    split
    next hjk =>
      subst hjk
      exact .inr List.mem_cons_self
    next => exact ih.imp_right (List.mem_cons_of_mem _)

theorem State.mem_viTasks {s : State} {v c q : Nat} {t : Task} (ht : t ∈ s.queue c q) (hv : t.cmd.vi = v) : (q, t) ∈ s.viTasks v c := by
  have hqueue : (q, s.queue c q) ∈ (s.seq c).queues := by
    refine (Sparse.mem_of_get [] (s.seq c).queues q).resolve_left fun hempty => ?_
    rw [State.queue, hempty] at ht
    exact List.not_mem_nil ht
  exact List.mem_flatMap.2 ⟨_, hqueue, List.mem_map.2 ⟨t, List.mem_filter.2 ⟨ht, by simpa using hv⟩, rfl⟩⟩

/-- No task comes to a queue, and a tile that issues no more goes on so. -/
structure State.TasksStop (s u : State) : Prop where
  noNew : s.NoNewTasks u
  stopped : ∀ i, (s.tile i).stopped = true → (u.tile i).stopped = true

theorem State.TasksStop.refl (s : State) : s.TasksStop s := ⟨.refl s, fun _ h => h⟩

theorem State.TasksStop.trans {s u v : State} (h : s.TasksStop u) (k : u.TasksStop v) : s.TasksStop v :=
  ⟨h.noNew.trans k.noNew, fun i hi => k.stopped i (h.stopped i hi)⟩

theorem State.SameUnits.tasksStop {s u : State} (h : s.SameUnits u) : s.TasksStop u :=
  ⟨h.noNewTasks, fun i hi => by rwa [h.tile]⟩

theorem State.tasksStop_setTile (s : State) {i : TileId} {x : Tile} (hx : x.stopped = true) : s.TasksStop (s.setTile i x) := by
  refine ⟨⟨rfl, fun _ _ _ ht => ht⟩, fun j hj => ?_⟩
  by_cases hij : i = j
  · rw [← hij, State.tile_setTile_self, hx]
  · rwa [State.tile_setTile_of_ne _ _ hij]

theorem State.stopIssueAt_of_tile (s : State) (i : TileId) : s.stopIssueAt i.val = s.setTile i { s.tile i with stopped := true } := dif_pos i.isLt

theorem State.tasksStop_stopIssueAt (s : State) (t : Nat) : s.TasksStop (s.stopIssueAt t) := by
  unfold State.stopIssueAt
  split
  · exact s.tasksStop_setTile rfl
  · exact .refl s

theorem State.tasksStop_stopIssue (s : State) (ts : List Nat) : s.TasksStop (s.stopIssue ts) :=
  foldl_related .refl .trans State.tasksStop_stopIssueAt ts s

theorem State.stopped_stopIssue (s : State) {ts : List Nat} {i : TileId} (hi : i.val ∈ ts) : ((s.stopIssue ts).tile i).stopped = true := by
  obtain ⟨w, -, hrest⟩ := foldl_around (R := State.TasksStop) .refl .trans State.tasksStop_stopIssueAt hi s
  rw [State.stopIssue]
  refine hrest.stopped i ?_
  rw [State.stopIssueAt_of_tile, State.tile_setTile_self]

theorem State.tasksStop_viCancelTask (s : State) (c : Nat) (e : Nat × Task) : s.TasksStop (s.viCancelTask c e) := by
  unfold State.viCancelTask
  split
  · exact s.tasksStop_stopIssue _
  · refine ⟨s.noNewTasks_taskOut .., fun i hi => ?_⟩
    rwa [State.tile, State.taskOut_tiles]

theorem State.tasksStop_viCancelIn (v : Nat) (s : State) (c : Nat) : s.TasksStop (State.viCancelIn v s c) :=
  foldl_related .refl .trans (fun w e => w.tasksStop_viCancelTask c e) (s.viTasks v c) s

/-- The tasks of a VI that step 2 of R367 leaves in the queues are DISPATCHED, and their tiles issue no more. -/
def State.OnlyStopped (s : State) (v : Nat) : Prop :=
  ∀ c < 8, ∀ q, ∀ t ∈ s.queue c q, t.cmd.vi = v → t.phase = .dispatched ∧ ∀ i : TileId, i.val ∈ taskTiles c t.desc → (s.tile i).stopped = true

theorem State.OnlyStopped.mono {s u : State} {v : Nat} (h : s.OnlyStopped v) (k : s.TasksStop u) : u.OnlyStopped v := by
  intro c hc q t ht hv
  obtain ⟨hphase, hstopped⟩ := h c hc q t (k.noNew.tasks c q t ht) hv
  exact ⟨hphase, fun i hi => k.stopped i (hstopped i hi)⟩

theorem State.onlyStopped_viCancelTasks (s : State) (v : Nat) : (s.viCancelTasks v).OnlyStopped v := by
  intro c hc q t ht hv
  rw [State.viCancelTasks_eq] at ht ⊢
  obtain ⟨w, -, hlater⟩ := foldl_around (R := State.TasksStop) .refl .trans (State.tasksStop_viCancelIn v) (List.mem_range.2 hc) s
  have hmem := State.mem_viTasks ((State.tasksStop_viCancelIn v w c).noNew.tasks c q t (hlater.noNew.tasks c q t ht)) hv
  obtain ⟨x, -, hrest⟩ := foldl_around (R := State.TasksStop) .refl .trans (fun w e => w.tasksStop_viCancelTask c e) hmem w
  have hleft := hrest.trans hlater
  by_cases hphase : t.phase = .dispatched
  · refine ⟨hphase, fun i hi => hleft.stopped i ?_⟩
    rw [State.viCancelTask, if_pos hphase]
    exact x.stopped_stopIssue hi
  · have hthere : t ∈ (x.viCancelTask c (q, t)).queue c q := hleft.noNew.tasks c q t ht
    rw [State.viCancelTask, if_neg hphase] at hthere
    exact absurd rfl (State.task_eq_none_iff.1 (State.task_taskOut_self x c q t .cancelled) t hthere)

theorem State.hostKept_viCancelTask (s : State) (c : Nat) (e : Nat × Task) : s.HostKept (s.viCancelTask c e) := by
  unfold State.viCancelTask
  split
  · refine .foldl (.refl s) (fun w t => ?_) _
    unfold State.stopIssueAt
    split
    · exact State.hostKept_of_host rfl
    · exact .refl w
  · exact s.hostKept_taskOut ..

theorem State.hostKept_viCancelTasks (s : State) (v : Nat) : s.HostKept (s.viCancelTasks v) := by
  rw [State.viCancelTasks_eq]
  exact .foldl (.refl s) (fun w c => .foldl (.refl w) (fun w e => w.hostKept_viCancelTask c e) _) _

/-- Two states that differ in the copy engines, and in rings of the service nodes, alone. -/
def State.SameButEngines (s u : State) : Prop := u.withEnginesOf s = s

theorem State.SameButEngines.refl (s : State) : s.SameButEngines s := rfl

theorem State.SameButEngines.trans {s u v : State} (h : s.SameButEngines u) (k : u.SameButEngines v) : s.SameButEngines v :=
  (congrArg (·.withEnginesOf s) k : (v.withEnginesOf u).withEnginesOf s = u.withEnginesOf s).trans h

theorem State.SameButEngines.sameUnits {s u : State} (h : s.SameButEngines u) : s.SameUnits u :=
  ⟨(congrArg State.tiles (show u.withEnginesOf s = s from h) :), (congrArg State.seqs (show u.withEnginesOf s = s from h) :),
    (congrArg State.calends (show u.withEnginesOf s = s from h) :)⟩

theorem State.SameButEngines.host {s u : State} (h : s.SameButEngines u) : u.host = s.host :=
  (congrArg State.host (show u.withEnginesOf s = s from h) :)

theorem State.sameButEngines_settleCopy (s : State) (e q : Nat) (d : CopyDesc) : s.SameButEngines (s.settleCopy e q d) := by
  unfold State.settleCopy
  split
  · exact (s.sameButEngine_completeCopy ..).same
  · exact (s.sameButEngine_setCopy ..).same

/-- Step 3 of R367 at one engine. -/
def State.voidCopiesAt (v : Nat) (s : State) (e : Nat) : State :=
  ((s.engine e).queue (2 + v)).foldl (fun s d => s.settleCopy e (2 + v) { d with voided := true }) s

/-- The state without the copies of a VI that wait for a queue. -/
def State.dropWaiting (s : State) (v : Nat) : State :=
  { s with copyWait := s.copyWait.filter (fun d => !(d.vi = v && d.owner.queue v = 2 + v)) }

theorem State.viVoidCopies_eq (s : State) (v : Nat) : s.viVoidCopies v = (List.range 16).foldl (State.voidCopiesAt v) (s.dropWaiting v) := rfl

theorem State.sameButEngines_viVoidCopies (s : State) (v : Nat) : (s.dropWaiting v).SameButEngines (s.viVoidCopies v) := by
  rw [State.viVoidCopies_eq]
  refine foldl_related .refl .trans (fun w e => ?_) (List.range 16) (s.dropWaiting v)
  exact foldl_related .refl .trans (fun w d => w.sameButEngines_settleCopy e (2 + v) _) _ w

/-- Command `c` as the reset of its VI in cycle `cal` leaves it: a RUN goes on until its tasks have ended, and another command ends VI_RESET. -/
def Cmd.atViReset (c : Cmd) (cal : Nat) : Cmd :=
  let c := { c with cancelled := some .viReset, tasksNot := c.tasksNot + c.items.length, items := [] }
  if entryOp c.entry = 1 ∧ c.phase = .running then c else { c with phase := .ended, status := .viReset, tEnd := cal }

theorem Cmd.not_running_atViReset (c : Cmd) (cal : Nat) : (c.atViReset cal).phase ≠ .running ∨ entryOp (c.atViReset cal).entry = 1 := by
  unfold Cmd.atViReset
  dsimp only
  split
  next hrun => exact .inr hrun.1
  next => exact .inl nofun

/-- Step 1 of R367, with the commands and loads of the VI. -/
def State.beginViReset (s : State) (v : Nat) : State :=
  let u := s.setVi v { s.vi v with resetting := some s.calends, rings := (s.vi v).rings.map (fun r => (r.1, { r.2 with fetch := none })) }
  { u with
    host := { u.host with cmds := s.host.cmds.map (fun c => if c.key.vi ≠ v then c else c.atViReset s.calends) }
    loads := s.loads.filter (fun l => l.key.vi ≠ v) }

/-- Steps 2 and 3 of R367. -/
def State.stopVi (s : State) (v : Nat) : State := (s.viCancelTasks v).viVoidCopies v

theorem State.hostKept_viVoidCopies (s : State) (v : Nat) : s.HostKept (s.viVoidCopies v) := by
  have hdrop : (s.dropWaiting v).host = s.host := rfl
  exact State.hostKept_of_host ((s.sameButEngines_viVoidCopies v).host.trans hdrop)

theorem State.sameUnits_viVoidCopies (s : State) (v : Nat) : s.SameUnits (s.viVoidCopies v) := by
  have hdrop : s.SameUnits (s.dropWaiting v) := ⟨rfl, rfl, rfl⟩
  exact hdrop.trans (s.sameButEngines_viVoidCopies v).sameUnits

theorem State.hostKept_stopVi (s : State) (v : Nat) : s.HostKept (s.stopVi v) := by
  rw [State.stopVi]
  exact (s.hostKept_viCancelTasks v).trans (State.hostKept_viVoidCopies ..)

theorem State.onlyStopped_stopVi (s : State) (v : Nat) : (s.stopVi v).OnlyStopped v := by
  rw [State.stopVi]
  exact (s.onlyStopped_viCancelTasks v).mono (State.sameUnits_viVoidCopies ..).tasksStop

/-- The RUNs of a VI whose tasks have all ended end. -/
def State.finishRuns (s : State) (v : Nat) : State := (s.host.cmds.filter (fun c => c.key.vi = v)).foldl (fun s c => s.finishRun c.key) s

theorem State.hostKept_finishRuns (s : State) (v : Nat) : s.HostKept (s.finishRuns v) :=
  .foldl (.refl s) (fun w (c : Cmd) => w.hostKept_finishRun c.key) _

theorem State.sameUnits_finishRuns (s : State) (v : Nat) : s.SameUnits (s.finishRuns v) :=
  foldl_related .refl .trans (fun w (c : Cmd) => w.sameUnits_finishRun c.key) _ s

theorem State.startViReset_of_clear {s : State} {v : Nat} (hreset : (s.vi v).resetting = none) (habsorbs : s.absorbs (s.viPart v) = false) :
    s.startViReset v = ((s.beginViReset v).stopVi v).finishRuns v := by
  unfold State.startViReset
  extract_lets x rings s₁ _ s₂ s₃
  rw [if_neg (by simp [x, hreset]), if_neg (by simp [habsorbs])]
  have hbegin : s₂ = s.beginViReset v := rfl
  have hstop : s₃ = (s.beginViReset v).stopVi v := by rw [State.stopVi, ← hbegin]
  rw [hstop, State.finishRuns]

/-- What the start of a VI reset leaves (R367, steps 1 to 3). -/
structure State.ViResetStarted (s : State) (v : Nat) (u : State) : Prop where
  resetting : (u.vi v).resetting = some s.calends
  others : ∀ w, w ≠ v → u.vi w = s.vi w
  cmds : ∀ c ∈ u.host.cmds, c.key.vi = v → c.phase ≠ .running ∨ entryOp c.entry = 1
  tasks : u.OnlyStopped v

theorem State.viResetStarted_beginViReset (s : State) (v : Nat) :
    ((s.beginViReset v).vi v).resetting = some s.calends ∧ (∀ w, w ≠ v → (s.beginViReset v).vi w = s.vi w) ∧
    ∀ c ∈ (s.beginViReset v).host.cmds, c.key.vi = v → c.phase ≠ .running ∨ entryOp c.entry = 1 := by
  refine ⟨congrArg Vi.resetting (State.vi_setVi_self s v _), fun w hw => State.vi_setVi_of_ne s _ hw.symm, fun c hc hv => ?_⟩
  obtain ⟨b, -, hb⟩ := List.mem_map.1 hc
  rw [← hb] at hv ⊢
  split at hv
  next hne => exact absurd hv hne
  next hv' =>
    rw [if_neg hv']
    exact b.not_running_atViReset s.calends

theorem State.viResetStarted_startViReset {s : State} {v : Nat} (hreset : (s.vi v).resetting = none)
    (habsorbs : s.absorbs (s.viPart v) = false) : s.ViResetStarted v (s.startViReset v) := by
  rw [State.startViReset_of_clear hreset habsorbs]
  obtain ⟨hresetting, hothers, hcmds⟩ := s.viResetStarted_beginViReset v
  have hkept := ((s.beginViReset v).hostKept_stopVi v).trans (State.hostKept_finishRuns _ v)
  refine ⟨by rw [hkept.vi, hresetting], fun w hw => by rw [hkept.vi, hothers w hw], fun c hc hv => ?_,
    ((s.beginViReset v).onlyStopped_stopVi v).mono (State.sameUnits_finishRuns _ v).tasksStop⟩
  obtain ⟨b, hb, hcb⟩ := hkept.cmds c hc
  obtain hstill | hrun := hcmds b hb (hcb.key ▸ hv)
  · exact .inl (mt hcb.running hstill)
  · exact .inr (hcb.entry ▸ hrun)

/-! ### VI_TILE_SCRUB (R367, steps 4 and 5) -/

/-- The program that the sequencer of a tile's cluster holds for it. -/
def State.heldProgram (s : State) (i : TileId) : Option (Nat × Nat) := Sparse.get none (s.seq (clusterOfTile i.val)).programs i.val

theorem State.SameUnits.heldProgram {s u : State} (h : s.SameUnits u) (i : TileId) : u.heldProgram i = s.heldProgram i := by
  rw [State.heldProgram, State.heldProgram, h.seq]

/-- A sequencer that keeps the program of a tile keeps it held. -/
theorem State.heldProgram_setSeq (s : State) (c : Nat) {x : Sequencer} {i : TileId}
    (h : Sparse.get none x.programs i.val = Sparse.get none (s.seq c).programs i.val) : (s.setSeq c x).heldProgram i = s.heldProgram i := by
  rw [State.heldProgram, State.heldProgram]
  by_cases hc : c = clusterOfTile i.val
  · rw [← hc, State.seq_setSeq_self, h]
  · rw [State.seq_setSeq_of_ne _ _ hc]

theorem State.heldProgram_holdProgram_self (s : State) (t : TileId) (p : Option (Nat × Nat)) :
    (s.holdProgram (clusterOfTile t.val) [t.val] p).heldProgram t = p := by
  rw [State.heldProgram, State.holdProgram, State.seq_setSeq_self]
  exact Sparse.get_set_self none (s.seq (clusterOfTile t.val)).programs t.val p

theorem State.heldProgram_holdProgram_of_ne (s : State) (c : Nat) {t i : TileId} (h : i ≠ t) (p : Option (Nat × Nat)) :
    (s.holdProgram c [t.val] p).heldProgram i = s.heldProgram i :=
  s.heldProgram_setSeq c (Sparse.get_set_of_ne none (s.seq c).programs p fun hti => h (Fin.ext hti.symm))

theorem State.queue_holdProgram (s : State) (c : Nat) (ts : List Nat) (p : Option (Nat × Nat)) (d q : Nat) :
    (s.holdProgram c ts p).queue d q = s.queue d q :=
  s.queue_setSeq_of_ne fun hc => by rw [← hc]

/-- A tile without task, program and transfer. -/
structure State.Cleared (s : State) (i : TileId) : Prop where
  task : (s.tile i).task = none
  progLen : (s.tile i).progLen = 0
  xfers : (s.tile i).xfers = []
  program : s.heldProgram i = none

theorem State.Cleared.of_same {s u : State} {i : TileId} (h : s.Cleared i) (htile : u.tile i = s.tile i) (hprogram : u.heldProgram i = s.heldProgram i) :
    u.Cleared i :=
  ⟨by rw [htile, h.task], by rw [htile, h.progLen], by rw [htile, h.xfers], by rw [hprogram, h.program]⟩

/-- The end of one tile's work: other tiles keep theirs, and the queues stay. -/
structure State.TileStopped (s : State) (t : TileId) (u : State) : Prop where
  task : (u.tile t).task = none
  tiles : ∀ i, i ≠ t → u.tile i = s.tile i
  programs : ∀ i, i ≠ t → u.heldProgram i = s.heldProgram i
  queues : ∀ c q, u.queue c q = s.queue c q
  calends : u.calends = s.calends

theorem State.tileStopped_stopTile (s : State) (t : TileId) (st : Status) (id : Nat) : s.TileStopped t (s.stopTile t st id) := by
  unfold State.stopTile
  extract_lets x x₁ x₂ s₁ c _ s₂
  have hunits := s₂.sameUnits_withdraw t.val
  have htile : ∀ i, s₂.tile i = (s.setTile t x₂).tile i := fun i => rfl
  refine ⟨?_, fun i hi => ?_, fun i _ => ?_, fun d q => ?_, hunits.calends⟩
  · rw [hunits.tile, htile, State.tile_setTile_self]
    rfl
  · rw [hunits.tile, htile, State.tile_setTile_of_ne _ _ hi.symm]
  · rw [hunits.heldProgram]
    exact s₁.heldProgram_setSeq c rfl
  · rw [hunits.queue]
    exact s₁.queue_setSeq_of_ne fun hc => by rw [← hc]

theorem State.tileStopped_scrubTile (s : State) (t : TileId) (id : Nat) :
    s.TileStopped t (s.scrubTile t id) ∧ (s.scrubTile t id).Cleared t := by
  have hstop := s.tileStopped_stopTile t .aborted id
  unfold State.scrubTile
  extract_lets s₁ _ s₂ s₃ c s₄ p
  have hzero : s₄.SameUnits ((s₄.zero (tileAddr t.val 0) (s₄.bandBase p)).zero (tileAddr t.val 0x1A000) 0xC00) := ⟨rfl, rfl, rfl⟩
  have hvoid : s₂.SameUnits s₃ := ⟨rfl, rfl, rfl⟩
  have htile : ∀ i, s₄.tile i = s₂.tile i := fun _ => rfl
  have hself : s₂.tile t = { s₁.tile t with xfers := [], progLen := 0 } := State.tile_setTile_self ..
  have hother : ∀ i, i ≠ t → s₂.tile i = s₁.tile i := fun i hi => State.tile_setTile_of_ne _ _ hi.symm
  refine ⟨⟨?_, fun i hi => ?_, fun i hi => ?_, fun d q => ?_, hzero.calends.trans hstop.calends⟩, ?_, ?_, ?_, ?_⟩
  · rw [hzero.tile, htile, hself, hstop.task]
  · rw [hzero.tile, htile, hother i hi, hstop.tiles i hi]
  · rw [hzero.heldProgram, s₃.heldProgram_holdProgram_of_ne c hi]
    exact (hvoid.heldProgram i).trans (hstop.programs i hi)
  · rw [hzero.queue, s₃.queue_holdProgram]
    exact (hvoid.queue d q).trans (hstop.queues d q)
  · rw [hzero.tile, htile, hself, hstop.task]
  · rw [hzero.tile, htile, hself]
  · rw [hzero.tile, htile, hself]
  · rw [hzero.heldProgram, s₃.heldProgram_holdProgram_self]

/-- Steps 4 and 5 of R367 for the tiles of a task. -/
def State.scrubTileAt (id : Nat) (s : State) (t : Nat) : State := if h : t < 4096 then s.scrubTile ⟨t, h⟩ id else s

/-- VI_TILE_SCRUB for one task. -/
def State.scrubTask (c : Nat) (s : State) (e : Nat × Task) : State :=
  (((taskTiles c e.2.desc).foldl (State.scrubTileAt (taskId e.2.desc)) s).taskOut c e.1 e.2 .aborted).finishRun e.2.cmd

/-- VI_TILE_SCRUB in one cluster. -/
def State.scrubIn (v : Nat) (s : State) (c : Nat) : State :=
  ((s.viTasks v c).filter (fun e => e.2.phase = .dispatched)).foldl (State.scrubTask c) s

theorem exec_viTileScrub_of_resetting {v : ViId} {s : State} (hreset : (s.vi v.val).resetting.isSome = true) :
    exec (.viTileScrub v) s = .next ((List.range 8).foldl (State.scrubIn v.val) s) := by
  have hset : (s.vi v.val).resetting ≠ none := Option.isSome_iff_ne_none.1 hreset
  change execViTileScrub v s = _
  rw [execViTileScrub, if_neg (by simpa using hset)]
  rfl

/-- No task comes to a queue, and a tile that is cleared stays so. -/
structure State.TasksScrub (s u : State) : Prop where
  noNew : s.NoNewTasks u
  cleared : ∀ i, s.Cleared i → u.Cleared i

theorem State.TasksScrub.refl (s : State) : s.TasksScrub s := ⟨.refl s, fun _ h => h⟩

theorem State.TasksScrub.trans {s u v : State} (h : s.TasksScrub u) (k : u.TasksScrub v) : s.TasksScrub v :=
  ⟨h.noNew.trans k.noNew, fun i hi => k.cleared i (h.cleared i hi)⟩

theorem State.SameUnits.tasksScrub {s u : State} (h : s.SameUnits u) : s.TasksScrub u :=
  ⟨h.noNewTasks, fun i hi => hi.of_same (h.tile i) (h.heldProgram i)⟩

theorem State.scrubTileAt_of_tile (id : Nat) (s : State) (i : TileId) : State.scrubTileAt id s i.val = s.scrubTile i id := dif_pos i.isLt

theorem State.queue_scrubTileAt (id : Nat) (s : State) (t c q : Nat) : (State.scrubTileAt id s t).queue c q = s.queue c q := by
  unfold State.scrubTileAt
  split
  · exact (s.tileStopped_scrubTile _ id).1.queues c q
  · rfl

theorem State.tasksScrub_scrubTileAt (id : Nat) (s : State) (t : Nat) : s.TasksScrub (State.scrubTileAt id s t) := by
  unfold State.scrubTileAt
  split
  next ht =>
    obtain ⟨hstopped, hcleared⟩ := s.tileStopped_scrubTile ⟨t, ht⟩ id
    refine ⟨⟨hstopped.calends, fun c q x hx => hstopped.queues c q ▸ hx⟩, fun i hi => ?_⟩
    by_cases hit : i = ⟨t, ht⟩
    · rw [hit]
      exact hcleared
    · exact hi.of_same (hstopped.tiles i hit) (hstopped.programs i hit)
  next => exact .refl s

theorem State.heldProgram_taskOut (s : State) (c q : Nat) (t : Task) (e : TaskEnd) (i : TileId) :
    (s.taskOut c q t e).heldProgram i = s.heldProgram i := by
  obtain ⟨w, hw, hout⟩ := s.taskOut_eq c q t e
  have hkept : w.heldProgram i = s.heldProgram i := (hw.heldProgram i).trans (s.heldProgram_setSeq c rfl)
  rw [hout]
  split
  · rw [State.restartWatchdog, w.heldProgram_setSeq c (x := { w.seq c with watchdogFrom := w.calends }) rfl, hkept]
  · exact hkept

theorem State.tasksScrub_taskOut (s : State) (c q : Nat) (t : Task) (e : TaskEnd) : s.TasksScrub (s.taskOut c q t e) := by
  refine ⟨s.noNewTasks_taskOut .., fun i hi => hi.of_same ?_ (s.heldProgram_taskOut ..)⟩
  rw [State.tile, State.tile, State.taskOut_tiles]

theorem State.tasksScrub_scrubTask (c : Nat) (s : State) (e : Nat × Task) : s.TasksScrub (State.scrubTask c s e) :=
  ((foldl_related .refl .trans (State.tasksScrub_scrubTileAt (taskId e.2.desc)) (taskTiles c e.2.desc) s).trans (State.tasksScrub_taskOut ..)).trans
    (State.sameUnits_finishRun ..).tasksScrub

theorem State.task_scrubTask_self (c : Nat) (s : State) (e : Nat × Task) : (State.scrubTask c s e).task c e.1 e.2.slot = none := by
  rw [State.scrubTask]
  exact (State.sameUnits_finishRun _ e.2.cmd).noNewTasks.task_eq_none (State.task_taskOut_self ..)

theorem State.cleared_scrubTask (c : Nat) (s : State) (e : Nat × Task) {i : TileId} (hi : i.val ∈ taskTiles c e.2.desc) :
    (State.scrubTask c s e).Cleared i := by
  obtain ⟨w, -, hrest⟩ := foldl_around (R := State.TasksScrub) .refl .trans (State.tasksScrub_scrubTileAt (taskId e.2.desc)) hi s
  have hleft := hrest.trans ((State.tasksScrub_taskOut _ c e.1 e.2 .aborted).trans (State.sameUnits_finishRun _ e.2.cmd).tasksScrub)
  refine hleft.cleared i ?_
  rw [State.scrubTileAt_of_tile]
  exact (w.tileStopped_scrubTile i _).2

theorem State.queue_scrubTask_of_ne {c d : Nat} (h : c ≠ d) (s : State) (e : Nat × Task) (q : Nat) :
    (State.scrubTask c s e).queue d q = s.queue d q := by
  have htiles := foldl_related (R := fun s u : State => u.queue d q = s.queue d q) (fun _ => rfl) (fun h k => k.trans h)
    (fun w t => w.queue_scrubTileAt (taskId e.2.desc) t d q) (taskTiles c e.2.desc) s
  rw [State.scrubTask, (State.sameUnits_finishRun ..).queue, State.queue_taskOut, State.queue_setQueue_of_ne _ _ fun hcd => h hcd.1]
  exact htiles

theorem State.tasksScrub_scrubIn (v : Nat) (s : State) (c : Nat) : s.TasksScrub (State.scrubIn v s c) :=
  foldl_related .refl .trans (State.tasksScrub_scrubTask c) _ s

theorem State.queue_scrubIn_of_ne (v : Nat) {c d : Nat} (h : c ≠ d) (s : State) (q : Nat) : (State.scrubIn v s c).queue d q = s.queue d q :=
  foldl_related (R := fun s u : State => u.queue d q = s.queue d q) (fun _ => rfl) (fun h k => k.trans h)
    (fun w e => State.queue_scrubTask_of_ne h w e q) _ s

theorem State.queue_foldl_scrubIn (v : Nat) {l : List Nat} {d : Nat} (h : d ∉ l) (s : State) (q : Nat) :
    (l.foldl (State.scrubIn v) s).queue d q = s.queue d q := by
  induction l generalizing s with
  | nil => rfl
  | cons c l ih =>
    rw [List.mem_cons, not_or] at h
    obtain ⟨hdc, hdl⟩ := h
    rw [List.foldl_cons, ih hdl, State.queue_scrubIn_of_ne v (Ne.symm hdc)]

section
variable {s : State} {v c q : Nat} {t : Task} (ht : t ∈ s.queue c q) (hv : t.cmd.vi = v) (hphase : t.phase = .dispatched)
include ht hv hphase

/-- A DISPATCHED task of the VI is met in its cluster's turn. -/
theorem State.scrubIn_meets : ∃ w, State.TasksScrub (State.scrubTask c w (q, t)) (State.scrubIn v s c) := by
  have hmem : (q, t) ∈ (s.viTasks v c).filter (fun e => e.2.phase = .dispatched) :=
    List.mem_filter.2 ⟨State.mem_viTasks ht hv, by simpa using hphase⟩
  obtain ⟨w, -, hrest⟩ := foldl_around (R := State.TasksScrub) .refl .trans (State.tasksScrub_scrubTask c) hmem s
  exact ⟨w, hrest⟩

theorem State.not_mem_scrubIn : t ∉ (State.scrubIn v s c).queue c q := by
  obtain ⟨w, hrest⟩ := State.scrubIn_meets ht hv hphase
  exact fun hthere => State.task_eq_none_iff.1 (State.task_scrubTask_self c w (q, t)) t (hrest.noNew.tasks c q t hthere) rfl

theorem State.cleared_scrubIn {i : TileId} (hi : i.val ∈ taskTiles c t.desc) : (State.scrubIn v s c).Cleared i := by
  obtain ⟨w, hrest⟩ := State.scrubIn_meets ht hv hphase
  exact hrest.cleared i (State.cleared_scrubTask c w (q, t) hi)

end

/-- After VI_TILE_SCRUB no task of the VI is DISPATCHED. -/
theorem State.not_dispatched_of_scrub {s : State} {v c q : Nat} {t : Task} (hc : c < 8)
    (ht : t ∈ ((List.range 8).foldl (State.scrubIn v) s).queue c q) : ¬ (t.cmd.vi = v ∧ t.phase = .dispatched) := by
  rintro ⟨hv, hphase⟩
  obtain ⟨w, -, hlater⟩ := foldl_around (R := State.TasksScrub) .refl .trans (State.tasksScrub_scrubIn v) (List.mem_range.2 hc) s
  have hthere := hlater.noNew.tasks c q t ht
  exact State.not_mem_scrubIn ((State.tasksScrub_scrubIn v w c).noNew.tasks c q t hthere) hv hphase hthere

theorem clusterOfTile_of_mem_taskTiles {c d i : Nat} (h : i ∈ taskTiles c d) : clusterOfTile i = c := by
  obtain ⟨j, hj, rfl⟩ := List.mem_map.1 h
  have hlt := List.mem_range.1 (List.mem_filter.1 hj).1
  show (j + 512 * c) / 512 = c
  omega

/-- VI_TILE_SCRUB clears the tiles of the VI's DISPATCHED tasks. -/
theorem State.cleared_of_scrub {s : State} {v c q : Nat} {t : Task} (hc : c < 8) (ht : t ∈ s.queue c q) (hv : t.cmd.vi = v)
    (hphase : t.phase = .dispatched) {i : TileId} (hi : i.val ∈ taskTiles c t.desc) : ((List.range 8).foldl (State.scrubIn v) s).Cleared i := by
  obtain ⟨l₁, l₂, hl, hfirst⟩ := List.eq_append_cons_of_mem (List.mem_range.2 hc)
  rw [hl, List.foldl_append, List.foldl_cons]
  have hthere : t ∈ (l₁.foldl (State.scrubIn v) s).queue c q := by rwa [State.queue_foldl_scrubIn v hfirst]
  exact (foldl_related .refl .trans (State.tasksScrub_scrubIn v) l₂ _).cleared i (State.cleared_scrubIn hthere hv hphase hi)

/-! ### O46 -/

theorem exec_viReset_of_freezing {v : ViId} {s : State} (hfreeze : s.freezing ((s.viPart v.val).getD 8) = true) :
    exec (.viReset v) s = .next { s with vigil := { s.vigil with waitingVis := (s.vigil.waitingVis ++ [v.val]).eraseDups } } :=
  congrArg Host.Outcome.next (if_pos hfreeze)

theorem exec_viReset_of_not_freezing {v : ViId} {s : State} (hfreeze : s.freezing ((s.viPart v.val).getD 8) = false) :
    exec (.viReset v) s = .next (s.startViReset v.val) :=
  congrArg Host.Outcome.next (if_neg (by simp [hfreeze]))

theorem State.absorbs_eq_true_iff (s : State) (p : Option Nat) :
    s.absorbs p = true ↔ s.power.porHeld = true ∨ s.power.holds ≠ [] ∨ ∃ q, p = some q ∧ (s.partition q).state = .resetting := by
  cases p with
  | none => simp [State.absorbs]
  | some q => simp [State.absorbs, or_assoc]

theorem State.startViReset_of_resetting {s : State} {v : Nat} (hreset : (s.vi v).resetting.isSome = true) : s.startViReset v = s :=
  if_pos hreset

theorem State.startViReset_of_absorbs {s : State} {v : Nat} (hreset : (s.vi v).resetting = none) (habsorbs : s.absorbs (s.viPart v) = true) :
    s.startViReset v = s.setVi v { s.vi v with vf := (s.vi v).vf && s.vfOn v } :=
  (if_neg (by simp [hreset])).trans (if_pos habsorbs)

/-- A state that ends the reset of a VI from one in which the host's registers are as before. -/
theorem State.ViResetEnded.of_hostKept {s t u : State} {v : Nat} (h : t.ViResetEnded v u) (k : s.HostKept t) : s.ViResetEnded v u :=
  ⟨h.resetting, h.rings, h.cmds, h.event, fun w hw => by rw [h.others w hw, k.vi]⟩

theorem exec_ends_viReset {v : ViId} {i : Instr} {s : State} (hreset : (s.vi v.val).resetting.isSome = true)
    (hi : i = .viResetForce v ∨ (i = .viResetComplete v ∧ s.viRequests v.val = [] ∧ s.viDispatched v.val = false)) :
    ∃ u, exec i s = .next u ∧ s.ViResetEnded v.val u := by
  obtain rfl | ⟨rfl, hreqs, htasks⟩ := hi
  · exact ⟨_, exec_viResetForce_of_resetting hreset,
      (State.viResetEnded_endViReset _ v.val).of_hostKept (s.hostKept_forcedOut v.val)⟩
  · exact ⟨_, exec_viResetComplete_of_done hreset hreqs htasks, s.viResetEnded_endViReset v.val⟩

/-- Settles O46, step by step of R367: the reset starts (`viResetStarted_startViReset`), the tiles are cleared
(`not_dispatched_of_scrub`, `cleared_of_scrub`), and it ends (`viResetEnded_endViReset`). -/
theorem viResetsFollowTheirSteps : Obligations.ViResetsFollowTheirSteps := by
  unfold Obligations.ViResetsFollowTheirSteps
  refine ⟨fun v s => ⟨fun hreset hfreeze => ?merged, exec_viReset_of_freezing, fun hreset hfreeze hheld => ?absorbed,
      fun hreset hfreeze hpor hholds hpart => ?started⟩,
    fun v s hreset => ?scrubbed, fun v s i hreset hi => ?ended,
    fun v s => ⟨exec_of_not_resetting, exec_viResetComplete_of_waiting⟩⟩
  case merged => rw [exec_viReset_of_not_freezing hfreeze, State.startViReset_of_resetting hreset]
  case absorbed =>
    rw [exec_viReset_of_not_freezing hfreeze, State.startViReset_of_absorbs hreset ((s.absorbs_eq_true_iff _).2 hheld)]
  case started =>
    have habsorbs : s.absorbs (s.viPart v.val) = false := by
      rw [Bool.eq_false_iff, Ne, State.absorbs_eq_true_iff]
      rintro (hp | hh | ⟨p, hvp, hstate⟩)
      · simp [hpor] at hp
      · exact hh hholds
      · exact hpart p hvp hstate
    have hstarted := State.viResetStarted_startViReset hreset habsorbs
    exact ⟨_, exec_viReset_of_not_freezing hfreeze, hstarted.resetting, hstarted.others, hstarted.cmds, hstarted.tasks⟩
  case scrubbed =>
    refine ⟨_, exec_viTileScrub_of_resetting hreset, fun c hc q t ht => State.not_dispatched_of_scrub hc ht,
      fun c hc q t ht hv hphase i hi => ?_⟩
    have hcleared := State.cleared_of_scrub hc ht hv hphase hi
    have hprogram := hcleared.program
    rw [State.heldProgram, clusterOfTile_of_mem_taskTiles hi] at hprogram
    exact ⟨hcleared.task, hcleared.progLen, hcleared.xfers, hprogram⟩
  case ended =>
    obtain ⟨u, hgo, hended⟩ := exec_ends_viReset hreset hi
    exact ⟨u, hgo, hended.resetting, hended.rings.cqEnable, hended.rings.cqHead, hended.rings.cqTail, hended.rings.rings, hended.cmds, hended.event,
      fun w hw => by rw [hended.others w hw]; exact ⟨rfl, rfl⟩⟩

end Sys2Proof.Machine
